-- ==== Sys2Proof/Word.lean ====
section
/-! DEFINITION. The word types of the Limlon 1248: the widths the manual gives its registers, lines and fields. -/

namespace Sys2Proof

/-- A 64-bit register, slot or address before translation (R6, R69). -/
abbrev Word := BitVec 64

/-- One byte. -/
abbrev Byte := BitVec 8

/-- The data of one 64-byte line (R193), byte 0 in bits 7..0 (R6). -/
abbrev Line := BitVec 512

/-- The vector accumulator's width (Table 3-1). -/
abbrev Vec := BitVec 256

/-- Sparse data by number: entries in strictly rising order of key, at most one for a key. -/
abbrev Table (α : Type) := List (Nat × α)

end Sys2Proof
end

