-- ==== Sys2Proof/Syntax.lean ====
section
/-! DEFINITION. The commands of the Limlon 1248, one constructor for each row of spec/opcode_table.json, with the row's
operands, and the types of what the fabric's messages carry (Tables 8-2, 9-2 and 10-1). -/

namespace Sys2Proof

/-- What a message carries of its transaction and tenant (R264, R265, R266): the requester's node, TAG and GEN, the TID
and the QoS class of the route word. -/
structure Hdr where
  node : Nat
  tag : Nat
  gen : BitVec 2
  tid : BitVec 12
  cls : BitVec 3
  deriving DecidableEq, Repr

/-- Line data with its poison mark (R234). -/
structure LineData where
  bytes : Line
  poison : Bool
  deriving DecidableEq, Repr

/-- The payload of WrPart (Table 8-2): up to 32 bytes, a mask bit for each, and the line byte that data byte 0 fills. -/
structure Part where
  data : BitVec 256
  mask : BitVec 32
  offset : BitVec 6
  poison : Bool
  deriving DecidableEq, Repr

/-- The payload of Atom (Table 8-2, R92): operation code, size, ORDER, operand, compare value; `uncached` says whether
the translation was uncached (R252, R253). -/
structure AtomOp where
  op : BitVec 4
  wide : Bool
  order : BitVec 2
  operand : BitVec 128
  compare : BitVec 128
  uncached : Bool
  poison : Bool
  deriving DecidableEq, Repr

/-- Table 8-1: the states of an L2 line that is present; `i` stands for Invalid. -/
inductive L2St where
  | m | o | e | s | i
  deriving DecidableEq, Repr

/-- What the SEC-DED check of one flit word finds (R267). -/
inductive WordErr where
  | clean | corrected | uncorrectable
  deriving DecidableEq, Repr

/-- The kinds of access that translation tells apart (R172, R177, R178); `walk` is a walk read. -/
inductive Access where
  | fetch | load | store | atomic
  deriving DecidableEq, Repr

/-- A Contrail frame with a right CHECK as a mirror port receives it (Table 15-4): the port, the sender's MAC address, the
header's fields and the payload. Its TYPE is the row that takes it. -/
structure CFrame where
  port : Nat
  mac : BitVec 48
  ver : Byte
  src : BitVec 16
  dst : BitVec 16
  gen : BitVec 16
  tid : BitVec 16
  epoch : BitVec 32
  seq : BitVec 64
  payload : List Byte
  deriving DecidableEq, Repr

/-- A DTL header without its TYPE (Table 13-8). -/
structure DtlHdr where
  flags : Byte
  tag : BitVec 16
  info : BitVec 32
  addr : Word
  deriving DecidableEq, Repr

/-- A host access into the guest window (R376). -/
inductive GuestOp where
  | rd
  | wr (d : LineData)
  | wrp (p : Part)
  deriving DecidableEq, Repr

/-- What arrives at a door (Table 16-2, Table 18-2). -/
inductive Arrival where
  | snoop (code : Nat) (req : Hdr) (line : Nat)
  | delivery (tid : BitVec 12) (vector : BitVec 9)
  | broadcast (issuer : Nat)
  | layer1 (line : Nat)
  | access (h : Hdr) (pa : Nat)
  | pauseNotice (tid : BitVec 12)
  deriving DecidableEq, Repr

/-- The commands. A Gliwin instruction names its core `c` and every field of its word, a message names what it carries, an
event names the unit it happens at. -/
inductive Instr where
  /-- RDS (R241). -/
  | rds (h : Hdr) (line : Nat) (shared : Bool) (hash : Option (BitVec 10))
  /-- RDX (R241). -/
  | rdx (h : Hdr) (line : Nat) (hash : Option (BitVec 10))
  /-- UPG (R241). -/
  | upg (h : Hdr) (line : Nat)
  /-- CLAIM (R241). -/
  | claim (h : Hdr) (line : Nat)
  /-- RDCUR (R241). -/
  | rdcur (h : Hdr) (line : Nat)
  /-- WRLINE (R249). -/
  | wrline (h : Hdr) (line : Nat) (d : LineData)
  /-- WRPART (R249). -/
  | wrpart (h : Hdr) (line : Nat) (p : Part)
  /-- ATOM (R252). -/
  | atom (h : Hdr) (pa : Nat) (a : AtomOp)
  /-- WBREQ (R241). -/
  | wbreq (h : Hdr) (line : Nat)
  /-- OFFER (R213). -/
  | offer (h : Hdr) (line : Nat)
  /-- DROP (R247). -/
  | drop (h : Hdr) (line : Nat)
  /-- CWBREQ (R241). -/
  | cwbreq (h : Hdr) (line : Nat)
  /-- CFLREQ (R241). -/
  | cflreq (h : Hdr) (line : Nat)
  /-- HAZERD (R248). -/
  | hazerd (h : Hdr) (line : Nat)
  /-- SNPS (R245). -/
  | snps (req : Hdr) (holder : Nat) (line : Nat)
  /-- SNPX (R245). -/
  | snpx (req : Hdr) (holder : Nat) (line : Nat)
  /-- SNPINV (R245). -/
  | snpinv (req : Hdr) (holder : Nat) (line : Nat)
  /-- SNPCUR (R245). -/
  | snpcur (req : Hdr) (holder : Nat) (line : Nat)
  /-- SNPFLUSH (R245). -/
  | snpflush (req : Hdr) (holder : Nat) (line : Nat)
  /-- SNPCLEAN (R245). -/
  | snpclean (req : Hdr) (holder : Nat) (line : Nat)
  /-- GO (R242). -/
  | go (h : Hdr) (line : Nat)
  /-- CMP (R21). -/
  | cmp (h : Hdr) (line : Nat)
  /-- CMPACK (R241). -/
  | cmpack (h : Hdr) (line : Nat)
  /-- WBGO (R212). -/
  | wbgo (h : Hdr) (line : Nat)
  /-- WBCANCEL (R245). -/
  | wbcancel (h : Hdr) (line : Nat)
  /-- ACCEPT (R212). -/
  | accept (h : Hdr) (line : Nat)
  /-- DECLINE (R212). -/
  | decline (h : Hdr) (line : Nat)
  /-- ACCEPTHELD (R213). -/
  | acceptheld (h : Hdr) (line : Nat)
  /-- ACKI (R245). -/
  | acki (holder : Nat) (line : Nat)
  /-- ACKS (R245). -/
  | acks (holder : Nat) (line : Nat)
  /-- ACKE (R245). -/
  | acke (holder : Nat) (line : Nat)
  /-- ACKO (R245). -/
  | acko (holder : Nat) (line : Nat)
  /-- NOTPRESENT (R245). -/
  | notpresent (holder : Nat) (line : Nat)
  /-- HAZENO (R156). -/
  | hazeno (h : Hdr) (line : Nat)
  /-- ERR (R269). -/
  | err (h : Hdr) (pa : Nat) (code : BitVec 16)
  /-- DATAS (R242). -/
  | datas (h : Hdr) (line : Nat) (d : LineData)
  /-- DATAE (R242). -/
  | datae (h : Hdr) (line : Nat) (d : LineData)
  /-- DATAM (R242). -/
  | datam (h : Hdr) (line : Nat) (d : LineData)
  /-- FWDS (R242). -/
  | fwds (h : Hdr) (line : Nat) (d : LineData)
  /-- FWDM (R242). -/
  | fwdm (h : Hdr) (line : Nat) (d : LineData)
  /-- SNPDATA (R245). -/
  | snpdata (holder : Nat) (line : Nat) (d : LineData) (st : L2St)
  /-- WBDATA (R212). -/
  | wbdata (h : Hdr) (line : Nat) (d : LineData)
  /-- OFFERDATA (R212). -/
  | offerdata (h : Hdr) (line : Nat) (d : LineData)
  /-- CURDATA (R249). -/
  | curdata (h : Hdr) (line : Nat) (d : LineData)
  /-- HAZEDATA (R156). -/
  | hazedata (h : Hdr) (line : Nat) (d : LineData)
  /-- ATOMDATA (R254). -/
  | atomdata (h : Hdr) (pa : Nat) (old : BitVec 128) (poison : Bool)
  /-- MRD (R296). -/
  | mrd (line : Nat)
  /-- MWR (R294). -/
  | mwr (line : Nat)
  /-- MMERGE (R294). -/
  | mmerge (line : Nat) (p : Part)
  /-- MATOM (R253). -/
  | matom (req : Hdr) (pa : Nat) (a : AtomOp)
  /-- MWRGO (R294). -/
  | mwrgo (line : Nat)
  /-- MWRDATA (R301). -/
  | mwrdata (line : Nat) (d : LineData)
  /-- MDATA (R293). -/
  | mdata (line : Nat) (d : LineData)
  /-- FAULT_MESSAGE (R437). -/
  | faultMessage (source : BitVec 16) (kind : BitVec 8) (tid : Option (BitVec 12)) (addr : Nat)
  /-- RESIDENCY_UPDATE (R312). -/
  | residencyUpdate (c : Nat) (tid : BitVec 12) (tswitch : Bool)
  /-- RESIDENCY_ANSWER (R322). -/
  | residencyAnswer (c : Nat) (cls : BitVec 3) (mask : BitVec 8)
  /-- ROUTER_MESSAGE (R318). -/
  | routerMessage (tid : BitVec 12) (vector : BitVec 9)
  /-- INTERRUPT_DELIVERY (R319). -/
  | interruptDelivery (c : Nat) (tid : BitVec 12) (vector : BitVec 9)
  /-- BLOCK_NOTICE (R369). -/
  | blockNotice (engine : Nat) (tid : BitVec 12)
  /-- DRAINED_NOTICE (R331). -/
  | drainedNotice (engine : Nat) (tid : BitVec 12) (aborted : Nat)
  /-- SCRUBBED_NOTICE (R331). -/
  | scrubbedNotice (engine : Nat) (tid : BitVec 12)
  /-- TLBI_BROADCAST_TAKE (R188). -/
  | tlbiBroadcastTake (c : Nat) (issuer : Nat)
  /-- RANGE_STEP_ACK (R338). -/
  | rangeStepAck
  /-- KEY_UPDATE (R310). -/
  | keyUpdate (stack : Nat)
  /-- GATE_CHECK (R340). -/
  | gateCheck (c : Nat) (eid : BitVec 10) (target : Word) (gate : BitVec 16)
  /-- SAVE_AREA_ACKED (R342). -/
  | saveAreaAcked (c : Nat)
  /-- PAUSE_NOTICE_CORE (R397). -/
  | pauseNoticeCore (c : Nat) (tid : BitVec 12)
  /-- PAUSE_NOTICE_ENGINE (R398). -/
  | pauseNoticeEngine (u : Nat) (tid : BitVec 12)
  /-- ROUTER_PAUSE_NOTICE (R452). -/
  | routerPauseNotice (tid : BitVec 12)
  /-- ROUTER_RECORD_REQUEST (R453). -/
  | routerRecordRequest (tid : BitVec 12)
  /-- PAUSED_NOTICE (R396). -/
  | pausedNotice (u : Nat) (tid : BitVec 12)
  /-- SEAL_NOTICE (R396). -/
  | sealNotice (n : Nat) (tid : BitVec 12)
  /-- SEALED_NOTICE (R396). -/
  | sealedNotice (n : Nat) (tid : BitVec 12)
  /-- SLEEP_REQUEST (R420). -/
  | sleepRequest (d : Nat)
  /-- SLEEP_ANSWER (R421). -/
  | sleepAnswer (d : Nat) (agree : Bool)
  /-- SEQ_TABLE_REQUEST (R63). -/
  | seqTableRequest (purpose : Nat) (param : Nat)
  /-- FULL_RESET (R447). -/
  | fullReset (cause : Nat)
  /-- MIRROR_LEAVE (R461). -/
  | mirrorLeave
  /-- HELD_FRAME_COPY (R405). -/
  | heldFrameCopy (qpn : Nat)
  /-- UNIT_DRAINED (R23). -/
  | unitDrained (d : Nat)
  /-- GUEST_WINDOW_ACCESS (R376). -/
  | guestWindowAccess (h : Hdr) (offset : Nat) (op : GuestOp)
  /-- RING_FRAME_RECEIVE (R280). -/
  | ringFrameReceive (src : Nat) (dst : Nat) (channel : Nat) (frame : BitVec 768)
  /-- CACHE_SECTION_ARRIVAL (R200). -/
  | cacheSectionArrival (compute : Bool) (die : Nat)
  /-- BRIXMEN_REQUEST (R473). -/
  | brixmenRequest (ip : BitVec 32) (port : Nat) (bytes : List Byte)
  /-- ADD (R88). -/
  | add (c : Nat) (d sa sb : BitVec 5)
  /-- SUB (R88). -/
  | sub (c : Nat) (d sa sb : BitVec 5)
  /-- AND (R88). -/
  | andT (c : Nat) (d sa sb : BitVec 5)
  /-- OR (R88). -/
  | orT (c : Nat) (d sa sb : BitVec 5)
  /-- XOR (R88). -/
  | xor (c : Nat) (d sa sb : BitVec 5)
  /-- SHL (R82). -/
  | shl (c : Nat) (d sa sb : BitVec 5)
  /-- SHR (R82). -/
  | shr (c : Nat) (d sa sb : BitVec 5)
  /-- SAR (R82). -/
  | sar (c : Nat) (d sa sb : BitVec 5)
  /-- ROR (R82). -/
  | ror (c : Nat) (d sa sb : BitVec 5)
  /-- MIN (R88). -/
  | min (c : Nat) (d sa sb : BitVec 5)
  /-- MAX (R88). -/
  | max (c : Nat) (d sa sb : BitVec 5)
  /-- MINU (R88). -/
  | minu (c : Nat) (d sa sb : BitVec 5)
  /-- MAXU (R88). -/
  | maxu (c : Nat) (d sa sb : BitVec 5)
  /-- SLT (R88). -/
  | slt (c : Nat) (d sa sb : BitVec 5)
  /-- SLTU (R88). -/
  | sltu (c : Nat) (d sa sb : BitVec 5)
  /-- MOVS (R88). -/
  | movs (c : Nat) (d sa sb : BitVec 5)
  /-- CLZ (R88). -/
  | clz (c : Nat) (d sa sb : BitVec 5)
  /-- CTZ (R88). -/
  | ctz (c : Nat) (d sa sb : BitVec 5)
  /-- POPC (R88). -/
  | popc (c : Nat) (d sa sb : BitVec 5)
  /-- BSWAP (R88). -/
  | bswap (c : Nat) (d sa sb : BitVec 5)
  /-- MUL (R88). -/
  | mul (c : Nat) (d sa sb : BitVec 5)
  /-- MULH (R88). -/
  | mulh (c : Nat) (d sa sb : BitVec 5)
  /-- MULHU (R88). -/
  | mulhu (c : Nat) (d sa sb : BitVec 5)
  /-- DIV (R82). -/
  | div (c : Nat) (d sa sb : BitVec 5)
  /-- DIVU (R82). -/
  | divu (c : Nat) (d sa sb : BitVec 5)
  /-- REM (R82). -/
  | rem (c : Nat) (d sa sb : BitVec 5)
  /-- REMU (R82). -/
  | remu (c : Nat) (d sa sb : BitVec 5)
  /-- AESE (R89). -/
  | aese (c : Nat) (d sa sb : BitVec 5)
  /-- AESEL (R89). -/
  | aesel (c : Nat) (d sa sb : BitVec 5)
  /-- AESD (R89). -/
  | aesd (c : Nat) (d sa sb : BitVec 5)
  /-- AESDL (R89). -/
  | aesdl (c : Nat) (d sa sb : BitVec 5)
  /-- AESSUB (R89). -/
  | aessub (c : Nat) (d sa sb : BitVec 5)
  /-- SHA256R (R89). -/
  | sha256r (c : Nat) (d sa sb : BitVec 5)
  /-- SHA256W (R89). -/
  | sha256w (c : Nat) (d sa sb : BitVec 5)
  /-- SHA512R (R89). -/
  | sha512r (c : Nat) (d sa sb : BitVec 5)
  /-- SHA512W (R89). -/
  | sha512w (c : Nat) (d sa sb : BitVec 5)
  /-- CRC32CB (R89). -/
  | crc32cb (c : Nat) (d sa sb : BitVec 5)
  /-- CRC32CH (R89). -/
  | crc32ch (c : Nat) (d sa sb : BitVec 5)
  /-- CRC32CW (R89). -/
  | crc32cw (c : Nat) (d sa sb : BitVec 5)
  /-- CRC32CD (R89). -/
  | crc32cd (c : Nat) (d sa sb : BitVec 5)
  /-- FADD (R83). -/
  | fadd (c : Nat) (d sa sb : BitVec 5)
  /-- FSUB (R83). -/
  | fsub (c : Nat) (d sa sb : BitVec 5)
  /-- FMUL (R83). -/
  | fmul (c : Nat) (d sa sb : BitVec 5)
  /-- FDIV (R83). -/
  | fdiv (c : Nat) (d sa sb : BitVec 5)
  /-- FSQRT (R83). -/
  | fsqrt (c : Nat) (d sa sb : BitVec 5)
  /-- FMIN (R83). -/
  | fmin (c : Nat) (d sa sb : BitVec 5)
  /-- FMAX (R83). -/
  | fmax (c : Nat) (d sa sb : BitVec 5)
  /-- FMA (R83). -/
  | fma (c : Nat) (d sa sb : BitVec 5)
  /-- FCVTI (R83). -/
  | fcvti (c : Nat) (d sa sb : BitVec 5)
  /-- FCVTF (R83). -/
  | fcvtf (c : Nat) (d sa sb : BitVec 5)
  /-- FLT (R83). -/
  | flt (c : Nat) (d sa sb : BitVec 5)
  /-- FEQ (R83). -/
  | feq (c : Nat) (d sa sb : BitVec 5)
  /-- VADD (R90). -/
  | vadd (c : Nat) (ty : BitVec 3) (d sa sb : BitVec 5)
  /-- VSUB (R90). -/
  | vsub (c : Nat) (ty : BitVec 3) (d sa sb : BitVec 5)
  /-- VMUL (R90). -/
  | vmul (c : Nat) (ty : BitVec 3) (d sa sb : BitVec 5)
  /-- VAND (R90). -/
  | vand (c : Nat) (ty : BitVec 3) (d sa sb : BitVec 5)
  /-- VOR (R90). -/
  | vor (c : Nat) (ty : BitVec 3) (d sa sb : BitVec 5)
  /-- VXOR (R90). -/
  | vxor (c : Nat) (ty : BitVec 3) (d sa sb : BitVec 5)
  /-- VMIN (R90). -/
  | vmin (c : Nat) (ty : BitVec 3) (d sa sb : BitVec 5)
  /-- VMAX (R90). -/
  | vmax (c : Nat) (ty : BitVec 3) (d sa sb : BitVec 5)
  /-- VMINU (R90). -/
  | vminu (c : Nat) (ty : BitVec 3) (d sa sb : BitVec 5)
  /-- VMAXU (R90). -/
  | vmaxu (c : Nat) (ty : BitVec 3) (d sa sb : BitVec 5)
  /-- VSHL (R90). -/
  | vshl (c : Nat) (ty : BitVec 3) (d sa sb : BitVec 5)
  /-- VSHR (R90). -/
  | vshr (c : Nat) (ty : BitVec 3) (d sa sb : BitVec 5)
  /-- VSAR (R90). -/
  | vsar (c : Nat) (ty : BitVec 3) (d sa sb : BitVec 5)
  /-- VCMPEQ (R90). -/
  | vcmpeq (c : Nat) (ty : BitVec 3) (d sa sb : BitVec 5)
  /-- VCMPLT (R90). -/
  | vcmplt (c : Nat) (ty : BitVec 3) (d sa sb : BitVec 5)
  /-- VCMPLTU (R90). -/
  | vcmpltu (c : Nat) (ty : BitVec 3) (d sa sb : BitVec 5)
  /-- VFMA (R90). -/
  | vfma (c : Nat) (ty : BitVec 3) (d sa sb : BitVec 5)
  /-- VLDS (R90). -/
  | vlds (c : Nat) (ty : BitVec 3) (d sa sb : BitVec 5)
  /-- VSTS (R90). -/
  | vsts (c : Nat) (ty : BitVec 3) (d sa sb : BitVec 5)
  /-- VBCAST (R90). -/
  | vbcast (c : Nat) (ty : BitVec 3) (d sa sb : BitVec 5)
  /-- VEXT (R90). -/
  | vext (c : Nat) (ty : BitVec 3) (d sa sb : BitVec 5)
  /-- VINS (R90). -/
  | vins (c : Nat) (ty : BitVec 3) (d sa sb : BitVec 5)
  /-- VRADD (R91). -/
  | vradd (c : Nat) (ty : BitVec 3) (d sa sb : BitVec 5)
  /-- VRMIN (R91). -/
  | vrmin (c : Nat) (ty : BitVec 3) (d sa sb : BitVec 5)
  /-- VRMAX (R91). -/
  | vrmax (c : Nat) (ty : BitVec 3) (d sa sb : BitVec 5)
  /-- AFADD (R92). -/
  | afadd (c : Nat) (z : BitVec 4) (order : BitVec 2) (wide : Bool) (d sa sb : BitVec 5)
  /-- ASWAP (R92). -/
  | aswap (c : Nat) (z : BitVec 4) (order : BitVec 2) (wide : Bool) (d sa sb : BitVec 5)
  /-- ACAS (R92). -/
  | acas (c : Nat) (z : BitVec 4) (order : BitVec 2) (wide : Bool) (d sa sb : BitVec 5)
  /-- AMIN (R92). -/
  | amin (c : Nat) (z : BitVec 4) (order : BitVec 2) (wide : Bool) (d sa sb : BitVec 5)
  /-- AMAX (R92). -/
  | amax (c : Nat) (z : BitVec 4) (order : BitVec 2) (wide : Bool) (d sa sb : BitVec 5)
  /-- AMINU (R92). -/
  | aminu (c : Nat) (z : BitVec 4) (order : BitVec 2) (wide : Bool) (d sa sb : BitVec 5)
  /-- AMAXU (R92). -/
  | amaxu (c : Nat) (z : BitVec 4) (order : BitVec 2) (wide : Bool) (d sa sb : BitVec 5)
  /-- AAND (R92). -/
  | aand (c : Nat) (z : BitVec 4) (order : BitVec 2) (wide : Bool) (d sa sb : BitVec 5)
  /-- AOR (R92). -/
  | aor (c : Nat) (z : BitVec 4) (order : BitVec 2) (wide : Bool) (d sa sb : BitVec 5)
  /-- AXOR (R92). -/
  | axor (c : Nat) (z : BitVec 4) (order : BitVec 2) (wide : Bool) (d sa sb : BitVec 5)
  /-- LI (R88). -/
  | li (c : Nat) (imm : BitVec 24)
  /-- ADDI (R88). -/
  | addi (c : Nat) (imm : BitVec 24)
  /-- SHI (R88). -/
  | shi (c : Nat) (imm : BitVec 24)
  /-- ANDI (R88). -/
  | andi (c : Nat) (imm : BitVec 24)
  /-- LIX (R88). -/
  | lix (c : Nat) (imm : BitVec 24)
  /-- ADDX (R88). -/
  | addx (c : Nat) (imm : BitVec 24)
  /-- LIY (R88). -/
  | liy (c : Nat) (imm : BitVec 24)
  /-- ADDY (R88). -/
  | addy (c : Nat) (imm : BitVec 24)
  /-- ADDF (R70). -/
  | addf (c : Nat) (imm : BitVec 24)
  /-- ORI (R88). -/
  | ori (c : Nat) (imm : BitVec 24)
  /-- XORI (R88). -/
  | xori (c : Nat) (imm : BitVec 24)
  /-- SHIFTI (R88). -/
  | shifti (c : Nat) (imm : BitVec 24)
  /-- MOV (R88). -/
  | mov (c : Nat) (imm : BitVec 24)
  /-- RET (R98). -/
  | ret (c : Nat) (imm : BitVec 24)
  /-- JA (R98). -/
  | ja (c : Nat) (imm : BitVec 24)
  /-- CALLA (R98). -/
  | calla (c : Nat) (imm : BitVec 24)
  /-- LD (R73). -/
  | ld (c : Nat) (base size : BitVec 2) (disp : BitVec 22)
  /-- LDS (R73). -/
  | lds (c : Nat) (base size : BitVec 2) (disp : BitVec 22)
  /-- ST (R73). -/
  | st (c : Nat) (base size : BitVec 2) (disp : BitVec 22)
  /-- ADD_MEM (R73). -/
  | addMem (c : Nat) (base size : BitVec 2) (disp : BitVec 22)
  /-- SUB_MEM (R73). -/
  | subMem (c : Nat) (base size : BitVec 2) (disp : BitVec 22)
  /-- AND_MEM (R73). -/
  | andMem (c : Nat) (base size : BitVec 2) (disp : BitVec 22)
  /-- OR_MEM (R73). -/
  | orMem (c : Nat) (base size : BitVec 2) (disp : BitVec 22)
  /-- XOR_MEM (R73). -/
  | xorMem (c : Nat) (base size : BitVec 2) (disp : BitVec 22)
  /-- MUL_MEM (R73). -/
  | mulMem (c : Nat) (base size : BitVec 2) (disp : BitVec 22)
  /-- LDX (R73). -/
  | ldx (c : Nat) (base size : BitVec 2) (disp : BitVec 22)
  /-- STX (R73). -/
  | stx (c : Nat) (base size : BitVec 2) (disp : BitVec 22)
  /-- LDY (R73). -/
  | ldy (c : Nat) (base size : BitVec 2) (disp : BitVec 22)
  /-- STY (R73). -/
  | sty (c : Nat) (base size : BitVec 2) (disp : BitVec 22)
  /-- LEA (R72). -/
  | lea (c : Nat) (base size : BitVec 2) (disp : BitVec 22)
  /-- VLD (R84). -/
  | vld (c : Nat) (base size : BitVec 2) (disp : BitVec 22)
  /-- VST (R84). -/
  | vst (c : Nat) (base size : BitVec 2) (disp : BitVec 22)
  /-- B_COND (R99). -/
  | bCond (c : Nat) (cond : BitVec 3) (slot : BitVec 5) (disp : BitVec 18)
  /-- JMP (R98). -/
  | jmp (c : Nat) (disp : BitVec 26)
  /-- CALL (R98). -/
  | call (c : Nat) (disp : BitVec 26)
  /-- MFSR (R117). -/
  | mfsr (c : Nat) (opnd : BitVec 16)
  /-- MTSR (R116). -/
  | mtsr (c : Nat) (opnd : BitVec 16)
  /-- MFSW (R101). -/
  | mfsw (c : Nat) (opnd : BitVec 16)
  /-- MTSW (R101). -/
  | mtsw (c : Nat) (opnd : BitVec 16)
  /-- SYNC (R124). -/
  | sync (c : Nat) (opnd : BitVec 16)
  /-- IFENCE (R127). -/
  | ifence (c : Nat) (opnd : BitVec 16)
  /-- FENCE (R134). -/
  | fence (c : Nat) (opnd : BitVec 16)
  /-- TRAP (R112). -/
  | trap (c : Nat) (opnd : BitVec 16)
  /-- SVC (R112). -/
  | svc (c : Nat) (opnd : BitVec 16)
  /-- HVC (R112). -/
  | hvc (c : Nat) (opnd : BitVec 16)
  /-- ERET (R106). -/
  | eret (c : Nat) (opnd : BitVec 16)
  /-- WFI (R111). -/
  | wfi (c : Nat) (opnd : BitVec 16)
  /-- BREAK (R112). -/
  | brk (c : Nat) (opnd : BitVec 16)
  /-- GATE (R131). -/
  | gate (c : Nat) (opnd : BitVec 16)
  /-- ENTER (R129). -/
  | enter (c : Nat) (opnd : BitVec 16)
  /-- EXIT (R130). -/
  | exit (c : Nat) (opnd : BitVec 16)
  /-- PFLUSH (R125). -/
  | pflush (c : Nat) (opnd : BitVec 16)
  /-- PBAR (R125). -/
  | pbar (c : Nat) (opnd : BitVec 16)
  /-- PMRD (R164). -/
  | pmrd (c : Nat) (opnd : BitVec 16)
  /-- PMSTOP (R164). -/
  | pmstop (c : Nat) (opnd : BitVec 16)
  /-- PMGO (R164). -/
  | pmgo (c : Nat) (opnd : BitVec 16)
  /-- TLBIV (R187). -/
  | tlbiv (c : Nat) (opnd : BitVec 16)
  /-- TLBIALL (R187). -/
  | tlbiall (c : Nat) (opnd : BitVec 16)
  /-- TLBIVB (R187). -/
  | tlbivb (c : Nat) (opnd : BitVec 16)
  /-- TLBIALLB (R187). -/
  | tlbiallb (c : Nat) (opnd : BitVec 16)
  /-- TLBITID (R187). -/
  | tlbitid (c : Nat) (opnd : BitVec 16)
  /-- CWB (R215). -/
  | cwb (c : Nat) (opnd : BitVec 16)
  /-- CFLUSH (R215). -/
  | cflush (c : Nat) (opnd : BitVec 16)
  /-- CINV (R216). -/
  | cinv (c : Nat) (opnd : BitVec 16)
  /-- CZERO (R217). -/
  | czero (c : Nat) (opnd : BitVec 16)
  /-- CPF (R218). -/
  | cpf (c : Nat) (opnd : BitVec 16)
  /-- CWBSET (R219). -/
  | cwbset (c : Nat) (opnd : BitVec 16)
  /-- CFLUSHSET (R219). -/
  | cflushset (c : Nat) (opnd : BitVec 16)
  /-- CINVSET (R219). -/
  | cinvset (c : Nat) (opnd : BitVec 16)
  /-- TSWITCH (R322). -/
  | tswitch (c : Nat) (opnd : BitVec 16)
  /-- ICLR (R314). -/
  | iclr (c : Nat) (opnd : BitVec 16)
  /-- VINJ (R315). -/
  | vinj (c : Nat) (opnd : BitVec 16)
  /-- INTERRUPT_ENTRY (R109). -/
  | interruptEntry (c : Nat)
  /-- WFI_WAKE (R111). -/
  | wfiWake (c : Nat)
  /-- BR_MISPRED (R140). -/
  | brMispred (c : Nat) (indirect : Bool)
  /-- STORE_DRAIN (R146). -/
  | storeDrain (c : Nat)
  /-- HAZE_PROMOTE (R157). -/
  | hazePromote (c : Nat) (line : Nat)
  /-- PAGE_WALK (R179). -/
  | pageWalk (c : Nat) (va : Word) (acc : Access)
  /-- TLBI_ACK_TIMEOUT (R189). -/
  | tlbiAckTimeout (c : Nat) (issuer : Nat)
  /-- L2_EVICT (R212). -/
  | l2Evict (c : Nat) (line : Nat)
  /-- ORDER_GRANT_OBSERVED (R239). -/
  | orderGrantObserved (lostAt : Option Nat)
  /-- HOME_SNOOP_TIMEOUT (R258). -/
  | homeSnoopTimeout (line : Nat) (holder : Nat)
  /-- HOME_WAIT_EXPIRED (R278). -/
  | homeWaitExpired (line : Nat)
  /-- FLIT_HOP (R267). -/
  | flitHop (die : Nat) (flit : Nat) (words : List WordErr) (routeOk : Bool)
  /-- INITIATOR_TIMEOUT (R275). -/
  | initiatorTimeout (node : Nat) (tag : Nat) (wrLine : Option Nat)
  /-- RETRY_REISSUE (R269). -/
  | retryReissue (node : Nat) (tag : Nat) (wrLine : Option Nat)
  /-- TAG_RESERVE_EXPIRY (R276). -/
  | tagReserveExpiry (node : Nat) (tag : Nat)
  /-- RING_REPLAY_TIMEOUT (R280). -/
  | ringReplayTimeout (src : Nat) (dst : Nat)
  /-- RING_IDLE_DUE (R280). -/
  | ringIdleDue (src : Nat) (dst : Nat)
  /-- DRAIN_LIMIT_EXPIRY (R24). -/
  | drainLimitExpiry (d : Nat)
  /-- TIME_BASE_UPDATE (R432). -/
  | timeBaseUpdate (periods : Nat)
  /-- TIMER_COMPARE (R314). -/
  | timerCompare (c : Nat)
  /-- HTIMER_COMPARE (R314). -/
  | htimerCompare (c : Nat)
  /-- QUIESCE_CMD_GO (R331). -/
  | quiesceCmdGo (tid : BitVec 12)
  /-- QUIESCE_DRAIN_EXPIRED (R332). -/
  | quiesceDrainExpired
  /-- TE_CTL_WRITE (R318). -/
  | teCtlWrite (tid : BitVec 12) (value : Word)
  /-- GOVERNOR_INTERVAL (R328). -/
  | governorInterval (milliamps : List Nat)
  /-- DRAM_TOKEN_WAIT_END (R327). -/
  | dramTokenWaitEnd (line : Nat)
  /-- DIE_BUDGET_REPORT (R430). -/
  | dieBudgetReport (cls : Nat) (die : Nat) (watts : Nat) (temps : List Nat)
  /-- WARDEN_CREATE (R345). -/
  | wardenCreate (req : Nat)
  /-- ADD_PAGE (R346). -/
  | addPage (req : Nat)
  /-- ADD_ENTRY (R339). -/
  | addEntry (req : Nat)
  /-- SEAL (R345). -/
  | sealRow (req : Nat)
  /-- ATTEST (R345). -/
  | attest (req : Nat)
  /-- WARDEN_DESTROY (R338). -/
  | wardenDestroy (req : Nat)
  /-- WARDEN_RESTART (R347). -/
  | wardenRestart
  /-- ENTROPY_FAILURE (R344). -/
  | entropyFailure
  /-- SEED_TRIPLE_REFILL (R201). -/
  | seedTripleRefill (c : Nat) (l1i core l2 : BitVec 16)
  /-- CUT_HOLD (R349). -/
  | cutHold (domain : Nat) (cut : Nat)
  /-- ENCLAVE_GRACE_EXPIRY (R350). -/
  | enclaveGraceExpiry (domain : Nat)
  /-- FORCED_EXIT (R351). -/
  | forcedExit (c : Nat)
  /-- QP_CREATE (R356). -/
  | qpCreate (e : Nat) (v : Word)
  /-- QP_DESTROY (R356). -/
  | qpDestroy (e : Nat) (v : Word)
  /-- QP_REARM (R367). -/
  | qpRearm (e : Nat) (v : Word)
  /-- QP_QUERY (R356). -/
  | qpQuery (e : Nat) (v : Word)
  /-- DOORBELL (R358). -/
  | doorbell (e : Nat) (tid : BitVec 12) (idx : Nat) (v : Word)
  /-- FRAME_RECEIVE (R362). -/
  | frameReceive (p : Nat) (link : Nat) (fcsOk : Bool) (bytes : List Byte)
  /-- FRAME_TRANSMITTED (R360). -/
  | frameTransmitted (p : Nat) (link : Nat)
  /-- RC_ACK_TIMEOUT (R364). -/
  | rcAckTimeout (qpn : Nat)
  /-- CNP_RATE_RECOVERY (R365). -/
  | cnpRateRecovery (qpn : Nat)
  /-- LINK_STATE_CHANGE (R354). -/
  | linkStateChange (p : Nat) (link : Nat) (up : Bool)
  /-- MGMT_FRAME_RECEIVE (R372). -/
  | mgmtFrameReceive (bytes : List Byte)
  /-- SMBUS_QUICK_COMMAND (R373). -/
  | smbusQuickCommand (addr : BitVec 7) (write : Bool)
  /-- SMBUS_READ_BYTE (R373). -/
  | smbusReadByte (addr : BitVec 7) (code : Byte)
  /-- DTL_RD (R377). -/
  | dtlRd (h : DtlHdr)
  /-- DTL_WR (R377). -/
  | dtlWr (h : DtlHdr) (d : Line)
  /-- DTL_WRP (R377). -/
  | dtlWrp (h : DtlHdr) (d : Line)
  /-- DTL_RDDATA (R376). -/
  | dtlRddata (h : DtlHdr) (d : Line)
  /-- DTL_WRACK (R376). -/
  | dtlWrack (h : DtlHdr)
  /-- DTL_MSG (R378). -/
  | dtlMsg (h : DtlHdr)
  /-- DTL_BUDGET (R431). -/
  | dtlBudget (h : DtlHdr) (d : Line)
  /-- DTL_NAK (R375). -/
  | dtlNak (h : DtlHdr)
  /-- GUEST_BUCKET_READY (R377). -/
  | guestBucketReady (stream : Nat)
  /-- GUEST_FENCE_COMPLETE (R379). -/
  | guestFenceComplete
  /-- GUEST_LINK_LOSS (R379). -/
  | guestLinkLoss
  /-- GUEST_BUDGET_TIMEOUT (R431). -/
  | guestBudgetTimeout
  /-- GUEST_SLEEP_TIMEOUT (R420). -/
  | guestSleepTimeout
  /-- FW_CTL_WRITE (R379). -/
  | fwCtlWrite (v : Word)
  /-- JOB_GO (R384). -/
  | jobGo (l : Nat) (v : Word)
  /-- JOB_ABORT (R388). -/
  | jobAbort (l : Nat) (v : Word)
  /-- LANE_REARM (R389). -/
  | laneRearm (l : Nat) (v : Word)
  /-- COMPRESSOR_BLOCK (R388). -/
  | compressorBlock (l : Nat)
  /-- SCRUB_GO (R303). -/
  | scrubGo (k : Nat) (v : Word)
  /-- SCRUB_ABORT (R305). -/
  | scrubAbort (k : Nat) (v : Word)
  /-- SCRUB_STEP (R304). -/
  | scrubStep (k : Nat)
  /-- REMAP_WRITE (R306). -/
  | remapWrite (k : Nat) (n : Nat) (v : Word)
  /-- REMAP_COPY_STEP (R306). -/
  | remapCopyStep (k : Nat)
  /-- SLICE_REMAP_WRITE (R307). -/
  | sliceRemapWrite (h : Nat) (n : Nat) (v : Word)
  /-- FLIP_ARM (R308). -/
  | flipArm (slice : Bool) (n : Nat) (v : Word)
  /-- MC_ERR_CLEAR (R226). -/
  | mcErrClear (k : Nat) (v : Word)
  /-- CLR_ERR (R226). -/
  | clrErr (h : Nat) (v : Word)
  /-- SLICE_LFSR_WRITE (R200). -/
  | sliceLfsrWrite (h : Nat) (v : Word)
  /-- VIOLATION_CLEAR (R32). -/
  | violationClear (block : Nat) (v : Word)
  /-- STAT_CLEAR (R287). -/
  | statClear (r : Nat) (v : Word)
  /-- PV_CLEAR (R380). -/
  | pvClear (u : Nat) (v : Word)
  /-- REGISTER_WRITE (R31). -/
  | registerWrite (node : Nat) (tid : BitVec 12) (pa : Nat) (wide : Bool) (v : Word)
  /-- MT_ADD (R394). -/
  | mtAdd (v : Word)
  /-- MT_REMOVE (R410). -/
  | mtRemove (v : Word)
  /-- MT_REARM (R400). -/
  | mtRearm (v : Word)
  /-- HELLO_TIMER (R392). -/
  | helloTimer
  /-- HEARTBEAT_TIMER (R407). -/
  | heartbeatTimer
  /-- HELLO (R392). -/
  | helloFrame (f : CFrame)
  /-- HEARTBEAT (R407). -/
  | heartbeatFrame (f : CFrame)
  /-- JOIN (R394). -/
  | joinFrame (f : CFrame)
  /-- JOIN_OK (R394). -/
  | joinOkFrame (f : CFrame)
  /-- JOIN_TIMEOUT (R394). -/
  | joinTimeout
  /-- CONTRAIL_DROP (R400). -/
  | contrailDrop (f : CFrame)
  /-- STATE (R401). -/
  | stateFrame (f : CFrame)
  /-- LINES (R401). -/
  | linesFrame (f : CFrame)
  /-- OUTPUT (R401). -/
  | outputFrame (f : CFrame)
  /-- END (R401). -/
  | endFrame (f : CFrame)
  /-- ACK (R401). -/
  | ackFrame (f : CFrame)
  /-- INTENT (R406). -/
  | intentFrame (f : CFrame)
  /-- GRANT (R406). -/
  | grantFrame (f : CFrame)
  /-- SENT (R406). -/
  | sentFrame (f : CFrame)
  /-- NAK (R409). -/
  | nakFrame (f : CFrame)
  /-- RESEND (R404). -/
  | resendFrame (f : CFrame)
  /-- RESEND_GAP_TIMEOUT (R404). -/
  | resendGapTimeout
  /-- EPOCH_BOUNDARY_START (R396). -/
  | epochBoundaryStart (m : Nat)
  /-- BOUNDARY_ABANDON (R397). -/
  | boundaryAbandon (m : Nat)
  /-- BOUNDARY_RETRY (R397). -/
  | boundaryRetry (m : Nat)
  /-- CAPTURE_READ (R399). -/
  | captureRead (m : Nat)
  /-- EPOCH_APPLY (R401). -/
  | epochApply (m : Nat)
  /-- PARTNER_LOSS (R407). -/
  | partnerLoss
  /-- MIRROR_LEAVE_EXPIRY (R461). -/
  | mirrorLeaveExpiry
  /-- PKG_CMD_HOLD (R418). -/
  | pkgCmdHold
  /-- PKG_CMD_OFF (R418). -/
  | pkgCmdOff
  /-- DOM_REQ_RUN (R423). -/
  | domReqRun (d : Nat)
  /-- DOM_REQ_RETAIN (R423). -/
  | domReqRetain (d : Nat)
  /-- DOM_REQ_OFF (R423). -/
  | domReqOff (d : Nat)
  /-- DOOR_ANSWER (R416). -/
  | doorAnswer (d : Nat) (a : Arrival)
  /-- DOMAIN_CLOSE_COMPLETE (R413). -/
  | domainCloseComplete (d : Nat)
  /-- DOMAIN_WAKE_COMPLETE (R417). -/
  | domainWakeComplete (d : Nat)
  /-- WAKE_TIMER (R419). -/
  | wakeTimer
  /-- AVS_RESPONSE (R426). -/
  | avsResponse (master : Nat) (good : Bool)
  /-- AVS_STATUS_READ (R426). -/
  | avsStatusRead (master : Nat) (vdone : Bool)
  /-- AVS_REQUEST_FAIL (R426). -/
  | avsRequestFail (master : Nat)
  /-- TB_STEP (R432). -/
  | tbStep (v : Word)
  /-- TB_SLEW (R432). -/
  | tbSlew (v : Word)
  /-- POWER_CEIL_WRITE (R430). -/
  | powerCeilWrite (v : Word)
  /-- FENCE_COMPLETE (R441). -/
  | fenceComplete (u : Nat)
  /-- FC_ACKED_WRITE (R437). -/
  | fcAckedWrite (v : Word)
  /-- ACKNOWLEDGE_STARVATION (R442). -/
  | acknowledgeStarvation (agent : BitVec 16) (starving : BitVec 16)
  /-- REFERENCE_CLOCK_LOST (R443). -/
  | referenceClockLost (island : Nat)
  /-- REFERENCE_CLOCK_RETURN (R443). -/
  | referenceClockReturn (island : Nat)
  /-- RESET_CMD_FULL (R447). -/
  | resetCmdFull (index : BitVec 10)
  /-- RESET_CMD_COMPUTE_DIE (R448). -/
  | resetCmdComputeDie (index : BitVec 10)
  /-- RESET_CMD_CORE (R448). -/
  | resetCmdCore (index : BitVec 10)
  /-- COLD_RST_N_ASSERT (R488). -/
  | coldRstNAssert
  /-- VAON_POWER_UP (R488). -/
  | vaonPowerUp
  /-- VAON_LOSS (R482). -/
  | vaonLoss
  /-- COLD_RESET_END (R488). -/
  | coldResetEnd (mgmtId : BitVec 16) (smbAddr : BitVec 3) (testMode : Bool)
  /-- THERMAL_TRIP (R492). -/
  | thermalTrip (die : Nat) (temp : Nat)
  /-- JTAG_TAP_RESET (R489). -/
  | jtagTapReset
  /-- BYPASS (R489). -/
  | jtagBypass (tdi : List Bool)
  /-- IDCODE (R489). -/
  | jtagIdcode
  /-- SAMPLE_PRELOAD (R489). -/
  | jtagSamplePreload (lands : BitVec 41) (preload : BitVec 41)
  /-- EXTEST (R489). -/
  | jtagExtest (lands : BitVec 41) (shiftIn : BitVec 41)
  /-- CLAMP (R489). -/
  | jtagClamp (tdi : List Bool)
  /-- HIGHZ (R489). -/
  | jtagHighz (tdi : List Bool)
  /-- ROW_NOP (R57). -/
  | rowNop
  /-- ROW_WRITE_REG (R60). -/
  | rowWriteReg
  /-- LOAD_SECTION (R60). -/
  | loadSection
  /-- POWER_ON (R496). -/
  | powerOn
  /-- POWER_OFF (R413). -/
  | powerOff
  /-- RETAIN (R413). -/
  | retain
  /-- RESTORE (R414). -/
  | restore
  /-- RESET_ASSERT (R496). -/
  | resetAssert
  /-- ROW_RESET_RELEASE (R496). -/
  | rowResetRelease
  /-- DRAIN (R500). -/
  | drain
  /-- ROW_FENCE (R500). -/
  | rowFence
  /-- UNFENCE (R500). -/
  | unfence
  /-- AVS_SET (R500). -/
  | avsSet
  /-- LINK_TRAIN (R51). -/
  | linkTrain (modules : BitVec 4)
  /-- BIST (R496). -/
  | bist (pass : Bool)
  /-- SELF_REFRESH_ENTER (R500). -/
  | selfRefreshEnter
  /-- SELF_REFRESH_EXIT (R500). -/
  | selfRefreshExit
  /-- SIGNAL (R57). -/
  | signal
  /-- ROW_CALL (R59). -/
  | rowCall
  /-- SKIP_IF (R59). -/
  | skipIf
  /-- ROW_END (R57). -/
  | rowEnd
  /-- ROW_WAIT_MET (R57). -/
  | rowWaitMet
  /-- ROW_WAIT_FAILED (R61). -/
  | rowWaitFailed
  /-- GET_RESULT (R476). -/
  | getResult
  /-- GET_STATUS (R476). -/
  | getStatus
  /-- READ_REG (R477). -/
  | readReg
  /-- READ_PLOG (R476). -/
  | readPlog
  /-- GET_ATTEST_KEY (R476). -/
  | getAttestKey
  /-- IMAGE_START (R65). -/
  | imageStart
  /-- IMAGE_DATA (R65). -/
  | imageData
  /-- IMAGE_COMMIT (R66). -/
  | imageCommit
  /-- RUN_TABLE (R63). -/
  | runTable
  /-- SET_PKG_STATE (R418). -/
  | setPkgState
  /-- RESET_FULL (R447). -/
  | resetFull
  /-- RESET_COMPUTE_DIE (R448). -/
  | resetComputeDie
  /-- RESET_CORE (R448). -/
  | resetCore
  /-- RESET_COLD (R488). -/
  | resetCold
  /-- WRITE_REG (R477). -/
  | writeReg
  /-- PROVISION_KEY (R48). -/
  | provisionKey
  /-- RAISE_FLOOR (R49). -/
  | raiseFloor
  /-- SET_PAIRING (R391). -/
  | setPairing
  /-- PLOG_ACK (R451). -/
  | plogAck
  /-- SET_MKEY (R478). -/
  | setMkey
  /-- SUBSCRIBE (R479). -/
  | subscribe
  /-- SET_NET (R471). -/
  | setNet
  /-- CONTRAIL_BREAK (R409). -/
  | contrailBreak (f : CFrame)
  /-- CONTRAIL_FRAME_INVALID (R409). -/
  | contrailFrameInvalid (f : CFrame) (badCheck : Bool)
  /-- DTL_RESERVED_MESSAGE (R380). -/
  | dtlReservedMessage (ty : Byte) (h : DtlHdr)
  /-- WARDEN_RESTART_COMPLETE (R347). -/
  | wardenRestartComplete
  /-- ENTROPY_HEALTH_RESTORED (R344). -/
  | entropyHealthRestored
  /-- COLD_RST_N_RELEASE (R488). -/
  | coldRstNRelease
  deriving DecidableEq, Repr

end Sys2Proof
end

