-- ==== Sys2Proof/Decode.lean ====
section
/-! DEFINITION. The decoder of the table's words, and the decoder and encoder of Gliwin instruction words (R85–R94). -/

namespace Sys2Proof

/-! ### The table's bits -/

/-- The command that a word spells by the bits of spec/opcode_table.json. No row of the table gives bits: every word spells
none. -/
def decodeTableWord (_nbits _w : Nat) : Option Instr := none

/-! ### The formats of a Gliwin word (Table 3-2) -/

/-- Format T. -/
def tWord (major : BitVec 6) (d sa sb : BitVec 5) (fn : BitVec 11) : BitVec 32 := major ++ (d ++ (sa ++ (sb ++ fn)))
/-- FN of an atomic (R92). -/
def atomFn (z : BitVec 4) (order : BitVec 2) (wide : Bool) (op : BitVec 4) : BitVec 11 :=
  z ++ (order ++ (BitVec.ofBool wide ++ op))
/-- Format K. -/
def kWord (major : BitVec 6) (kf : BitVec 2) (imm : BitVec 24) : BitVec 32 := major ++ (kf ++ imm)
/-- Format A. -/
def aWord (major : BitVec 6) (base size : BitVec 2) (disp : BitVec 22) : BitVec 32 := major ++ (base ++ (size ++ disp))
/-- Format B. -/
def bWord (cond : BitVec 3) (slot : BitVec 5) (disp : BitVec 18) : BitVec 32 := (0x30 : BitVec 6) ++ (cond ++ (slot ++ disp))
/-- Format J. -/
def jWord (major : BitVec 6) (disp : BitVec 26) : BitVec 32 := major ++ disp
/-- Format S. -/
def sWord (sfn : BitVec 10) (opnd : BitVec 16) : BitVec 32 := (0x3F : BitVec 6) ++ (sfn ++ opnd)

/-! ### Which instruction an opcode and function name -/

/-- The format-T instruction of a group and function (Tables 3-5 to 3-8). -/
def tInstr (major : BitVec 6) (fn : BitVec 11) (c : Nat) (d sa sb : BitVec 5) : Option Instr :=
  match major.toNat, fn.toNat with
  | 0x00, 0x001 => some (.add c d sa sb)
  | 0x00, 0x002 => some (.sub c d sa sb)
  | 0x00, 0x003 => some (.andT c d sa sb)
  | 0x00, 0x004 => some (.orT c d sa sb)
  | 0x00, 0x005 => some (.xor c d sa sb)
  | 0x00, 0x006 => some (.shl c d sa sb)
  | 0x00, 0x007 => some (.shr c d sa sb)
  | 0x00, 0x008 => some (.sar c d sa sb)
  | 0x00, 0x009 => some (.ror c d sa sb)
  | 0x00, 0x00A => some (.min c d sa sb)
  | 0x00, 0x00B => some (.max c d sa sb)
  | 0x00, 0x00C => some (.minu c d sa sb)
  | 0x00, 0x00D => some (.maxu c d sa sb)
  | 0x00, 0x00E => some (.slt c d sa sb)
  | 0x00, 0x00F => some (.sltu c d sa sb)
  | 0x00, 0x010 => some (.movs c d sa sb)
  | 0x00, 0x011 => some (.clz c d sa sb)
  | 0x00, 0x012 => some (.ctz c d sa sb)
  | 0x00, 0x013 => some (.popc c d sa sb)
  | 0x00, 0x014 => some (.bswap c d sa sb)
  | 0x01, 0x000 => some (.mul c d sa sb)
  | 0x01, 0x001 => some (.mulh c d sa sb)
  | 0x01, 0x002 => some (.mulhu c d sa sb)
  | 0x01, 0x003 => some (.div c d sa sb)
  | 0x01, 0x004 => some (.divu c d sa sb)
  | 0x01, 0x005 => some (.rem c d sa sb)
  | 0x01, 0x006 => some (.remu c d sa sb)
  | 0x02, 0x000 => some (.aese c d sa sb)
  | 0x02, 0x001 => some (.aesel c d sa sb)
  | 0x02, 0x002 => some (.aesd c d sa sb)
  | 0x02, 0x003 => some (.aesdl c d sa sb)
  | 0x02, 0x004 => some (.aessub c d sa sb)
  | 0x02, 0x010 => some (.sha256r c d sa sb)
  | 0x02, 0x011 => some (.sha256w c d sa sb)
  | 0x02, 0x012 => some (.sha512r c d sa sb)
  | 0x02, 0x013 => some (.sha512w c d sa sb)
  | 0x02, 0x020 => some (.crc32cb c d sa sb)
  | 0x02, 0x021 => some (.crc32ch c d sa sb)
  | 0x02, 0x022 => some (.crc32cw c d sa sb)
  | 0x02, 0x023 => some (.crc32cd c d sa sb)
  | 0x03, 0x000 => some (.fadd c d sa sb)
  | 0x03, 0x001 => some (.fsub c d sa sb)
  | 0x03, 0x002 => some (.fmul c d sa sb)
  | 0x03, 0x003 => some (.fdiv c d sa sb)
  | 0x03, 0x004 => some (.fsqrt c d sa sb)
  | 0x03, 0x005 => some (.fmin c d sa sb)
  | 0x03, 0x006 => some (.fmax c d sa sb)
  | 0x03, 0x007 => some (.fma c d sa sb)
  | 0x03, 0x008 => some (.fcvti c d sa sb)
  | 0x03, 0x009 => some (.fcvtf c d sa sb)
  | 0x03, 0x00A => some (.flt c d sa sb)
  | 0x03, 0x00B => some (.feq c d sa sb)
  | _, _ => none

/-- The vector instruction of an operation, FN[7:0] (Table 3-9). -/
def vInstr (op : BitVec 8) (c : Nat) (ty : BitVec 3) (d sa sb : BitVec 5) : Option Instr :=
  match op.toNat with
  | 0x00 => some (.vadd c ty d sa sb)
  | 0x01 => some (.vsub c ty d sa sb)
  | 0x02 => some (.vmul c ty d sa sb)
  | 0x03 => some (.vand c ty d sa sb)
  | 0x04 => some (.vor c ty d sa sb)
  | 0x05 => some (.vxor c ty d sa sb)
  | 0x06 => some (.vmin c ty d sa sb)
  | 0x07 => some (.vmax c ty d sa sb)
  | 0x08 => some (.vminu c ty d sa sb)
  | 0x09 => some (.vmaxu c ty d sa sb)
  | 0x0A => some (.vshl c ty d sa sb)
  | 0x0B => some (.vshr c ty d sa sb)
  | 0x0C => some (.vsar c ty d sa sb)
  | 0x0D => some (.vcmpeq c ty d sa sb)
  | 0x0E => some (.vcmplt c ty d sa sb)
  | 0x0F => some (.vcmpltu c ty d sa sb)
  | 0x10 => some (.vfma c ty d sa sb)
  | 0x20 => some (.vlds c ty d sa sb)
  | 0x21 => some (.vsts c ty d sa sb)
  | 0x22 => some (.vbcast c ty d sa sb)
  | 0x23 => some (.vext c ty d sa sb)
  | 0x24 => some (.vins c ty d sa sb)
  | 0x30 => some (.vradd c ty d sa sb)
  | 0x31 => some (.vrmin c ty d sa sb)
  | 0x32 => some (.vrmax c ty d sa sb)
  | _ => none

/-- The atomic of an operation, FN[3:0] (Table 3-10). -/
def atomInstr (op : BitVec 4) (c : Nat) (z : BitVec 4) (order : BitVec 2) (wide : Bool) (d sa sb : BitVec 5) : Option Instr :=
  match op.toNat with
  | 0x0 => some (.afadd c z order wide d sa sb)
  | 0x1 => some (.aswap c z order wide d sa sb)
  | 0x2 => some (.acas c z order wide d sa sb)
  | 0x3 => some (.amin c z order wide d sa sb)
  | 0x4 => some (.amax c z order wide d sa sb)
  | 0x5 => some (.aminu c z order wide d sa sb)
  | 0x6 => some (.amaxu c z order wide d sa sb)
  | 0x7 => some (.aand c z order wide d sa sb)
  | 0x8 => some (.aor c z order wide d sa sb)
  | 0x9 => some (.axor c z order wide d sa sb)
  | _ => none

/-- The format-K instruction of an opcode and function (Table 3-11). -/
def kInstr (major : BitVec 6) (kf : BitVec 2) (c : Nat) (imm : BitVec 24) : Option Instr :=
  match major.toNat, kf.toNat with
  | 0x08, 0 => some (.li c imm)
  | 0x08, 1 => some (.addi c imm)
  | 0x08, 2 => some (.shi c imm)
  | 0x08, 3 => some (.andi c imm)
  | 0x09, 0 => some (.lix c imm)
  | 0x09, 1 => some (.addx c imm)
  | 0x09, 2 => some (.liy c imm)
  | 0x09, 3 => some (.addy c imm)
  | 0x0A, 0 => some (.addf c imm)
  | 0x0A, 1 => some (.ori c imm)
  | 0x0A, 2 => some (.xori c imm)
  | 0x0A, 3 => some (.shifti c imm)
  | 0x0B, 0 => some (.mov c imm)
  | 0x0C, 0 => some (.ret c imm)
  | 0x0C, 1 => some (.ja c imm)
  | 0x0C, 2 => some (.calla c imm)
  | _, _ => none

/-- The format-A instruction of an opcode (Table 3-12). -/
def aInstr (major : BitVec 6) (c : Nat) (base size : BitVec 2) (disp : BitVec 22) : Option Instr :=
  match major.toNat with
  | 0x10 => some (.ld c base size disp)
  | 0x11 => some (.lds c base size disp)
  | 0x12 => some (.st c base size disp)
  | 0x13 => some (.addMem c base size disp)
  | 0x14 => some (.subMem c base size disp)
  | 0x15 => some (.andMem c base size disp)
  | 0x16 => some (.orMem c base size disp)
  | 0x17 => some (.xorMem c base size disp)
  | 0x18 => some (.mulMem c base size disp)
  | 0x19 => some (.ldx c base size disp)
  | 0x1A => some (.stx c base size disp)
  | 0x1B => some (.ldy c base size disp)
  | 0x1C => some (.sty c base size disp)
  | 0x1D => some (.lea c base size disp)
  | 0x1E => some (.vld c base size disp)
  | 0x1F => some (.vst c base size disp)
  | _ => none

/-- The system instruction of a function SFN (Table 3-14 and the tables of its owners). -/
def sInstr (sfn : BitVec 10) (c : Nat) (opnd : BitVec 16) : Option Instr :=
  match sfn.toNat with
  | 0x000 => some (.mfsr c opnd)
  | 0x001 => some (.mtsr c opnd)
  | 0x002 => some (.mfsw c opnd)
  | 0x003 => some (.mtsw c opnd)
  | 0x004 => some (.sync c opnd)
  | 0x005 => some (.ifence c opnd)
  | 0x006 => some (.fence c opnd)
  | 0x007 => some (.trap c opnd)
  | 0x008 => some (.svc c opnd)
  | 0x009 => some (.hvc c opnd)
  | 0x00A => some (.eret c opnd)
  | 0x00B => some (.wfi c opnd)
  | 0x00C => some (.brk c opnd)
  | 0x100 => some (.gate c opnd)
  | 0x101 => some (.enter c opnd)
  | 0x102 => some (.exit c opnd)
  | 0x170 => some (.pflush c opnd)
  | 0x171 => some (.pbar c opnd)
  | 0x0C0 => some (.pmrd c opnd)
  | 0x0C1 => some (.pmstop c opnd)
  | 0x0C2 => some (.pmgo c opnd)
  | 0x040 => some (.tlbiv c opnd)
  | 0x041 => some (.tlbiall c opnd)
  | 0x042 => some (.tlbivb c opnd)
  | 0x043 => some (.tlbiallb c opnd)
  | 0x044 => some (.tlbitid c opnd)
  | 0x140 => some (.cwb c opnd)
  | 0x141 => some (.cflush c opnd)
  | 0x142 => some (.cinv c opnd)
  | 0x143 => some (.czero c opnd)
  | 0x144 => some (.cpf c opnd)
  | 0x148 => some (.cwbset c opnd)
  | 0x149 => some (.cflushset c opnd)
  | 0x14A => some (.cinvset c opnd)
  | 0x080 => some (.tswitch c opnd)
  | 0x081 => some (.iclr c opnd)
  | 0x082 => some (.vinj c opnd)
  | _ => none

/-- The instruction of core `c` that a word spells (R85, R86); none for a reserved opcode or function, which is illegal
(R87). Fields that R87 wants 0 are passed on, for the instruction itself to check. -/
def decodeGliwin (c : Nat) (w : BitVec 32) : Option Instr :=
  let major := w.extractLsb' 26 6
  let d := w.extractLsb' 21 5
  let sa := w.extractLsb' 16 5
  let sb := w.extractLsb' 11 5
  let fn := w.extractLsb' 0 11
  let m := major.toNat
  if m < 4 then tInstr major fn c d sa sb
  else if m = 4 then vInstr (fn.extractLsb' 0 8) c (fn.extractLsb' 8 3) d sa sb
  else if m = 5 then
    atomInstr (fn.extractLsb' 0 4) c (fn.extractLsb' 7 4) (fn.extractLsb' 5 2) (fn.getLsbD 4) d sa sb
  else if 8 ≤ m ∧ m ≤ 0x0C then kInstr major (w.extractLsb' 24 2) c (w.extractLsb' 0 24)
  else if 0x10 ≤ m ∧ m ≤ 0x1F then aInstr major c (w.extractLsb' 24 2) (w.extractLsb' 22 2) (w.extractLsb' 0 22)
  else if m = 0x30 then some (.bCond c (w.extractLsb' 23 3) (w.extractLsb' 18 5) (w.extractLsb' 0 18))
  else if m = 0x31 then some (.jmp c (w.extractLsb' 0 26))
  else if m = 0x32 then some (.call c (w.extractLsb' 0 26))
  else if m = 0x3F then sInstr (w.extractLsb' 16 10) c (w.extractLsb' 0 16)
  else none

/-- The word of a Gliwin instruction; none for a command that is no instruction. -/
def encodeGliwin : Instr → Option (BitVec 32)
  | .add _ d sa sb => some (tWord 0x00 d sa sb 0x001)
  | .sub _ d sa sb => some (tWord 0x00 d sa sb 0x002)
  | .andT _ d sa sb => some (tWord 0x00 d sa sb 0x003)
  | .orT _ d sa sb => some (tWord 0x00 d sa sb 0x004)
  | .xor _ d sa sb => some (tWord 0x00 d sa sb 0x005)
  | .shl _ d sa sb => some (tWord 0x00 d sa sb 0x006)
  | .shr _ d sa sb => some (tWord 0x00 d sa sb 0x007)
  | .sar _ d sa sb => some (tWord 0x00 d sa sb 0x008)
  | .ror _ d sa sb => some (tWord 0x00 d sa sb 0x009)
  | .min _ d sa sb => some (tWord 0x00 d sa sb 0x00A)
  | .max _ d sa sb => some (tWord 0x00 d sa sb 0x00B)
  | .minu _ d sa sb => some (tWord 0x00 d sa sb 0x00C)
  | .maxu _ d sa sb => some (tWord 0x00 d sa sb 0x00D)
  | .slt _ d sa sb => some (tWord 0x00 d sa sb 0x00E)
  | .sltu _ d sa sb => some (tWord 0x00 d sa sb 0x00F)
  | .movs _ d sa sb => some (tWord 0x00 d sa sb 0x010)
  | .clz _ d sa sb => some (tWord 0x00 d sa sb 0x011)
  | .ctz _ d sa sb => some (tWord 0x00 d sa sb 0x012)
  | .popc _ d sa sb => some (tWord 0x00 d sa sb 0x013)
  | .bswap _ d sa sb => some (tWord 0x00 d sa sb 0x014)
  | .mul _ d sa sb => some (tWord 0x01 d sa sb 0x000)
  | .mulh _ d sa sb => some (tWord 0x01 d sa sb 0x001)
  | .mulhu _ d sa sb => some (tWord 0x01 d sa sb 0x002)
  | .div _ d sa sb => some (tWord 0x01 d sa sb 0x003)
  | .divu _ d sa sb => some (tWord 0x01 d sa sb 0x004)
  | .rem _ d sa sb => some (tWord 0x01 d sa sb 0x005)
  | .remu _ d sa sb => some (tWord 0x01 d sa sb 0x006)
  | .aese _ d sa sb => some (tWord 0x02 d sa sb 0x000)
  | .aesel _ d sa sb => some (tWord 0x02 d sa sb 0x001)
  | .aesd _ d sa sb => some (tWord 0x02 d sa sb 0x002)
  | .aesdl _ d sa sb => some (tWord 0x02 d sa sb 0x003)
  | .aessub _ d sa sb => some (tWord 0x02 d sa sb 0x004)
  | .sha256r _ d sa sb => some (tWord 0x02 d sa sb 0x010)
  | .sha256w _ d sa sb => some (tWord 0x02 d sa sb 0x011)
  | .sha512r _ d sa sb => some (tWord 0x02 d sa sb 0x012)
  | .sha512w _ d sa sb => some (tWord 0x02 d sa sb 0x013)
  | .crc32cb _ d sa sb => some (tWord 0x02 d sa sb 0x020)
  | .crc32ch _ d sa sb => some (tWord 0x02 d sa sb 0x021)
  | .crc32cw _ d sa sb => some (tWord 0x02 d sa sb 0x022)
  | .crc32cd _ d sa sb => some (tWord 0x02 d sa sb 0x023)
  | .fadd _ d sa sb => some (tWord 0x03 d sa sb 0x000)
  | .fsub _ d sa sb => some (tWord 0x03 d sa sb 0x001)
  | .fmul _ d sa sb => some (tWord 0x03 d sa sb 0x002)
  | .fdiv _ d sa sb => some (tWord 0x03 d sa sb 0x003)
  | .fsqrt _ d sa sb => some (tWord 0x03 d sa sb 0x004)
  | .fmin _ d sa sb => some (tWord 0x03 d sa sb 0x005)
  | .fmax _ d sa sb => some (tWord 0x03 d sa sb 0x006)
  | .fma _ d sa sb => some (tWord 0x03 d sa sb 0x007)
  | .fcvti _ d sa sb => some (tWord 0x03 d sa sb 0x008)
  | .fcvtf _ d sa sb => some (tWord 0x03 d sa sb 0x009)
  | .flt _ d sa sb => some (tWord 0x03 d sa sb 0x00A)
  | .feq _ d sa sb => some (tWord 0x03 d sa sb 0x00B)
  | .vadd _ ty d sa sb => some (tWord 0x04 d sa sb (ty ++ (0x00 : BitVec 8)))
  | .vsub _ ty d sa sb => some (tWord 0x04 d sa sb (ty ++ (0x01 : BitVec 8)))
  | .vmul _ ty d sa sb => some (tWord 0x04 d sa sb (ty ++ (0x02 : BitVec 8)))
  | .vand _ ty d sa sb => some (tWord 0x04 d sa sb (ty ++ (0x03 : BitVec 8)))
  | .vor _ ty d sa sb => some (tWord 0x04 d sa sb (ty ++ (0x04 : BitVec 8)))
  | .vxor _ ty d sa sb => some (tWord 0x04 d sa sb (ty ++ (0x05 : BitVec 8)))
  | .vmin _ ty d sa sb => some (tWord 0x04 d sa sb (ty ++ (0x06 : BitVec 8)))
  | .vmax _ ty d sa sb => some (tWord 0x04 d sa sb (ty ++ (0x07 : BitVec 8)))
  | .vminu _ ty d sa sb => some (tWord 0x04 d sa sb (ty ++ (0x08 : BitVec 8)))
  | .vmaxu _ ty d sa sb => some (tWord 0x04 d sa sb (ty ++ (0x09 : BitVec 8)))
  | .vshl _ ty d sa sb => some (tWord 0x04 d sa sb (ty ++ (0x0A : BitVec 8)))
  | .vshr _ ty d sa sb => some (tWord 0x04 d sa sb (ty ++ (0x0B : BitVec 8)))
  | .vsar _ ty d sa sb => some (tWord 0x04 d sa sb (ty ++ (0x0C : BitVec 8)))
  | .vcmpeq _ ty d sa sb => some (tWord 0x04 d sa sb (ty ++ (0x0D : BitVec 8)))
  | .vcmplt _ ty d sa sb => some (tWord 0x04 d sa sb (ty ++ (0x0E : BitVec 8)))
  | .vcmpltu _ ty d sa sb => some (tWord 0x04 d sa sb (ty ++ (0x0F : BitVec 8)))
  | .vfma _ ty d sa sb => some (tWord 0x04 d sa sb (ty ++ (0x10 : BitVec 8)))
  | .vlds _ ty d sa sb => some (tWord 0x04 d sa sb (ty ++ (0x20 : BitVec 8)))
  | .vsts _ ty d sa sb => some (tWord 0x04 d sa sb (ty ++ (0x21 : BitVec 8)))
  | .vbcast _ ty d sa sb => some (tWord 0x04 d sa sb (ty ++ (0x22 : BitVec 8)))
  | .vext _ ty d sa sb => some (tWord 0x04 d sa sb (ty ++ (0x23 : BitVec 8)))
  | .vins _ ty d sa sb => some (tWord 0x04 d sa sb (ty ++ (0x24 : BitVec 8)))
  | .vradd _ ty d sa sb => some (tWord 0x04 d sa sb (ty ++ (0x30 : BitVec 8)))
  | .vrmin _ ty d sa sb => some (tWord 0x04 d sa sb (ty ++ (0x31 : BitVec 8)))
  | .vrmax _ ty d sa sb => some (tWord 0x04 d sa sb (ty ++ (0x32 : BitVec 8)))
  | .afadd _ z order wide d sa sb => some (tWord 0x05 d sa sb (atomFn z order wide 0x0))
  | .aswap _ z order wide d sa sb => some (tWord 0x05 d sa sb (atomFn z order wide 0x1))
  | .acas _ z order wide d sa sb => some (tWord 0x05 d sa sb (atomFn z order wide 0x2))
  | .amin _ z order wide d sa sb => some (tWord 0x05 d sa sb (atomFn z order wide 0x3))
  | .amax _ z order wide d sa sb => some (tWord 0x05 d sa sb (atomFn z order wide 0x4))
  | .aminu _ z order wide d sa sb => some (tWord 0x05 d sa sb (atomFn z order wide 0x5))
  | .amaxu _ z order wide d sa sb => some (tWord 0x05 d sa sb (atomFn z order wide 0x6))
  | .aand _ z order wide d sa sb => some (tWord 0x05 d sa sb (atomFn z order wide 0x7))
  | .aor _ z order wide d sa sb => some (tWord 0x05 d sa sb (atomFn z order wide 0x8))
  | .axor _ z order wide d sa sb => some (tWord 0x05 d sa sb (atomFn z order wide 0x9))
  | .li _ imm => some (kWord 0x08 0 imm)
  | .addi _ imm => some (kWord 0x08 1 imm)
  | .shi _ imm => some (kWord 0x08 2 imm)
  | .andi _ imm => some (kWord 0x08 3 imm)
  | .lix _ imm => some (kWord 0x09 0 imm)
  | .addx _ imm => some (kWord 0x09 1 imm)
  | .liy _ imm => some (kWord 0x09 2 imm)
  | .addy _ imm => some (kWord 0x09 3 imm)
  | .addf _ imm => some (kWord 0x0A 0 imm)
  | .ori _ imm => some (kWord 0x0A 1 imm)
  | .xori _ imm => some (kWord 0x0A 2 imm)
  | .shifti _ imm => some (kWord 0x0A 3 imm)
  | .mov _ imm => some (kWord 0x0B 0 imm)
  | .ret _ imm => some (kWord 0x0C 0 imm)
  | .ja _ imm => some (kWord 0x0C 1 imm)
  | .calla _ imm => some (kWord 0x0C 2 imm)
  | .ld _ base size disp => some (aWord 0x10 base size disp)
  | .lds _ base size disp => some (aWord 0x11 base size disp)
  | .st _ base size disp => some (aWord 0x12 base size disp)
  | .addMem _ base size disp => some (aWord 0x13 base size disp)
  | .subMem _ base size disp => some (aWord 0x14 base size disp)
  | .andMem _ base size disp => some (aWord 0x15 base size disp)
  | .orMem _ base size disp => some (aWord 0x16 base size disp)
  | .xorMem _ base size disp => some (aWord 0x17 base size disp)
  | .mulMem _ base size disp => some (aWord 0x18 base size disp)
  | .ldx _ base size disp => some (aWord 0x19 base size disp)
  | .stx _ base size disp => some (aWord 0x1A base size disp)
  | .ldy _ base size disp => some (aWord 0x1B base size disp)
  | .sty _ base size disp => some (aWord 0x1C base size disp)
  | .lea _ base size disp => some (aWord 0x1D base size disp)
  | .vld _ base size disp => some (aWord 0x1E base size disp)
  | .vst _ base size disp => some (aWord 0x1F base size disp)
  | .bCond _ cond slot disp => some (bWord cond slot disp)
  | .jmp _ disp => some (jWord 0x31 disp)
  | .call _ disp => some (jWord 0x32 disp)
  | .mfsr _ opnd => some (sWord 0x000 opnd)
  | .mtsr _ opnd => some (sWord 0x001 opnd)
  | .mfsw _ opnd => some (sWord 0x002 opnd)
  | .mtsw _ opnd => some (sWord 0x003 opnd)
  | .sync _ opnd => some (sWord 0x004 opnd)
  | .ifence _ opnd => some (sWord 0x005 opnd)
  | .fence _ opnd => some (sWord 0x006 opnd)
  | .trap _ opnd => some (sWord 0x007 opnd)
  | .svc _ opnd => some (sWord 0x008 opnd)
  | .hvc _ opnd => some (sWord 0x009 opnd)
  | .eret _ opnd => some (sWord 0x00A opnd)
  | .wfi _ opnd => some (sWord 0x00B opnd)
  | .brk _ opnd => some (sWord 0x00C opnd)
  | .gate _ opnd => some (sWord 0x100 opnd)
  | .enter _ opnd => some (sWord 0x101 opnd)
  | .exit _ opnd => some (sWord 0x102 opnd)
  | .pflush _ opnd => some (sWord 0x170 opnd)
  | .pbar _ opnd => some (sWord 0x171 opnd)
  | .pmrd _ opnd => some (sWord 0x0C0 opnd)
  | .pmstop _ opnd => some (sWord 0x0C1 opnd)
  | .pmgo _ opnd => some (sWord 0x0C2 opnd)
  | .tlbiv _ opnd => some (sWord 0x040 opnd)
  | .tlbiall _ opnd => some (sWord 0x041 opnd)
  | .tlbivb _ opnd => some (sWord 0x042 opnd)
  | .tlbiallb _ opnd => some (sWord 0x043 opnd)
  | .tlbitid _ opnd => some (sWord 0x044 opnd)
  | .cwb _ opnd => some (sWord 0x140 opnd)
  | .cflush _ opnd => some (sWord 0x141 opnd)
  | .cinv _ opnd => some (sWord 0x142 opnd)
  | .czero _ opnd => some (sWord 0x143 opnd)
  | .cpf _ opnd => some (sWord 0x144 opnd)
  | .cwbset _ opnd => some (sWord 0x148 opnd)
  | .cflushset _ opnd => some (sWord 0x149 opnd)
  | .cinvset _ opnd => some (sWord 0x14A opnd)
  | .tswitch _ opnd => some (sWord 0x080 opnd)
  | .iclr _ opnd => some (sWord 0x081 opnd)
  | .vinj _ opnd => some (sWord 0x082 opnd)
  | _ => none

/-- The core that executes a Gliwin instruction. -/
def coreOf : Instr → Option Nat
  | .add c _ _ _ => some c
  | .sub c _ _ _ => some c
  | .andT c _ _ _ => some c
  | .orT c _ _ _ => some c
  | .xor c _ _ _ => some c
  | .shl c _ _ _ => some c
  | .shr c _ _ _ => some c
  | .sar c _ _ _ => some c
  | .ror c _ _ _ => some c
  | .min c _ _ _ => some c
  | .max c _ _ _ => some c
  | .minu c _ _ _ => some c
  | .maxu c _ _ _ => some c
  | .slt c _ _ _ => some c
  | .sltu c _ _ _ => some c
  | .movs c _ _ _ => some c
  | .clz c _ _ _ => some c
  | .ctz c _ _ _ => some c
  | .popc c _ _ _ => some c
  | .bswap c _ _ _ => some c
  | .mul c _ _ _ => some c
  | .mulh c _ _ _ => some c
  | .mulhu c _ _ _ => some c
  | .div c _ _ _ => some c
  | .divu c _ _ _ => some c
  | .rem c _ _ _ => some c
  | .remu c _ _ _ => some c
  | .aese c _ _ _ => some c
  | .aesel c _ _ _ => some c
  | .aesd c _ _ _ => some c
  | .aesdl c _ _ _ => some c
  | .aessub c _ _ _ => some c
  | .sha256r c _ _ _ => some c
  | .sha256w c _ _ _ => some c
  | .sha512r c _ _ _ => some c
  | .sha512w c _ _ _ => some c
  | .crc32cb c _ _ _ => some c
  | .crc32ch c _ _ _ => some c
  | .crc32cw c _ _ _ => some c
  | .crc32cd c _ _ _ => some c
  | .fadd c _ _ _ => some c
  | .fsub c _ _ _ => some c
  | .fmul c _ _ _ => some c
  | .fdiv c _ _ _ => some c
  | .fsqrt c _ _ _ => some c
  | .fmin c _ _ _ => some c
  | .fmax c _ _ _ => some c
  | .fma c _ _ _ => some c
  | .fcvti c _ _ _ => some c
  | .fcvtf c _ _ _ => some c
  | .flt c _ _ _ => some c
  | .feq c _ _ _ => some c
  | .vadd c _ _ _ _ => some c
  | .vsub c _ _ _ _ => some c
  | .vmul c _ _ _ _ => some c
  | .vand c _ _ _ _ => some c
  | .vor c _ _ _ _ => some c
  | .vxor c _ _ _ _ => some c
  | .vmin c _ _ _ _ => some c
  | .vmax c _ _ _ _ => some c
  | .vminu c _ _ _ _ => some c
  | .vmaxu c _ _ _ _ => some c
  | .vshl c _ _ _ _ => some c
  | .vshr c _ _ _ _ => some c
  | .vsar c _ _ _ _ => some c
  | .vcmpeq c _ _ _ _ => some c
  | .vcmplt c _ _ _ _ => some c
  | .vcmpltu c _ _ _ _ => some c
  | .vfma c _ _ _ _ => some c
  | .vlds c _ _ _ _ => some c
  | .vsts c _ _ _ _ => some c
  | .vbcast c _ _ _ _ => some c
  | .vext c _ _ _ _ => some c
  | .vins c _ _ _ _ => some c
  | .vradd c _ _ _ _ => some c
  | .vrmin c _ _ _ _ => some c
  | .vrmax c _ _ _ _ => some c
  | .afadd c _ _ _ _ _ _ => some c
  | .aswap c _ _ _ _ _ _ => some c
  | .acas c _ _ _ _ _ _ => some c
  | .amin c _ _ _ _ _ _ => some c
  | .amax c _ _ _ _ _ _ => some c
  | .aminu c _ _ _ _ _ _ => some c
  | .amaxu c _ _ _ _ _ _ => some c
  | .aand c _ _ _ _ _ _ => some c
  | .aor c _ _ _ _ _ _ => some c
  | .axor c _ _ _ _ _ _ => some c
  | .li c _ => some c
  | .addi c _ => some c
  | .shi c _ => some c
  | .andi c _ => some c
  | .lix c _ => some c
  | .addx c _ => some c
  | .liy c _ => some c
  | .addy c _ => some c
  | .addf c _ => some c
  | .ori c _ => some c
  | .xori c _ => some c
  | .shifti c _ => some c
  | .mov c _ => some c
  | .ret c _ => some c
  | .ja c _ => some c
  | .calla c _ => some c
  | .ld c _ _ _ => some c
  | .lds c _ _ _ => some c
  | .st c _ _ _ => some c
  | .addMem c _ _ _ => some c
  | .subMem c _ _ _ => some c
  | .andMem c _ _ _ => some c
  | .orMem c _ _ _ => some c
  | .xorMem c _ _ _ => some c
  | .mulMem c _ _ _ => some c
  | .ldx c _ _ _ => some c
  | .stx c _ _ _ => some c
  | .ldy c _ _ _ => some c
  | .sty c _ _ _ => some c
  | .lea c _ _ _ => some c
  | .vld c _ _ _ => some c
  | .vst c _ _ _ => some c
  | .bCond c _ _ _ => some c
  | .jmp c _ => some c
  | .call c _ => some c
  | .mfsr c _ => some c
  | .mtsr c _ => some c
  | .mfsw c _ => some c
  | .mtsw c _ => some c
  | .sync c _ => some c
  | .ifence c _ => some c
  | .fence c _ => some c
  | .trap c _ => some c
  | .svc c _ => some c
  | .hvc c _ => some c
  | .eret c _ => some c
  | .wfi c _ => some c
  | .brk c _ => some c
  | .gate c _ => some c
  | .enter c _ => some c
  | .exit c _ => some c
  | .pflush c _ => some c
  | .pbar c _ => some c
  | .pmrd c _ => some c
  | .pmstop c _ => some c
  | .pmgo c _ => some c
  | .tlbiv c _ => some c
  | .tlbiall c _ => some c
  | .tlbivb c _ => some c
  | .tlbiallb c _ => some c
  | .tlbitid c _ => some c
  | .cwb c _ => some c
  | .cflush c _ => some c
  | .cinv c _ => some c
  | .czero c _ => some c
  | .cpf c _ => some c
  | .cwbset c _ => some c
  | .cflushset c _ => some c
  | .cinvset c _ => some c
  | .tswitch c _ => some c
  | .iclr c _ => some c
  | .vinj c _ => some c
  | _ => none

end Sys2Proof
end

