-- ==== Sys2Proof/Machine/Bits.lean ====
section
/-! DEFINITION. Bit fields, sign extension and byte order (R6). -/

namespace Sys2Proof.Machine

/-- Bits [lo + n - 1 : lo] of a number. -/
def bitsOf (v lo n : Nat) : Nat := v / 2 ^ lo % 2 ^ n

/-- Bits [lo + n - 1 : lo] of a register as a number. -/
def fld {w : Nat} (x : BitVec w) (lo n : Nat) : Nat := bitsOf x.toNat lo n

/-- A register with bits [lo + n - 1 : lo] replaced by the low bits of `v`. -/
def setFld {w : Nat} (x : BitVec w) (lo n v : Nat) : BitVec w :=
  let m : BitVec w := BitVec.ofNat w ((2 ^ n - 1) * 2 ^ lo)
  (x &&& ~~~m) ||| BitVec.ofNat w (v % 2 ^ n * 2 ^ lo)

/-- A register with bit `k` set to `b`. -/
def setBit {w : Nat} (x : BitVec w) (k : Nat) (b : Bool) : BitVec w := setFld x k 1 b.toNat

/-- One bit as a Bool. -/
def bit {w : Nat} (x : BitVec w) (k : Nat) : Bool := x.getLsbD k

/-- Bits [hi:lo] set. -/
def maskBits (hi lo : Nat) : Word := BitVec.ofNat 64 (2 ^ (hi + 1) - 2 ^ lo)

/-- 0 or 1 as a word. -/
def boolWord (b : Bool) : Word := if b then 1 else 0

/-- Sign extension to 64 bits. -/
def sext64 {w : Nat} (x : BitVec w) : Word := x.signExtend 64

/-- Zero extension to 64 bits. -/
def zext64 {w : Nat} (x : BitVec w) : Word := x.setWidth 64

/-- Byte `i` of a value, byte 0 the least significant. -/
def byteOf {w : Nat} (x : BitVec w) (i : Nat) : Byte := x.extractLsb' (8 * i) 8

/-- A value with byte `i` replaced. -/
def setByte {w : Nat} (x : BitVec w) (i : Nat) (b : Byte) : BitVec w := setFld x (8 * i) 8 b.toNat

/-- The first `n` bytes of a value, byte 0 first. -/
def toBytes {w : Nat} (x : BitVec w) (n : Nat) : List Byte := (List.range n).map (byteOf x)

/-- The number that bytes give, byte 0 least significant. -/
def leNat : List Byte → Nat
  | [] => 0
  | b :: l => b.toNat + 256 * leNat l

/-- The number that bytes give, byte 0 most significant. -/
def beNat (l : List Byte) : Nat := l.foldl (fun a b => 256 * a + b.toNat) 0

/-- `n` bytes of a number, least significant first. -/
def leBytes : Nat → Nat → List Byte
  | 0, _ => []
  | n + 1, v => BitVec.ofNat 8 v :: leBytes n (v / 256)

/-- `n` bytes of a number, most significant first. -/
def beBytes (n v : Nat) : List Byte := (leBytes n v).reverse

/-- Bytes as a value of width `w`, byte 0 least significant. -/
def ofBytes (w : Nat) (l : List Byte) : BitVec w := BitVec.ofNat w (leNat l)

/-- Lane `i` of width `w` of a vector (R84). -/
def lane (w : Nat) (v : Vec) (i : Nat) : BitVec w := v.extractLsb' (w * i) w

/-- A vector from its lanes, lane 0 first (R84). -/
def ofLanes (w : Nat) (l : List (BitVec w)) : Vec :=
  BitVec.ofNat 256 (l.foldr (fun x a => x.toNat + 2 ^ w * a) 0)

/-- The bytes of a line that a mask chooses replaced by data: mask bit i covers data byte i, which lies at byte
`off + i`; bytes beyond the line are ignored (Table 8-2). -/
def mergeBytes (l : Line) (data : BitVec 256) (mask : BitVec 32) (off : Nat) : Line :=
  (List.range 32).foldl
    (fun a i => if mask.getLsbD i && off + i < 64 then setByte a (off + i) (byteOf data i) else a) l

end Sys2Proof.Machine
end

