-- ==== Sys2Proof/Machine/Crypto.lean ====
section
/-! DEFINITION. The published algorithms that the part carries out: AES of FIPS 197 and XTS-AES-128 of IEEE 1619 (R89,
R309), SHA-256, SHA-384 and SHA-512 of FIPS 180-4 with HMAC (R89, R346, R472), CRC-32C (R89, R280). -/

namespace Sys2Proof.Machine

/-- Multiplication by x in GF(2^8) of AES. -/
def xtime (a : Byte) : Byte := (a <<< 1) ^^^ (if a.getLsbD 7 then 0x1B else 0)

/-- Multiplication in GF(2^8) of AES. -/
def gmul (a b : Byte) : Byte :=
  ((List.range 8).foldl
    (fun (p : Byte × Byte) i => (if b.getLsbD i then p.1 ^^^ p.2 else p.1, xtime p.2)) ((0 : Byte), a)).1

/-- The multiplicative inverse in GF(2^8), 0 for 0: the 254th power. -/
def ginv (a : Byte) : Byte :=
  let a2 := gmul a a
  let a4 := gmul a2 a2
  let a8 := gmul a4 a4
  let a16 := gmul a8 a8
  let a32 := gmul a16 a16
  let a64 := gmul a32 a32
  let a128 := gmul a64 a64
  gmul a128 (gmul a64 (gmul a32 (gmul a16 (gmul a8 (gmul a4 a2)))))

/-- SubBytes on one byte (FIPS 197). -/
def sbox (a : Byte) : Byte :=
  let b := ginv a
  b ^^^ b.rotateLeft 1 ^^^ b.rotateLeft 2 ^^^ b.rotateLeft 3 ^^^ b.rotateLeft 4 ^^^ 0x63

/-- InvSubBytes on one byte. -/
def invSbox (a : Byte) : Byte :=
  ginv (a.rotateLeft 1 ^^^ a.rotateLeft 3 ^^^ a.rotateLeft 6 ^^^ 0x05)

/-- An AES state as 16 bytes in input order. -/
abbrev AesState := List Byte

def aesBytes (x : BitVec 128) : AesState := toBytes x 16
def aesWord (l : AesState) : BitVec 128 := ofBytes 128 l

/-- Byte (row r, column c) of a state is byte r + 4c. -/
def shiftRows (l : AesState) : AesState :=
  (List.range 16).map fun i => l.getD ((i % 4) + 4 * ((i / 4 + i % 4) % 4)) 0

def invShiftRows (l : AesState) : AesState :=
  (List.range 16).map fun i => l.getD ((i % 4) + 4 * ((i / 4 + 4 - i % 4) % 4)) 0

/-- One column times the circulant matrix with first row `k`. -/
def mixWith (k : List Byte) (l : AesState) : AesState :=
  (List.range 16).map fun i =>
    (List.range 4).foldl
      (fun a j => a ^^^ gmul (k.getD ((j + 4 - i % 4) % 4) 0) (l.getD (4 * (i / 4) + j) 0)) 0

def mixColumns (l : AesState) : AesState := mixWith [2, 3, 1, 1] l
def invMixColumns (l : AesState) : AesState := mixWith [0x0E, 0x0B, 0x0D, 0x09] l

/-- The rounds of Table 3-7. -/
def aesEnc (s k : BitVec 128) : BitVec 128 :=
  aesWord (mixColumns (shiftRows ((aesBytes s).map sbox))) ^^^ k
def aesEncLast (s k : BitVec 128) : BitVec 128 := aesWord (shiftRows ((aesBytes s).map sbox)) ^^^ k
def aesDec (s k : BitVec 128) : BitVec 128 :=
  aesWord (invMixColumns (aesBytes (aesWord ((invShiftRows (aesBytes s)).map invSbox) ^^^ k)))
def aesDecLast (s k : BitVec 128) : BitVec 128 := aesWord ((invShiftRows (aesBytes s)).map invSbox) ^^^ k

/-- The key schedule of FIPS 197 as 4-byte words: `nk` key words, extended by `fuel` words; newest first. -/
def keyWords (nk : Nat) : Nat → Nat → Byte → List (List Byte) → List (List Byte)
  | 0, _, _, w => w
  | fuel + 1, i, rc, w =>
    let t := w.headD []
    let t' :=
      if i % nk == 0 then
        match t with
        | [a, b, c, d] => [sbox b ^^^ rc, sbox c, sbox d, sbox a]
        | _ => t
      else if nk > 6 && i % nk == 4 then t.map sbox else t
    let rc' := if i % nk == 0 then xtime rc else rc
    let n := List.zipWith (· ^^^ ·) (w.getD (nk - 1) []) t'
    keyWords nk fuel (i + 1) rc' (n :: w)

/-- Round keys of a key of `4 nk` bytes, `nk + 7` of them. -/
def roundKeys (nk : Nat) (key : List Byte) : List (BitVec 128) :=
  let w0 := (List.range nk).map fun i => (key.drop (4 * i)).take 4
  let ws := (keyWords nk (4 * (nk + 7) - nk) nk 1 w0.reverse).reverse
  (List.range (nk + 7)).map fun r => ofBytes 128 ((ws.drop (4 * r)).take 4).flatten

/-- AES encryption of one block. -/
def aesEncrypt (nk : Nat) (key : List Byte) (x : BitVec 128) : BitVec 128 :=
  match roundKeys nk key with
  | [] => x
  | k0 :: ks =>
    let s := ks.dropLast.foldl aesEnc (x ^^^ k0)
    aesEncLast s (ks.getLastD 0)

/-- AES decryption of one block. -/
def aesDecrypt (nk : Nat) (key : List Byte) (x : BitVec 128) : BitVec 128 :=
  match (roundKeys nk key).reverse with
  | [] => x
  | k0 :: ks =>
    let s := ks.dropLast.foldl aesDec (x ^^^ k0)
    aesDecLast s (ks.getLastD 0)

/-- Multiplication of the XTS tweak by the primitive element of GF(2^128). -/
def xtsNext (t : BitVec 128) : BitVec 128 := (t <<< 1) ^^^ (if t.getLsbD 127 then 0x87 else 0)

/-- XTS-AES-128 of one 64-byte data unit (R309): bytes 0–15 of the key are the data key, 16–31 the tweak key. -/
def xtsLine (enc : Bool) (key : BitVec 256) (seq : Nat) (l : BitVec 512) : BitVec 512 :=
  let kb := toBytes key 32
  let t0 := aesEncrypt 4 (kb.drop 16) (BitVec.ofNat 128 seq)
  let blk (i : Nat) (t : BitVec 128) : BitVec 128 :=
    let p : BitVec 128 := l.extractLsb' (128 * i) 128
    if enc then aesEncrypt 4 (kb.take 16) (p ^^^ t) ^^^ t else aesDecrypt 4 (kb.take 16) (p ^^^ t) ^^^ t
  let t1 := xtsNext t0
  let t2 := xtsNext t1
  let t3 := xtsNext t2
  blk 3 t3 ++ blk 2 t2 ++ blk 1 t1 ++ blk 0 t0

/-- One byte of a bit-reflected CRC-32C update (R89). -/
def crcByte (c : BitVec 32) (b : Byte) : BitVec 32 :=
  (List.range 8).foldl (fun (x : BitVec 32) _ => (x >>> 1) ^^^ (if x.getLsbD 0 then 0x82F63B78 else 0))
    (c ^^^ b.setWidth 32)

/-- CRC-32C over bytes, without initial or final inversion. -/
def crc32c (c : BitVec 32) (l : List Byte) : BitVec 32 := l.foldl crcByte c

/-- The CRC-32C of a frame or message: starts from all ones and inverts the result (R280). -/
def crcFrame (l : List Byte) : BitVec 32 := ~~~ crc32c 0xFFFFFFFF l

/-- What FIPS 180-4 gives each word width by numbers: the rotations of Σ0 and Σ1, and the rotations and the shift of σ0 and
σ1. -/
structure ShaCounts where
  up0 : List Nat
  up1 : List Nat
  low0 : List Nat × Nat
  low1 : List Nat × Nat

/-- SHA-256 has words of 32 bits, SHA-384 and SHA-512 words of 64. -/
def shaCounts (w : Nat) : ShaCounts :=
  if w == 32 then ⟨[2, 13, 22], [6, 11, 25], ([7, 18], 3), ([17, 19], 10)⟩
  else ⟨[28, 34, 39], [14, 18, 41], ([1, 8], 7), ([19, 61], 6)⟩

/-- The exclusive or of several rotations of one word. -/
def xorRot {w : Nat} (x : BitVec w) (l : List Nat) : BitVec w := (l.map x.rotateRight).foldl (· ^^^ ·) 0

/-- σ0 and σ1. -/
def smallSig0 (w : Nat) (x : BitVec w) : BitVec w := xorRot x (shaCounts w).low0.1 ^^^ x >>> (shaCounts w).low0.2
def smallSig1 (w : Nat) (x : BitVec w) : BitVec w := xorRot x (shaCounts w).low1.1 ^^^ x >>> (shaCounts w).low1.2

/-- One round on the working variables, of which a to d are one shift register and e to h another: T1 + T2 enters the first,
and what leaves it enters the second with T1 (FIPS 180-4); `wk` is Wt + Kt. -/
def shaRound (w : Nat) (v : List (BitVec w)) (wk : BitVec w) : List (BitVec w) :=
  let n := shaCounts w
  let (p, q) := v.splitAt 4
  let at_ (l : List (BitVec w)) (i : Nat) := l.getD i 0
  let choose := at_ q 2 ^^^ (at_ q 0 &&& (at_ q 1 ^^^ at_ q 2))
  let most := (at_ p 0 &&& (at_ p 1 ||| at_ p 2)) ||| (at_ p 1 &&& at_ p 2)
  let t1 := wk + at_ q 3 + choose + xorRot (at_ q 0) n.up1
  (t1 + most + xorRot (at_ p 0) n.up0) :: p.take 3 ++ (t1 + at_ p 3) :: q.take 3

/-- The `k`-th root of `n` rounded down, below 2^bits, found bit by bit from the highest. -/
def intRoot (k bits n : Nat) : Nat :=
  (List.range bits).foldl (fun r i => let r' := r + 2 ^ (bits - 1 - i); if r' ^ k ≤ n then r' else r) 0

/-- The first 64 bits of the fractional part of the k-th root of a prime below 512, of which FIPS 180-4 makes its constants. -/
def rootBits (k p : Nat) : BitVec 64 := BitVec.ofNat 64 (intRoot k 68 (p * 2 ^ (64 * k)))

/-- The first 80 primes. -/
def primes80 : List Nat :=
  (List.range 410).foldl (fun l n => if n < 2 || l.any (n % · == 0) then l else l ++ [n]) []

/-- The 80 constants Kt of SHA-384, from the cube roots. -/
def sha384K : List (BitVec 64) := primes80.map (rootBits 3)

/-- A round of SHA-384 with the last 16 words of the message schedule, oldest first: the oldest is used, and the next word of
the schedule takes its place at the end. -/
def sha384Step (x : List (BitVec 64) × List (BitVec 64)) (k : BitVec 64) : List (BitVec 64) × List (BitVec 64) :=
  let at_ (i : Nat) := x.2.getD i 0
  (shaRound 64 x.1 (at_ 0 + k), x.2.tail ++ [at_ 0 + smallSig0 64 (at_ 1) + at_ 9 + smallSig1 64 (at_ 14)])

/-- SHA-384 (FIPS 180-4). The padded message is one number of 1,024 bits for each block, first byte highest: the message, a
one, zeros, and the message's length in bits. It starts from the square roots of the ninth to sixteenth prime. -/
def sha384 (msg : List Byte) : List Byte :=
  let n := msg.length
  let blocks := (n + 16) / 128 + 1
  let m := (256 * beNat msg + 0x80) * 2 ^ (8 * (128 * blocks - n - 1)) + 8 * n
  let words (b : Nat) : List (BitVec 64) :=
    (List.range 16).map fun i => BitVec.ofNat 64 (m / 2 ^ (64 * (16 * (blocks - b) - 1 - i)))
  let h := (List.range blocks).foldl
    (fun h b => List.zipWith (· + ·) h (sha384K.foldl sha384Step (h, words b)).1) (((primes80.drop 8).take 8).map (rootBits 2))
  (h.take 6).flatMap fun x => beBytes 8 x.toNat

/-- HMAC-SHA-384 (R472). -/
def hmac384 (key msg : List Byte) : List Byte :=
  let k0 := if key.length > 128 then sha384 key else key
  let k := k0 ++ List.replicate (128 - k0.length) 0
  sha384 (k.map (· ^^^ 0x5C) ++ sha384 (k.map (· ^^^ 0x36) ++ msg))

end Sys2Proof.Machine
end

