-- ==== Sys2Proof/Machine/Frames.lean ====
section
/-! DEFINITION. Ethernet, IP, UDP and TCP as the ports and queue engines read and write them (R352, R361, R362, R364). -/

namespace Sys2Proof.Machine

/-- `n` bytes at an offset as a number, most significant first; bytes beyond the end read 0. -/
def beAt (b : List Byte) (o n : Nat) : Nat := beNat ((List.range n).map fun i => b.getD (o + i) 0)
def leAt (b : List Byte) (o n : Nat) : Nat := leNat ((List.range n).map fun i => b.getD (o + i) 0)

/-- Bytes replaced from an offset on; nothing beyond the end is written. -/
def patch (b : List Byte) (o : Nat) (new : List Byte) : List Byte :=
  (b.take o ++ (new.take (b.length - o))) ++ b.drop (o + new.length)

/-! ### Ethernet -/

/-- What the Ethernet header of a frame says: addresses, tag control, EtherType, and where the payload begins. -/
structure Eth where
  dst : Nat
  src : Nat
  tag : Option Nat
  ty : Nat
  off : Nat
  deriving DecidableEq, Repr

def ethOf (b : List Byte) : Eth :=
  let ty := beAt b 12 2
  if ty == 0x8100 then ⟨beAt b 0 6, beAt b 6 6, some (beAt b 14 2), beAt b 16 2, 18⟩
  else ⟨beAt b 0 6, beAt b 6 6, none, ty, 14⟩

/-- The VLAN ID that a frame matches: 0 for an untagged one. -/
def Eth.vid (e : Eth) : Nat := (e.tag.getD 0) % 4096

/-- A frame with its tag removed, and with one inserted. -/
def stripTag (b : List Byte) : List Byte := if (ethOf b).tag.isSome then b.take 12 ++ b.drop 16 else b
def insertTag (b : List Byte) (tag : Nat) : List Byte := b.take 12 ++ [0x81, 0x00] ++ beBytes 2 tag ++ b.drop 12

/-- A frame padded with zeros to 60 bytes. -/
def padFrame (b : List Byte) : List Byte := b ++ List.replicate (60 - b.length) 0

/-! ### Internet checksums -/

/-- The one's complement sum of 16-bit words, most significant byte first. -/
def sum16 : List Byte → Nat
  | a :: b :: l => 256 * a.toNat + b.toNat + sum16 l
  | [a] => 256 * a.toNat
  | [] => 0

def fold16 (n : Nat) : Nat :=
  let a := n % 65536 + n / 65536
  let b := a % 65536 + a / 65536
  b % 65536 + b / 65536

def checksum (n : Nat) : Nat := 65535 - fold16 n

def ipVersion (b : List Byte) (l3 : Nat) : Nat := (b.getD l3 0).toNat / 16
def ipHeaderLen (b : List Byte) (l3 : Nat) : Nat := if ipVersion b l3 == 4 then (b.getD l3 0).toNat % 16 * 4 else 40
def ipProto (b : List Byte) (l3 : Nat) : Nat := if ipVersion b l3 == 4 then beAt b (l3 + 9) 1 else beAt b (l3 + 6) 1

/-- Bytes from the transport header to the end of the datagram. -/
def l4Len (b : List Byte) (l3 l4 : Nat) : Nat :=
  if ipVersion b l3 == 4 then beAt b (l3 + 2) 2 - (l4 - l3) else beAt b (l3 + 4) 2 - (l4 - l3 - 40)

/-- CSUM_L3: the IPv4 header checksum is inserted. -/
def putL3 (b : List Byte) (l3 : Nat) : List Byte :=
  if ipVersion b l3 == 4 then
    let z := patch b (l3 + 10) [0, 0]
    patch z (l3 + 10) (beBytes 2 (checksum (sum16 ((z.drop l3).take (ipHeaderLen z l3)))))
  else b

/-- The sum of the pseudo-header. -/
def pseudoSum (b : List Byte) (l3 l4 : Nat) : Nat :=
  let addrs := if ipVersion b l3 == 4 then (b.drop (l3 + 12)).take 8 else (b.drop (l3 + 8)).take 32
  sum16 addrs + ipProto b l3 + l4Len b l3 l4

/-- Where the transport checksum lies: TCP or UDP. -/
def l4SumAt (b : List Byte) (l3 l4 : Nat) : Option Nat :=
  if ipProto b l3 == 6 then some (l4 + 16) else if ipProto b l3 == 17 then some (l4 + 6) else none

/-- CSUM_L4: the TCP or UDP checksum is inserted, the pseudo-header included. -/
def putL4 (b : List Byte) (l3 l4 : Nat) : List Byte :=
  match l4SumAt b l3 l4 with
  | none => b
  | some o =>
    let z := patch b o [0, 0]
    let c := checksum (pseudoSum z l3 l4 + sum16 ((z.drop l4).take (l4Len z l3 l4)))
    patch z o (beBytes 2 (if c == 0 && ipProto b l3 == 17 then 65535 else c))

/-- R361 on receive: the checksums that verified as good. -/
def rxSums (b : List Byte) : Bool × Bool :=
  let e := ethOf b
  let l3 := e.off
  if (e.ty == 0x0800 && ipVersion b l3 == 4) || (e.ty == 0x86DD && ipVersion b l3 == 6) then
    let l4 := l3 + ipHeaderLen b l3
    let good3 := ipVersion b l3 == 4 && fold16 (sum16 ((b.drop l3).take (ipHeaderLen b l3))) == 65535
    let good4 := match l4SumAt b l3 l4 with
      | none => false
      | some o => !(ipProto b l3 == 17 && beAt b o 2 == 0) &&
          fold16 (pseudoSum b l3 l4 + sum16 ((b.drop l4).take (l4Len b l3 l4))) == 65535
    (good3, good4)
  else (false, false)

/-- The length of the headers that every TSO segment repeats: up to the end of the TCP header. -/
def tsoHeader (b : List Byte) (l4 : Nat) : Nat := l4 + (b.getD (l4 + 12) 0).toNat / 16 * 4

/-- R361: one TSO segment: lengths, IPv4 identification, sequence number, FIN and PSH, both checksums. -/
def tsoSegment (hdr pay : List Byte) (l3 l4 idx off : Nat) (last : Bool) : List Byte :=
  let b := hdr ++ pay
  let b := if ipVersion b l3 == 4 then
      patch (patch b (l3 + 2) (beBytes 2 (b.length - l3))) (l3 + 4) (beBytes 2 (beAt b (l3 + 4) 2 + idx))
    else patch b (l3 + 4) (beBytes 2 (b.length - l3 - 40))
  let b := patch b (l4 + 4) (beBytes 4 (beAt b (l4 + 4) 4 + off))
  let b := if last then b else patch b (l4 + 13) [(b.getD (l4 + 13) 0) &&& 0xF6]
  putL4 (putL3 b l3) l3 l4

/-! ### RoCEv2 (R364): PRESUMED, the InfiniBand Architecture Specification, Volume 1, and its annex A17 -/

/-- One step of the Ethernet CRC-32, reflected. -/
def crc32Byte (c : BitVec 32) (b : Byte) : BitVec 32 :=
  (List.range 8).foldl (fun c _ => if c.getLsbD 0 then (c >>> 1) ^^^ 0xEDB88320 else c >>> 1) (c ^^^ b.setWidth 32)

/-- The invariant CRC of a packet from its IP header on, with the fields that routers change masked to ones. -/
def icrcOf (ip : List Byte) : BitVec 32 :=
  let v4 := ipVersion ip 0 == 4
  let h := ipHeaderLen ip 0
  let ip := if v4 then patch (patch (patch ip 1 [0xFF]) 8 [0xFF]) 10 [0xFF, 0xFF]
    else patch (patch ip 0 [0x6F, 0xFF, 0xFF, 0xFF]) 7 [0xFF]
  let ip := patch (patch ip (h + 6) [0xFF, 0xFF]) (h + 12) [0xFF]
  ~~~ ((List.replicate 8 0xFF ++ ip).foldl crc32Byte 0xFFFFFFFF)

/-- A base transport header with what follows it. -/
structure Bth where
  opcode : Nat
  pad : Nat
  qpn : Nat
  ackReq : Bool
  psn : BitVec 24
  body : List Byte
  deriving DecidableEq, Repr

/-- The bytes of a RoCEv2 packet from the base transport header on, without the invariant CRC. -/
def bthBytes (opcode pad : Nat) (qpn : BitVec 24) (ackReq : Bool) (psn : BitVec 24) (body : List Byte) : List Byte :=
  [BitVec.ofNat 8 opcode, BitVec.ofNat 8 (pad * 16), 0xFF, 0xFF, 0] ++ beBytes 3 qpn.toNat ++
    [if ackReq then 0x80 else 0] ++ beBytes 3 psn.toNat ++ body

/-- The transport part of a frame addressed to UDP port 4791, if its invariant CRC is right; also the ECN codepoint. -/
def bthOf (b : List Byte) : Option (Bth × Nat) :=
  let l3 := (ethOf b).off
  let v4 := ipVersion b l3 == 4
  let total := if v4 then beAt b (l3 + 2) 2 else 40 + beAt b (l3 + 4) 2
  let ip := (b.drop l3).take total
  let h := ipHeaderLen ip 0
  if ip.length < h + 24 then none
  else
    let body := ip.take (ip.length - 4)
    if icrcOf body != ofBytes 32 (ip.drop (ip.length - 4)) then none
    else
      let ecn := if v4 then beAt ip 1 1 % 4 else beAt ip 1 1 / 16 % 4
      some (⟨beAt ip (h + 8) 1, beAt ip (h + 9) 1 / 16 % 4, beAt ip (h + 13) 3, beAt ip (h + 16) 1 ≥ 128,
        BitVec.ofNat 24 (beAt ip (h + 17) 3), body.drop (h + 20)⟩, ecn)

/-- A frame goes to UDP port 4791 (R362). -/
def isRoce (b : List Byte) : Bool :=
  let e := ethOf b
  let v := ipVersion b e.off
  ((e.ty == 0x0800 && v == 4) || (e.ty == 0x86DD && v == 6)) && ipProto b e.off == 17 &&
    beAt b (e.off + ipHeaderLen b e.off + 2) 2 == 4791

/-- An IPv4-mapped address. -/
def isMapped (ip : List Byte) : Bool := ip.take 12 == List.replicate 10 0 ++ [0xFF, 0xFF]

/-- A whole RoCEv2 frame: addresses, ECT(0), the hop limit and UDP source port, the transport bytes, the invariant CRC. -/
def roceFrame (dst src : List Byte) (tag : Nat) (lip pip : List Byte) (hop : BitVec 8) (sport : BitVec 16)
    (bth : List Byte) : List Byte :=
  let udp := toBytes sport 2 |>.reverse
  let udp := udp ++ beBytes 2 4791 ++ beBytes 2 (8 + bth.length + 4) ++ [0, 0]
  let ip := if isMapped pip then
      putL3 ([0x45, 0x02] ++ beBytes 2 (20 + 8 + bth.length + 4) ++ [0, 0, 0x40, 0, hop, 17, 0, 0] ++ lip.drop 12 ++
        pip.drop 12 ++ udp ++ bth) 0
    else [0x60, 0x20, 0, 0] ++ beBytes 2 (8 + bth.length + 4) ++ [17, hop] ++ lip ++ pip ++ udp ++ bth
  let eth := dst ++ src ++ (if isMapped pip then [0x08, 0x00] else [0x86, 0xDD])
  let f := eth ++ ip ++ toBytes (icrcOf ip) 4
  padFrame (if tag == 0 then f else insertTag f tag)

end Sys2Proof.Machine
end

