-- ==== Sys2Proof/Config.lean ====
section
/-! DEFINITION. What one part fixes at manufacture, and the free values: opaque constants that nothing in Lean can
evaluate, so that a statement holds whatever they are (notes/assumptions/3.md). -/

namespace Sys2Proof.Config

/-- R116: which of the values a window allows an instruction sees: the step's free counter, the register. -/
opaque windowPick : Nat → Nat → Nat

/-- R155: whether an access of the instruction with this free-value index is made before it is proven, by line. -/
opaque unproven : Nat → Nat → Bool

/-- R154, R158: transfers on the wrong path that reach execute before a misprediction is found. -/
opaque wrongPathTransfers : Nat → Nat

/-- R139, R165: pacer turns made during one instruction. -/
opaque pacerTurns : Nat → Nat

/-- R159, R160: occurrences, during one instruction, of an event that time or wrong-path work brings about: the step's free
counter, the event code. -/
opaque extraEvents : Nat → Nat → Nat

/-- R309, R344: the DRBG's output, one 256-bit block for each request count. -/
opaque drbg : Nat → BitVec 256

/-- R18, Table 1-8: whether compute die c is of stepping B1 (else B0). -/
opaque dieIsB1 : Nat → Bool

/-- R48: the SHA-384 hashes of the vendor keys in the fuses (KEY_ID 1 and 2). -/
opaque vendorKeyHash : Nat → BitVec 384

/-- R346: the package's fused ECDSA P-384 attestation key. -/
opaque attestKey : BitVec 384

/-- R346: the per-signature secret of ECDSA. -/
opaque attestNonce : Nat → BitVec 384

/-- Table 12-7: the package identifier of the fuses. -/
opaque packageId : BitVec 128

/-- Table 12-7: the version of the Warden firmware. -/
opaque wardenVersion : BitVec 32

/-- R387: the token stream the compressor chooses for a block, by job progress and block. -/
opaque tokens : Nat → List (BitVec 8) → List (BitVec 8)

/-- A word, or a line, that the manual leaves undefined while the machine goes on: the step's free counter. -/
opaque freeWord : Nat → BitVec 64
opaque freeLine : Nat → BitVec 512

/-- R394, R396: the STAGE_LEN that an active member's JOIN carries and its boundaries go by, by tenant: the length of the
partner's staging area, which no register or frame gives it. -/
opaque partnerStage : BitVec 12 → BitVec 64

/-- R262: the base router that the vertical port of a compute tile lands on (compute die, tile), the base router that an edge
node of a base die attaches to (die; 0 to 2 its controllers, 3 its agent, 4 its station), and the tile of a compute die's
agent. -/
opaque landing : Nat → Nat → Nat
opaque edgeRouter : Nat → Nat → Nat
opaque agentTile : Nat → Nat

/-- R262: the width of the hub mesh, the router of a hub node, and that of the hub station. -/
opaque hubWidth : Nat
opaque hubRouter : Nat → Nat
opaque hubStation : Nat

/-- R368: the bytes that a unit of ETH_WEIGHT adds to a class's deficit on each turn, less one. -/
opaque ethQuantum : Nat

/-- R398: the bytes that a port's receive buffer holds during a pause. -/
opaque rxBuffer : Nat

/-- R364: the hop limit and the UDP source port of the RC packets of a queue pair. -/
opaque rcHop : Nat → BitVec 8
opaque rcPort : Nat → BitVec 16

/-- R364: the timer field of an RNR NAK. -/
opaque rnrTimer : BitVec 5

/-- R353, R471: the MAC base fused at manufacture. -/
opaque macBase : BitVec 48

/-- R472: the management key fused at manufacture. -/
opaque mgmtKey : BitVec 384

/-- Table 19-4: the result record of a command, by its SEQ and result word; the manual names no word of it beyond the head. -/
opaque resultRecord : Nat → BitVec 64 → List (BitVec 8)

end Sys2Proof.Config
end

