-- ==== Sys2Proof/Machine/Codes.lean ====
section
/-! DEFINITION. The line code over GF(2^16) (R295–R297), the ring frame's RS(96,80) code over GF(2^8) (R280) and the
replacement LFSR (R197). -/

namespace Sys2Proof.Machine

/-- Carry-less multiplication modulo a field polynomial of degree `d`. -/
def fmulAux (d poly : Nat) (b : Nat) : Nat → Nat → Nat → Nat
  | 0, _, acc => acc
  | n + 1, a, acc =>
    let acc' := if b.testBit (d - 1 - n) then acc ^^^ a else acc
    let a2 := 2 * a
    fmulAux d poly b n (if a2 ≥ 2 ^ d then a2 ^^^ poly else a2) acc'

/-- Multiplication in GF(2^16) with x^16 + x^12 + x^3 + x + 1 (R295). -/
def mul16 (a b : Nat) : Nat := fmulAux 16 0x1100B b 16 a 0

/-- α^j in GF(2^16), α = 2. -/
def alpha16 : Nat → Nat
  | 0 => 1
  | j + 1 => mul16 2 (alpha16 j)

/-- g(x) = (x + α^0)(x + α^1)(x + α^2)(x + α^3): its coefficients from x^3 down (x^4 has 1). -/
def gen16 : List Nat :=
  let step (g : List Nat) (r : Nat) : List Nat :=
    List.zipWith (· ^^^ ·) (g ++ [0]) (0 :: g.map (mul16 r))
  ([alpha16 0, alpha16 1, alpha16 2, alpha16 3].foldl step [1]).drop 1

/-- The check symbols s_32 to s_35 of 32 data symbols, s_0 first. -/
def checkSyms (ds : List Nat) : List Nat :=
  ds.foldl
    (fun r d =>
      let fb := d ^^^ r.headD 0
      List.zipWith (· ^^^ ·) (r.tail ++ [0]) (gen16.map (mul16 fb)))
    [0, 0, 0, 0]

/-- The check bytes of a line (R295), little-endian. -/
def encodeLine (l : Line) : BitVec 64 :=
  let ds := (List.range 32).map fun i => fld l (16 * i) 16
  match checkSyms ds with
  | [a, b, c, d] => BitVec.ofNat 64 (a + 2 ^ 16 * b + 2 ^ 32 * c + 2 ^ 48 * d)
  | _ => 0

/-- The syndrome c(α^j) of a line whose stored check bytes differ from the right ones by `delta` (R296). -/
def syndrome (delta : BitVec 64) (j : Nat) : Nat :=
  (List.range 4).foldl (fun a i => mul16 a (alpha16 j) ^^^ fld delta (16 * i) 16) 0

/-- The constant whose XOR marks a poisoned line (R297). -/
def poisonMark : BitVec 64 := 0x3CC35AA5C33CA55A

/-- The classes of R296; class 1 names the symbol in error and the error value. -/
inductive LineClass where
  | clean
  | corrected (sym : Nat) (err : Nat)
  | poisoned
  | uncorrectable
  deriving DecidableEq, Repr

/-- R296, R297: the class of a stored line, from its check difference. -/
def lineClass (delta : BitVec 64) : LineClass :=
  if delta == 0 then .clean
  else if delta == poisonMark then .poisoned
  else
    let s0 := syndrome delta 0
    let s1 := syndrome delta 1
    let s2 := syndrome delta 2
    let s3 := syndrome delta 3
    if s0 == 0 then .uncorrectable
    else
      match (List.range 36).find? fun i =>
        let a := alpha16 (35 - i)
        mul16 s0 a == s1 && mul16 s1 a == s2 && mul16 s2 a == s3 with
      | some i => .corrected i s0
      | none => .uncorrectable

/-- The class as the number that SCRUB_WORST and R305 use. -/
def LineClass.code : LineClass → Nat
  | .clean => 0
  | .corrected _ _ => 1
  | .poisoned => 2
  | .uncorrectable => 3

/-- The data of a line with a class-1 error corrected. -/
def correctLine (l : Line) : LineClass → Line
  | .corrected i e => if i < 32 then l ^^^ BitVec.ofNat 512 (e * 2 ^ (16 * i)) else l
  | _ => l

/-- One advance of the replacement LFSR (R197). -/
def lfsrNext (s : BitVec 16) : BitVec 16 :=
  let b := s.getLsbD 15 ^^ s.getLsbD 13 ^^ s.getLsbD 12 ^^ s.getLsbD 10
  (s <<< 1) ||| (if b then 1 else 0)

/-- A seed as it is loaded: 0 is loaded as 0x0001 (R200). -/
def seedOf (s : BitVec 16) : BitVec 16 := if s == 0 then 1 else s

/-- Multiplication in GF(2^8) with x^8 + x^4 + x^3 + x^2 + 1 (R280). -/
def mul8 (a b : Nat) : Nat := fmulAux 8 0x11D b 8 a 0

def pow8 (a : Nat) : Nat → Nat
  | 0 => 1
  | n + 1 => mul8 a (pow8 a n)

/-- The inverse in GF(2^8): the 254th power. -/
def inv8 (a : Nat) : Nat := pow8 a 254

/-- The RS generator with roots α^0 to α^15: coefficients from x^15 down. -/
def gen8 : List Nat :=
  let step (g : List Nat) (r : Nat) : List Nat :=
    List.zipWith (· ^^^ ·) (g ++ [0]) (0 :: g.map (mul8 r))
  (((List.range 16).map (pow8 2)).foldl step [1]).drop 1

/-- The 16 parity bytes over 80 message bytes, the first byte the highest power. -/
def rsParity (msg : List Nat) : List Nat :=
  msg.foldl
    (fun r d =>
      let fb := d ^^^ r.headD 0
      List.zipWith (· ^^^ ·) (r.tail ++ [0]) (gen8.map (mul8 fb)))
    (List.replicate 16 0)

/-- The syndromes of a 96-byte frame. -/
def rsSyndromes (w : List Nat) : List Nat :=
  (List.range 16).map fun j => w.foldl (fun a d => mul8 a (pow8 2 j) ^^^ d) 0

/-- One elimination step on an augmented matrix: clear column `c` using the first usable row. -/
def rsEliminate : Nat → Nat → List (List Nat) → List (List Nat) → Option (List (List Nat))
  | 0, _, done, _ => some done
  | n + 1, c, done, rest =>
    match rest.find? fun r => r.getD c 0 != 0 with
    | none => none
    | some p =>
      let pv := p.map (mul8 (inv8 (p.getD c 0)))
      let clear (r : List Nat) : List Nat := List.zipWith (fun x y => x ^^^ mul8 (r.getD c 0) y) r pv
      rsEliminate n (c + 1) (done.map clear ++ [pv]) ((rest.erase p).map clear)

/-- Solve `n` linear equations over GF(2^8), each row holding its right side last. -/
def rsSolve (n : Nat) (rows : List (List Nat)) : Option (List Nat) :=
  (rsEliminate n 0 [] rows).map fun m => m.map fun r => r.getLastD 0

/-- Try to correct exactly `v` byte errors: solve for the locator, find its roots among the 96 places, solve for the values,
and keep the result only if it is a code word. -/
def rsTry (w : List Nat) (syn : List Nat) (v : Nat) : Option (List Nat) :=
  match rsSolve v ((List.range v).map fun i =>
      ((List.range v).map fun j => syn.getD (i + j) 0) ++ [syn.getD (i + v) 0]) with
  | none => none
  | some loc =>
    -- S_(i+v) = Σ loc_j S_(i+j): the locators are the roots of x^v + Σ loc_j x^j
    let places := (List.range 96).filter fun k =>
      let x := pow8 2 (95 - k)
      (pow8 x v ^^^ ((List.range v).foldl (fun a j => a ^^^ mul8 (loc.getD j 0) (pow8 x j)) 0)) == 0
    if places.length != v then none
    else
      match rsSolve v ((List.range v).map fun i =>
          (places.map fun k => pow8 (pow8 2 (95 - k)) i) ++ [syn.getD i 0]) with
      | none => none
      | some vals =>
        let w' := (List.range 96).map fun k =>
          w.getD k 0 ^^^ (((places.zip vals).find? fun p => p.1 == k).map (·.2)).getD 0
        if (rsSyndromes w').all (· == 0) then some w' else none

/-- R280: the frame corrected of up to 8 byte errors, with whether any byte was corrected; none when it cannot be. -/
def rsCorrect (w : List Nat) : Option (List Nat × Bool) :=
  let syn := rsSyndromes w
  if syn.all (· == 0) then some (w, false)
  else ((List.range 8).findSome? fun i => rsTry w syn (i + 1)).map fun r => (r, true)

end Sys2Proof.Machine
end

