-- ==== Sys2Proof/Machine/State.lean ====
section
/-! DEFINITION. The state of the Limlon 1248 as plain data: every register, array, queue and flag that the manual names,
with its width, the rule that names it and its reset value. -/

namespace Sys2Proof.Machine

/-- Why a step stops. -/
inductive Fault where
  /-- Raised by a command that names a unit, an index or a length that the part does not have (Instr.wf): no unit of the
  package sends such a command, so the manual gives it no effect. Safe: the model stops where the hardware never is. -/
  | illFormed
  deriving DecidableEq, Repr

/-- Why a command has no meaning here. -/
inductive Refusal where
  /-- Raised by a row of the table whose meaning has not been written. Safe: no next state is answered. -/
  | notModelled (mnemonic : String)
  deriving DecidableEq, Repr

/-- A structure image as the buffers hold it: its length and its non-zero bytes by offset (R45). -/
structure Image where
  len : Nat
  bytes : Table Byte
  deriving DecidableEq, Repr

/-- What a core is doing: off, held in reset, waiting for the CACHE section (R200), running, in WFI (R111), stopped by a
double exception (R108), paused at an epoch boundary (R397). -/
inductive RunState where
  | off | reset | waitSection | running | wfi | stopped | paused
  deriving DecidableEq, Repr

/-- One open effect window (R116): the register (0x400 + field for SW's fields PL, IE, SS, EX), the value it held before
the write, and how many more instructions may still see it. -/
structure Win where
  reg : Nat
  old : Word
  left : Nat
  deriving DecidableEq, Repr

/-- One store-buffer entry (R146): the physical address of its first byte, up to 32 bytes with their mask, its memory
type, whether its WrPart has been sent, the tenant of the storing instruction, its stream hash (R210), and, for the
exception of a failed store, the virtual address and the address of the storing instruction (Table 4-3). -/
structure SbEntry where
  pa : Nat
  data : BitVec 256
  mask : BitVec 32
  uncached : Bool
  sent : Bool
  tid : BitVec 12
  hash : Option (BitVec 10)
  va : Word
  pc : Word
  deriving DecidableEq, Repr

/-- One frame-operand map entry (R142): the slot's physical address, the line it was checked under and its value. -/
structure FrameEntry where
  va : Word
  line : Nat
  value : Word
  deriving DecidableEq, Repr

/-- One Haze entry (R156): the line, the bytes once the L2 or HazeData has filled it, whether the home answered HazeNo,
and whether its user has been proven, so that the coherent read of R157 is under way. -/
structure HazeEntry where
  line : Nat
  data : Option LineData
  refused : Bool
  promoted : Bool
  deriving DecidableEq, Repr

/-- The kinds of control transfer that the branch target buffer tells apart (R153). -/
inductive Transfer where
  | cond | jmp | call | ret | ja | calla
  deriving DecidableEq, Repr

/-- One branch-target-buffer entry: P[47:10] of the transfer, its kind, target and 2-bit direction counter. -/
structure BtbEntry where
  tag : BitVec 38
  kind : Transfer
  target : Word
  counter : BitVec 2
  deriving DecidableEq, Repr

/-- The predictor state of a core (R153): branch target buffer by set × 4 + way, indirect target table by index, and the
path history register. -/
structure Pred where
  btb : Table BtbEntry
  itt : Table (Word × Word)
  hist : BitVec 32
  deriving DecidableEq, Repr

/-- One TLB entry (R184): virtual page number, page size as its number of offset bits, physical and intermediate page
bases, the combined permissions of both stages, the memory type, D, and the owner of its page (R336). -/
structure TlbEntry where
  vbase : Nat
  bits : Nat
  pbase : Nat
  ibase : Nat
  u : Bool
  w : Bool
  x : Bool
  er : Bool
  ew : Bool
  ex : Bool
  uc : Bool
  d : Bool
  owner : Option Nat
  deriving DecidableEq, Repr

/-- One walk-cache entry (R181): a present non-leaf entry, the level whose table it gives, the virtual-address bits that
index it, and the permissions gathered so far. -/
structure WalkEntry where
  level : Nat
  vtag : Nat
  table : Nat
  w : Bool
  u : Bool
  x : Bool
  deriving DecidableEq, Repr

/-- What the check codes of a stored line would show (Table 7-1): the bytes in which one bit has failed and those in which
two have, and the tag: 0 right, 1 correctable, 2 uncorrectable. In an L1I, whose code is parity, any of them is a parity
error. The codes themselves are those of the bytes as written; the manual gives their strength and no polynomial. -/
structure CodeErr where
  one : BitVec 64
  two : BitVec 64
  tag : Nat
  deriving DecidableEq, Repr

/-- Codes that show no error. -/
def CodeErr.none : CodeErr := ⟨0, 0, 0⟩

/-- One line of an L1I, L1D or L2 array (R193, R229): state, bytes, poison; for L1D `dirty` marks modified bytes; what its
codes show (R195, R202–R206). -/
structure CLine where
  line : Nat
  st : L2St
  bytes : Line
  poison : Bool
  dirty : Bool
  err : CodeErr
  deriving DecidableEq, Repr

/-- One evict-pending buffer (R212, R245): the line with its data and state, until the home's last response. -/
structure EvictBuf where
  line : Nat
  st : L2St
  bytes : Line
  poison : Bool
  tag : Nat
  deriving DecidableEq, Repr

/-- The L1 cache that a line also goes to. -/
inductive L1 where
  | none | data | instr
  deriving DecidableEq, Repr

/-- One prefetch tracker (R208, R210): the stream hash (with the requesting core at a slice), last line, stride, confidence. -/
structure Tracker where
  core : Nat
  hash : BitVec 10
  last : Nat
  stride : Int
  conf : Nat
  deriving DecidableEq, Repr

/-- An outstanding request of an L2 (R242, R244): its tag, what it asks for (1 RdS, 2 RdX, 3 Upg, 4 Claim, 5 RdCur, 7
WrPart), which parts of the answer have come, whether a prefetch made it, and the L1 cache that a demand miss also fills
(R194). -/
structure CoreTxn where
  tag : Nat
  line : Nat
  want : Nat
  data : Option LineData
  go : Bool
  prefetch : Bool
  fill : L1
  deriving DecidableEq, Repr

/-- An invalidation broadcast on its way to a core or waiting at its next boundary (R187, R188): the issuer, its TID,
the virtual address of TLBIVB, the time of its sending (R189), and, once the core has taken it, how many store-buffer
entries of the boundary are not yet visible. -/
structure Bcast where
  issuer : Nat
  tid : BitVec 12
  va : Option Word
  since : Nat
  stores : Option Nat
  deriving DecidableEq, Repr

/-- Why a core makes no progress although it runs: an atomic or 16-byte atomic waits for AtomData (R135), a maintenance
instruction for its last response (R251), a broadcast for its acknowledgements (R187), TSWITCH until its pushes are visible,
then for the router, then for its pulls as (tag, 8 × group + word) (R322),
ENTER for the security block's gate check (R340). An atomic keeps where its old value goes, as (physical address,
uncached, virtual address) for each slot; ENTER keeps the physical address of its target. A store to several slots keeps
those that come after a slot in memory and wait, from one in device space on, until that slot's store is visible
(R97, R136), as (physical address, uncached, virtual address, value). -/
inductive Stall where
  | none
  | slots (rest : List (Nat × Bool × Word × Word))
  | atomic (tag : Nat) (va : Word) (dst : List (Nat × Bool × Word))
  | maint (va : Word) (tags : List Nat)
  | bcast (targets : List Nat)
  | tpush (old new : BitVec 12)
  | tswitch (old new : BitVec 12) (pulls : List (Nat × Nat))
  | gate (eid : BitVec 10) (target : Word) (gate : BitVec 16) (pa : Nat)
  deriving DecidableEq, Repr

/-- One core (Table 3-1 and Chapters 04 to 07). -/
structure Core where
  /-- A: 64 bits, Table 3-1; reset 0. -/
  a : Word
  /-- X: 64 bits, Table 3-1; reset 0. -/
  x : Word
  /-- Y: 64 bits, Table 3-1; reset 0. -/
  y : Word
  /-- L: 64 bits, Table 3-1; reset 0. -/
  l : Word
  /-- P: 64 bits, Table 3-1; reset RESET_ENTRY (R121). -/
  p : Word
  /-- F: 64 bits with [2:0] 0, Table 3-1, R70; reset 0. -/
  f : Word
  /-- VA: 256 bits, Table 3-1; reset 0. -/
  va : Vec
  /-- SW: 64 bits, Table 4-2; reset PL 0b10, EX 1, others 0. -/
  sw : Word
  /-- The system registers by number, 64 bits each, Table 4-5; an unlisted number reads its reset value (srReset). -/
  sr : Table Word
  /-- Open effect windows, R116; reset none. -/
  win : List Win
  /-- Counter overflows that hold COUNTER_OVERFLOW pending, 16 bits, R162; reset 0. -/
  ovf : BitVec 16
  /-- The run state, R108, R111, R200; reset off. -/
  run : RunState
  /-- The instruction breakpoint skips one instruction after ERET, R106; reset false. -/
  skipBp : Bool
  /-- A STEP exception waits for the stores of an enclave-mode instruction, R342; reset false. -/
  stepDue : Bool
  /-- A failed store whose DATA_ERROR waits until the earlier stores of the enclave are visible: its address and that of
  the storing instruction, R342; reset none. -/
  storeErr : Option (Word × Word)
  /-- CORE_UNCORRECTABLE waits for the next boundary, R206, Table 4-3; reset false. -/
  ueDue : Bool
  /-- MODEL'S OWN FIELD, not the manual's: the index of the free value by which the instruction at P sees the registers
  under open windows (R116: one choice for the whole of its execution). Reset 0 is a DESIGN CHOICE (log 50). -/
  idx : Nat
  /-- The instruction at P is proven, R155; reset false. -/
  proven : Bool
  /-- Events of class Selectable that the instruction at P has already caused, as (event, address), R160; reset none. -/
  seen : List (Nat × Nat)
  /-- Events of class Never that count when the instruction at P retires, R160; reset none. -/
  due : List Nat
  /-- Values that RdCur has brought for the uncached reads of the instruction at P, R196, R250; reset none. -/
  cur : List (Nat × LineData)
  /-- Error responses to reads of the instruction at P: line and code, R269; reset none. -/
  errs : List (Nat × Nat)
  /-- The first attempt of the device access that the instruction at P repeats, R269, R275; reset none. -/
  devSince : Option Nat
  /-- Prefetches that wait for a way, a buffer or a tag, with their stream hashes, R208; reset none. -/
  pfWait : List (Nat × Option (BitVec 10))
  /-- The store buffer, at most 96 entries, oldest first, R146; reset empty. -/
  sb : List SbEntry
  /-- The frame-operand map, at most 64 entries by slot number, R142; reset empty. -/
  fmap : Table FrameEntry
  /-- The Haze buffer, at most 32 entries, R156; reset empty. -/
  haze : List HazeEntry
  /-- The predictor state, R153; reset empty. -/
  pred : Pred
  /-- L1 ITLB, 64 entries, Table 6-9; reset empty. -/
  itlb : Table TlbEntry
  /-- L1 DTLB, 96 entries, Table 6-9; reset empty. -/
  dtlb : Table TlbEntry
  /-- L2 TLB, 256 sets of 12 ways, Table 6-9; reset empty. -/
  l2tlb : Table TlbEntry
  /-- Walk cache, 32 entries, R181; reset empty. -/
  wcache : Table WalkEntry
  /-- Every translation entry is to be dropped before the core executes again, R189; reset false. -/
  tlbMark : Bool
  /-- Broadcasts waiting for the core's next boundary, R188; reset none. -/
  bcasts : List Bcast
  /-- L1I, 256 sets of 4 ways by set × 4 + way, Table 7-1; reset empty. -/
  l1i : Table CLine
  /-- L1D, 128 sets of 8 ways, Table 7-1; reset empty. -/
  l1d : Table CLine
  /-- L2, 1,024 sets of 16 ways, Table 7-1; reset empty. -/
  l2 : Table CLine
  /-- Evict-pending buffers, at most 16, R212; reset empty. -/
  evict : List EvictBuf
  /-- L1I LFSR, 16 bits, R199, R200; from the CACHE section. -/
  lfsrI : BitVec 16
  /-- Core LFSR, 16 bits, R199, R200; from the CACHE section. -/
  lfsrC : BitVec 16
  /-- L2 LFSR, 16 bits, R199, R200; from the CACHE section. -/
  lfsr2 : BitVec 16
  /-- The reservoir of fresh seed triples (L1I, core, L2), at most 4, R201; reset empty. -/
  reservoir : List (BitVec 16 × BitVec 16 × BitVec 16)
  /-- L1I places (set × 4 + way) whose cells fail parity whenever they are written, R202; reset none. -/
  badI : List Nat
  /-- L1D sets marked lost, R206; reset none. -/
  lostD : List Nat
  /-- L2 sets marked lost, R206; reset none. -/
  lost2 : List Nat
  /-- The 32 prefetch trackers, R208; reset empty. -/
  trackers : Table Tracker
  /-- Set indices for which CFLUSHSET or CINVSET has run since DIRTY_LEFT set, R223; reset none. -/
  cleaned : List Nat
  /-- Lines owned in a disabled L2 whose snoop was answered not present, R222, R225; reset none. -/
  kept : List Nat
  /-- Outstanding requests of the L2, R242; reset none. -/
  txns : List CoreTxn
  /-- Why the core waits, R124, R187, R322; reset none. -/
  stall : Stall
  /-- The doorbell latch, 1 bit, R314; reset 0. -/
  doorbell : Bool
  /-- The IPI latch, 1 bit, R314; reset 0. -/
  ipi : Bool
  /-- FAULT_NOTIFY (0x75) is pending, with its level-3 form for H, R438; reset 0. -/
  notify : Bool
  /-- FAULT_NOTIFY made pending at H by a level-3 reaction, R438; reset 0. -/
  notifyH : Bool
  /-- Deliveries held by a core in TSWITCH, R319; reset none. -/
  heldDel : List (BitVec 12 × BitVec 9)
  /-- The address of the ENTER that entered the current enclave, R114; reset 0. -/
  enterAt : Word
  /-- The entry-table entry the core runs, 4 bits, R341; reset 0. -/
  entry : Nat
  /-- The owner cache, at most 16 pages with their owner, R336; reset empty. -/
  owners : List (Nat × Option Nat)
  /-- A forced exit waits for the next boundary, R351; reset false. -/
  forced : Bool
  /-- The run state to which a paused core returns, R397; reset off. -/
  before : RunState
  deriving DecidableEq, Repr

/-- One L3 slice line (R193, R205, R326): the line, its bytes as stored, the difference between its stored and its right
check bytes (R296, R298), whether DRAM is older, the class it is charged to, and what its tag's code would show: 0 right,
1 correctable, 2 uncorrectable (R206). -/
structure SLine where
  line : Nat
  bytes : Line
  chk : BitVec 64
  dirty : Bool
  cls : BitVec 3
  tag : Nat
  deriving DecidableEq, Repr

/-- One directory entry (R232): S with its sharers, X with its holder, O with its owner and sharers; the sharer field is
in pointer mode (at most three core numbers) or vector mode (compute-die numbers). -/
inductive Sharers where
  | ptr (cores : List Nat)
  | vec (dies : List Nat)
  deriving DecidableEq, Repr

inductive Dir where
  | s (sharers : Sharers)
  | x (holder : Nat)
  | o (owner : Nat) (sharers : Sharers)
  deriving DecidableEq, Repr

/-- One act of a home transaction's plan (Table 8-3), in the order it is performed. -/
inductive Act where
  /-- Send the named snoops (VN1 code, core) in one round and wait for every answer. -/
  | snoop (dests : List (Nat × Nat))
  /-- Bring the newest data to the home: what a snoop gave, else the slice, else an MRd. -/
  | fetch
  /-- After SnpS: list the requester beside the holder, or serve it from the home copy if the holder had none. -/
  | afterS
  /-- After SnpX: Go if the holder forwarded, else DataM from the home copy. -/
  | afterX
  /-- Send DataS, DataE or DataM (VN3 codes 1 to 3) with the newest data, and list the requester. -/
  | grant (code : Nat)
  /-- Send Go and list the requester as holder. -/
  | go
  /-- Write the whole line, or merge the part, that the request carries. -/
  | put
  /-- Write the newest data to DRAM if DRAM is older. -/
  | clean
  /-- Invalidate the slice copy. -/
  | dropSlice
  /-- Free the directory entry. -/
  | free
  /-- Remove the requester from the entry. -/
  | remove
  /-- The owner became a sharer (CWB of an owned line). -/
  | ownerShares
  /-- Place received writeback data (true: written back, else offered) under R212. -/
  | place (dirty : Bool)
  /-- Write a recall's newest data into the slice that holds the line, else toward DRAM (R233). -/
  | store
  /-- Perform the atomic and place its line (R252). -/
  | anvil
  /-- Pass the atomic to the stack controller (R253). -/
  | passAtom
  /-- Answer the requester by VN2 code, or CurData by 0x109. -/
  | reply (code : Nat)
  /-- Wait: 0 snoop answers, 1 CmpAck, 2 WbData or OfferData, 3 MData, 4 a controller's Cmp, 5 DRAM tokens. -/
  | await (what : Nat)
  deriving DecidableEq, Repr

/-- A running home transaction (R235): its request, the acts still to do, the snoop answers still owed as (core, code), the
newest data collected and whether it is newer than the home copy, whether the holder forwarded, the state its answer gave,
whether the data is to carry poison (R258), whether this is the recall of a victim line for the request (R233), the holder
that forwards (R265), whether CmpAck has come before its turn, and when the present wait began (R258, R278). -/
structure Txn where
  req : Instr
  plan : List Act
  owed : List (Nat × Nat)
  data : Option LineData
  fresh : Bool
  forwarded : Bool
  answer : L2St
  poison : Bool
  recalls : Bool
  holder : Option Nat
  acked : Bool
  since : Nat
  deriving DecidableEq, Repr

/-- A place in a line's queue (R239): the requester's node, tag (none for a WrLine) and generation, the request once it has
arrived, whether it was withdrawn and waits for its grant, and the station whose order credit it holds (R282). -/
structure Queued where
  node : Nat
  tag : Option Nat
  gen : BitVec 2
  req : Option Instr
  waitGrant : Bool
  via : Option Nat
  deriving DecidableEq, Repr

/-- A token on the order channel (R282): the posting station, WL, the requester's node, tag and generation, the line. -/
structure Token where
  station : Nat
  wl : Bool
  node : Nat
  tag : Nat
  gen : BitVec 2
  line : Nat
  deriving DecidableEq, Repr

/-- One slice and its home (Chapters 07, 08, 10). -/
structure Slice where
  /-- SLICE_CTL without CLR_ERR, 8 bits, Table 7-6; reset 0 before the section (R200). -/
  ctl : BitVec 8
  /-- The slice LFSR, 16 bits, R200; reset 0x0001 before the section. -/
  lfsr : BitVec 16
  /-- SLICE_LFSR.SEED, 16 bits, Table 7-7; reset 0x0001 before the section. -/
  seed : BitVec 16
  /-- SLICE_ERR.UE_COUNT, 32 bits, Table 7-8; reset 0. -/
  ue : Nat
  /-- SLICE_ERR.CE_COUNT, 32 bits, Table 7-8; reset 0. -/
  ce : Nat
  /-- The lines, 4,096 sets of 16 ways, Table 7-1; reset empty. -/
  lines : Table SLine
  /-- The 64 prefetch trackers, R210; reset empty. -/
  trackers : Table Tracker
  /-- HOME_CNT0.RECALLS, 32 bits, Table 8-6; reset 0. -/
  recalls : Nat
  /-- HOME_CNT0.ORDERED, 32 bits, Table 8-6; reset 0. -/
  ordered : Nat
  /-- HOME_CNT1.SNOOP_TIMEOUTS, 32 bits, Table 8-7; reset 0. -/
  snoopTimeouts : Nat
  /-- HOME_CNT1.STALE, 32 bits, Table 8-7; reset 0. -/
  stale : Nat
  /-- SLICE_REMAP0–3 (V, SET, WAY), R307; reset 0. -/
  remap : Table Word
  /-- FLIP_MASK of the slice, 64 bits, R308; reset 0. -/
  flipLo : Word
  /-- FLIP_CTL of the slice: MASK_HI 8 bits, R308; reset 0. -/
  flipHi : BitVec 8
  /-- FLIP_CTL.WINDOW 3 bits, R308; reset 0. -/
  flipWin : BitVec 3
  /-- FLIP_CTL.ARMED 1 bit, R308; reset 0. -/
  armed : Bool
  /-- The Anvil line buffers, at most 16, R252; reset empty. -/
  anvil : List (Nat × LineData)
  deriving DecidableEq, Repr

/-- The 64-bit result channel of an engine (R33–R36): STATUS, SEQ, VALUE and the count of accepted commands. -/
structure Chan where
  status : BitVec 4
  seq : BitVec 28
  value : BitVec 32
  count : BitVec 28
  deriving DecidableEq, Repr

/-- A running scrub pass (R304). -/
structure Scrub where
  next : Nat
  stop : Nat
  repair : Bool
  gap : Nat
  examined : Nat
  due : Nat
  deriving DecidableEq, Repr

/-- One stack controller (Tables 10-3 to 10-8). -/
structure Mc where
  /-- MC_ERR.UE, 28 bits saturating; reset 0. -/
  ue : Nat
  /-- MC_ERR.CE, 28 bits saturating; reset 0. -/
  ce : Nat
  /-- MC_SYMBOLS, 36 bits, Table 10-4; reset 0. -/
  symbols : BitVec 36
  /-- SCRUB_BASE, 64 bits; reset 0. -/
  scrubBase : Word
  /-- SCRUB_LEN, 64 bits; reset 0. -/
  scrubLen : Word
  /-- SCRUB_CMD.GAP_NS 16 bits, Table 10-5; reset 0. -/
  gap : BitVec 16
  /-- SCRUB_CMD.MODE 2 bits, Table 10-5; reset 0. -/
  mode : BitVec 2
  /-- SCRUB_RESULT, 64 bits, Table 10-6; reset NONE. -/
  res : Chan
  /-- SCRUB_COUNTS class-1 count; reset 0. -/
  cnt1 : Nat
  /-- SCRUB_COUNTS class-3 count; reset 0. -/
  cnt3 : Nat
  /-- SCRUB_POISON class-2 count; reset 0. -/
  cnt2 : Nat
  /-- SCRUB_POISON written count; reset 0. -/
  cntP : Nat
  /-- SCRUB_FIRST, 64 bits; reset 0. -/
  first : Word
  /-- SCRUB_LAST, 64 bits; reset 0. -/
  last : Word
  /-- SCRUB_WORST, 64 bits; reset 0. -/
  worst : Word
  /-- The running pass, R304; reset none. -/
  pass : Option Scrub
  /-- REMAP0–15, Table 10-7; reset 0. -/
  remap : Table Word
  /-- Remap copies asked for, the first in progress: entry, row, next line of the row, R306; reset empty. -/
  copying : List (Nat × Nat × Nat)
  /-- FLIP_MASK, 64 bits; reset 0. -/
  flipLo : Word
  /-- FLIP_CTL.MASK_HI, 8 bits; reset 0. -/
  flipHi : BitVec 8
  /-- FLIP_CTL.WINDOW, 3 bits; reset 0. -/
  flipWin : BitVec 3
  /-- FLIP_CTL.ARMED, 1 bit; reset 0. -/
  armed : Bool
  /-- The last "memory corrected" message: line and time, R299; reset none. -/
  lastCorr : Option (Nat × Nat)
  /-- The write queue: lines whose MWrGo has been given and whose data is awaited, R294; reset empty. -/
  queue : List Nat
  /-- Key slots by EID, 1,024 of 256 bits, R309; reset zero. -/
  keys : Table (BitVec 256)
  /-- The controller's copy of the enclave range table (EID, base, length), R309; reset empty. -/
  ranges : List (Nat × Nat × Nat)
  /-- The stack is in self-refresh, R500; reset false. -/
  selfRefresh : Bool
  /-- The 64 consecutive layer-1 grants after which a scrub step is granted, R304; reset 0. -/
  grants : Nat
  deriving DecidableEq, Repr

/-- A tag of an initiator (R274–R276): its generation, the request it carries while in use, when it was sent, whether it
waits for a reissue, whether it stays reserved after a timeout, and what its reserved buffer then holds of a grant of
ownership: the forwarded data, or that Go has come. -/
structure TagInfo where
  gen : BitVec 2
  req : Option Instr
  since : Nat
  retry : Bool
  reserved : Bool
  lateData : Option LineData
  lateGo : Bool
  deriving DecidableEq, Repr

/-- One fabric block (R286): MESH_ERR and RING_ERR. -/
structure FabBlock where
  /-- MESH_ERR.UE, 32 bits, Table 9-10; reset 0. -/
  meshUe : Nat
  /-- MESH_ERR.CE, 32 bits, Table 9-10; reset 0. -/
  meshCe : Nat
  /-- RING_ERR.CRC_FAIL, 32 bits, Table 9-11; reset 0. -/
  crcFail : Nat
  /-- RING_ERR.FEC_CORRECTED, 32 bits, Table 9-11; reset 0. -/
  fec : Nat
  deriving DecidableEq, Repr

/-- One ordered ring pair (R279–R281). -/
structure Pair where
  /-- Next SEQ to send, 7 bits, Table 9-7; reset 0. -/
  seq : BitVec 7
  /-- Last SEQ received in order, 7 bits, Table 9-7; reset 0x7F, so that the first frame is SEQ 0. -/
  got : BitVec 7
  /-- Frames not acknowledged with the message each carries, at most 64, R280; reset empty. -/
  unacked : List (BitVec 7 × BitVec 592 × Instr)
  /-- An acknowledgement is owed, R280; reset false. -/
  owesAck : Bool
  /-- REPLAYS, 32 bits saturating, Table 9-12; reset 0. -/
  replays : Nat
  /-- REMOVED, 8 bits, Table 9-12; reset 0. -/
  removed : Nat
  /-- Channels in use toward the destination (ACTIVE), Table 9-12; from ROUTES. -/
  active : List Nat
  /-- The times of CRC failures by channel within 1 ms, R281; reset none. -/
  fails : Table (List Nat)
  /-- The next channel in turn, for the spread of frames over the pair's channels, R279; reset 0. -/
  turn : Nat
  /-- Channels removed since the last full reset, R281; reset none. -/
  gone : List Nat
  deriving DecidableEq, Repr

/-- A place where a flit waits, or the node it leaves the fabric at (R262, R271): the input of a compute-mesh router, a
vertical port toward or from the base die, the input of a base-mesh or hub-mesh router, the receive side of a ring pair. -/
inductive Spot where
  | tile (die tile port : Nat)
  | down (die tile : Nat)
  | up (die tile : Nat)
  | base (die router port : Nat)
  | hub (router port : Nat)
  | ring (src dst : Nat)
  | node (n : Nat)
  deriving DecidableEq, Repr

/-- A flit inside the fabric (R262, R271, R272): its message, the places of its path that are left with the channel class of
each (true: inbound), the one where it waits first, and the grants at its output that passed it over. -/
structure Flight where
  msg : Instr
  path : List (Spot × Bool)
  passed : Nat
  deriving DecidableEq, Repr

/-- The arbiter of a router output, named by the place it feeds (R272): the virtual network and, for each virtual network
and channel class, the input port it served last. -/
structure Arbiter where
  out : Spot
  vn : Nat
  ports : Table Nat
  deriving DecidableEq, Repr

/-- One statistics record (Table 9-13). -/
structure Stat where
  /-- STAT_CTL.FREEZE, 1 bit, Table 9-14; reset 0. -/
  freeze : Bool
  /-- RD_BYTES, 64 bits; reset 0. -/
  rdBytes : Word
  /-- WR_BYTES, 64 bits; reset 0. -/
  wrBytes : Word
  /-- REQUESTS, 64 bits; reset 0. -/
  requests : Word
  /-- TIMEOUTS, 64 bits; reset 0. -/
  timeouts : Word
  /-- LATE, 64 bits; reset 0. -/
  late : Word
  /-- RETRIES, 64 bits; reset 0. -/
  retries : Word
  /-- HIST0–15, 64 bits each; reset 0. -/
  hist : Table Word
  deriving DecidableEq, Repr

/-- The order channel and the homes' order records (R238–R240, R282, R283). -/
structure Order where
  /-- Tokens posted and not granted, by station, R240; reset none. -/
  posted : Table (List Token)
  /-- The cyclic turn: the station to be served next, R240; reset 0. -/
  turn : Nat
  /-- Requests that arrived before their grant, R239; reset none. -/
  early : List Instr
  /-- Stations that stopped ordered admission, R283; reset none. -/
  lost : List Nat
  /-- Order entries in use by 4 × station + home's base die, R282; reset 0. -/
  used : Table Nat
  /-- The frame of the last grant on the order waveguide, 96 bytes, R283; reset 0. -/
  frame : BitVec 768
  deriving DecidableEq, Repr

/-- The data hierarchy between cores and memory: homes, fabric, controllers. -/
structure Hier where
  /-- Slices by 96n + s, Chapters 07 and 08. -/
  slices : Table Slice
  /-- Directory entries (line, state) by slice × 2^15 + set × 16 + way, R231; reset none. -/
  dirs : Table (Nat × Dir)
  /-- Running home transactions by line, R235; reset none. -/
  txns : Table Txn
  /-- The queue of each line, R235, R239; reset empty. -/
  queues : Table (List Queued)
  /-- Line writes that homes have under way to controllers, by line, R294; reset none. -/
  wq : Table LineData
  /-- The order channel, R240; reset empty. -/
  order : Order
  /-- Stack controllers by k, Chapter 10. -/
  mcs : Table Mc
  /-- DRAM: stack-located bytes in canonical form, R289; reset nothing listed. -/
  dram : List Host.Cell
  /-- By stack-located line: the difference of the stored check bytes from the right ones, R295; reset none. -/
  chk : Table (BitVec 64)
  /-- Tags by node × 256 + tag, R274; reset none in use, GEN 0. -/
  tags : Table TagInfo
  /-- WrLines in flight as (node, line, time sent), R277; reset none. -/
  wrLines : List (Nat × Nat × Nat)
  /-- Lines blocked for WrLine after a timeout, R277; reset none. -/
  wrBlocked : List (Nat × Nat)
  /-- Fabric blocks by die (0 hub, 1–4 base, 5–16 compute), R286. -/
  fab : Table FabBlock
  /-- Ring pairs by 5 × source + destination, R279. -/
  pairs : Table Pair
  /-- Statistics records: cores by number, hub record r at 1,024 + r, R286. -/
  stats : Table Stat
  /-- Lines that a drain of a core reported lost, as (core, line), R24, R439; reset none. -/
  lost : List (Nat × Nat)
  /-- Layer-1 requests of homes without their last answer, as (line, code of Table 10-1, time sent), R274; reset none. -/
  layer1 : List (Nat × Nat × Nat)
  /-- Lines whose layer-1 request timed out and whose answer is still to come, R275; reset none. -/
  l1Late : List Nat
  /-- Snoops given up under R258 whose answer is still to come, as (core, line); reset none. -/
  lateSnoops : List (Nat × Nat)
  /-- Flits inside the fabric, R271; reset none. -/
  flights : List Flight
  /-- Arbiters of router outputs that have served a flit, R272; reset none. -/
  arbs : List Arbiter
  deriving DecidableEq, Repr

/-- A tenant entry of the router (Table 11-4). -/
structure Tenant where
  /-- TE_CTL.EN, 1 bit; TENANT_DEFAULTS. -/
  en : Bool
  /-- TE_CTL.QUIESCED, 1 bit; reset 0. -/
  quiesced : Bool
  /-- TE_CTL.QUIESCING, 1 bit; reset 0. -/
  quiescing : Bool
  /-- TE_CTL.LOST, 1 bit; reset 0. -/
  lost : Bool
  /-- TE_CTL.CLASS, 3 bits; TENANT_DEFAULTS. -/
  cls : BitVec 3
  /-- TE_CTL.DOORBELL, 10 bits; reset 0. -/
  doorbell : BitVec 10
  /-- TE_TARGET0, 64 bits; reset 0. -/
  target0 : Word
  /-- TE_TARGET1, 64 bits; reset 0. -/
  target1 : Word
  deriving DecidableEq, Repr

/-- A running quiesce (R331): the tenant, its phase (1 drain, 2 discard, 3 scrub), the engines that still owe a notice, the
Cmps still awaited, the work items ended with ABORTED, and the time of Block. -/
structure Quiesce where
  tid : BitVec 12
  phase : Nat
  owing : List Nat
  aborted : Nat
  since : Nat
  deriving DecidableEq, Repr

/-- A post on its way to memory (R320): tenant, vector, line of the WrPart, and the tag it uses. -/
structure Post where
  tid : BitVec 12
  vector : BitVec 9
  line : Nat
  tag : Nat
  deriving DecidableEq, Repr

/-- The interrupt router (Table 11-3). -/
structure Router where
  /-- PIT_BASE, 64 bits ([51:21] BASE, [0] EN); TENANT_DEFAULTS. -/
  pitBase : Word
  /-- QUIESCE_CMD.TID, 12 bits; reset 0. -/
  qtid : BitVec 12
  /-- QUIESCE_RESULT, 64 bits; reset NONE. -/
  qres : Chan
  /-- RSTAT_DIRECT, 64 bits wrapping; reset 0. -/
  direct : Word
  /-- RSTAT_POSTED, 64 bits wrapping; reset 0. -/
  posted : Word
  /-- RSTAT_RETURNED, 64 bits wrapping; reset 0. -/
  returned : Word
  /-- RSTAT_DISCARDED, 64 bits wrapping; reset 0. -/
  discarded : Word
  /-- PEND_SUMMARY0–63, 4,096 bits as the tenants whose bit is 1; reset none. -/
  summary : List Nat
  /-- Tenant entries, 4,096, Table 11-4. -/
  tenants : Table Tenant
  /-- The resident TID last learned of each core, 12 bits, R312; reset 0. -/
  resident : Table (BitVec 12)
  /-- Posts whose Cmp is awaited, R320; reset none. -/
  posts : List Post
  /-- The running quiesce, R331; reset none. -/
  quiesce : Option Quiesce
  /-- Residency updates of TSWITCH that wait for posts: core and TID, R322; reset none. -/
  switching : List (Nat × BitVec 12)
  /-- Tenants under an epoch pause, R453; reset none. -/
  paused : List (BitVec 12)
  /-- Messages held for a paused tenant, R453; reset none. -/
  held : List (BitVec 12 × BitVec 9)
  deriving DecidableEq, Repr

/-- The QoS block and the governor (Table 11-6, R327, R328). -/
structure Qos where
  /-- GOV_CTL.RUN, 1 bit; QOS section. -/
  run : Bool
  /-- GOV_STATUS.INTERVALS, 64 bits wrapping; reset 0. -/
  intervals : Word
  /-- RATE[d][q] in MB/s, 32 bits, by 8d + q; reset DRAM_MAX. -/
  rate : Table Nat
  /-- QUOTA[d][q] in 256 lines, 9 bits, by 8d + q; reset QUOTA_MAX. -/
  quota : Table Nat
  /-- TSTAT bytes, 64 bits wrapping, by 4t + d; reset 0. -/
  tstat : Table Word
  /-- Token bucket levels in thousandths of a byte with the time of the last fill, by 8d + q, R327; reset full. -/
  bucket : Table (Nat × Nat)
  /-- USED bytes of the interval, by 8d + q; reset 0. -/
  used : Table Nat
  /-- STARVED of the interval, by 8d + q; reset none. -/
  starved : List Nat
  /-- DECLINED of the interval, by 8d + q; reset none. -/
  declined : List Nat
  /-- OCC of the interval in lines, by 8d + q; reset 0. -/
  occ : Table Nat
  /-- Lines whose metered MRd waits for tokens, R327; reset none. -/
  waiting : List Nat
  deriving DecidableEq, Repr

/-- The states of an EID (Table 12-1). -/
inductive EncState where
  | free | build | ready | evicted | broken
  deriving DecidableEq, Repr

/-- The run state of an entry (R339). -/
inductive EntryRun where
  | idle | running (core : Nat) | interrupted
  deriving DecidableEq, Repr

/-- An entry-table entry (R339). -/
structure Entry where
  gate : BitVec 16
  target : Word
  frame : Word
  save : Nat
  run : EntryRun
  deriving DecidableEq, Repr

/-- One enclave (R334, R335, R339, R346). -/
structure Enclave where
  /-- STATE, 3 bits, Table 12-1; reset FREE. -/
  st : EncState
  /-- Ranges (base, length), at most 8, R335; reset none. -/
  ranges : List (Nat × Nat)
  /-- The entry table, 16 entries, R339; reset empty. -/
  entries : Table Entry
  /-- The measurement, 48 bytes, R346; reset 0. -/
  meas : BitVec 384
  deriving DecidableEq, Repr

/-- A running Warden request that waits for acknowledgements (R338): install or remove, the EID, the ranges, the step it
has reached, the fresh key, whether the Warden has restarted since, so that the block ends it alone (R469), and whether a
CREATE is being removed again because it lost a stack (R467). -/
structure WardenRun where
  install : Bool
  eid : Nat
  ranges : List (Nat × Nat)
  step : Nat
  key : BitVec 256
  orphan : Bool
  gone : Bool
  deriving DecidableEq, Repr

/-- The security block and the Warden (Table 12-4). -/
structure Sec where
  /-- WARDEN_CMD.REQ, 46 bits as a line number; reset 0. -/
  req : Nat
  /-- WARDEN_RESULT, 64 bits; reset NONE. -/
  res : Chan
  /-- WARDEN_STATUS.RESTARTS, 32 bits; reset 0. -/
  restarts : BitVec 32
  /-- WARDEN_STATUS.UP, 1 bit; reset 0. -/
  up : Bool
  /-- Enclaves by EID, 1,024, R334; reset FREE. -/
  enclaves : Table Enclave
  /-- The request in its install or remove steps, R338; reset none. -/
  running : Option WardenRun
  /-- The range copies of the base-die agents (EID, base, length), R337; reset empty. -/
  baseRanges : List (Nat × Nat × Nat)
  /-- The range copies of the compute-die agents (EID, base, length), R336; reset empty. -/
  coreRanges : List (Nat × Nat × Nat)
  /-- The entropy source passes its health tests, R344; reset true. -/
  healthy : Bool
  /-- Requests made of the DRBG, R344; reset 0. -/
  drbg : Nat
  /-- Times the DRBG has been reseeded, R344; reset 0. -/
  reseeds : Nat
  /-- Held cuts: domain, command code, arrival time, R349; reset none. -/
  cuts : List (Nat × Nat × Nat)
  deriving DecidableEq, Repr

/-- The states of a switched domain (R412). -/
inductive DomSt where
  | run | closing | retained | off | waking
  deriving DecidableEq, Repr

/-- One switched domain (Table 16-5). -/
structure Dom where
  /-- DOM_CTL.STATE, 3 bits; reset OFF (R43). -/
  st : DomSt
  /-- DOM_CTL.REQ pending or applied when a transition ends, 2 bits, R423; 4 for a POWER_ON row that waits; reset 0. -/
  req : Nat
  /-- DOM_CTL.AUTO_WAKE, 1 bit; POWER_GROUPS. -/
  auto : Bool
  /-- The state the running close leads to: true for RETAINED, R413; reset false. -/
  retain : Bool
  /-- The door is shut but its unit has only agreed to sleep or been drained by a row, R420, R500; reset false. -/
  stopped : Bool
  /-- The unit is held in reset, R496; reset true. -/
  inReset : Bool
  /-- The running drain is that of a RESET_ASSERT row, R23, R496; reset false. -/
  resetting : Bool
  /-- Arrivals held at the door, R416; reset none. -/
  held : List Instr
  /-- When a running drain began, R24; reset none. -/
  drainSince : Option Nat
  /-- Stale sets of a bank group as (slice, set), R414; reset none. -/
  stale : List (Nat × Nat)
  /-- Actions of Sequencer rows, by ACTION, that wait for the one under way, R57; reset none. -/
  todo : List Nat
  deriving DecidableEq, Repr

/-- One rail (Tables 16-5 and 16-8). -/
structure Rail where
  /-- ABANDONED, 1 bit; reset 0. -/
  abandoned : Bool
  /-- FAILS, 16 bits saturating; reset 0. -/
  fails : Nat
  /-- SET_MV, 16 bits; reset 0. -/
  setMv : Nat
  /-- NOW_MV, 16 bits; reset 0. -/
  nowMv : Nat
  /-- The current last read, mA, R430; reset 0. -/
  milliamps : Nat
  /-- The times of failed governor requests within 1 s, R444; reset none. -/
  failTimes : List Nat
  deriving DecidableEq, Repr

/-- A voltage request at an AVSBus master (R426): rail, voltage, whether it writes its second time, whether it polls VDone,
when its limit passes, and whether a Sequencer row under AVS_ACK waits for it. -/
structure AvsReq where
  rail : Nat
  mv : Nat
  second : Bool
  polling : Bool
  deadline : Nat
  row : Bool
  deriving DecidableEq, Repr

/-- A sleep request (R420): the row's power group, who has agreed, who has yet to answer. -/
structure Sleep where
  group : Nat
  agreed : List Nat
  owing : List Nat
  deriving DecidableEq, Repr

/-- Power, thermal and time state (Table 16-5). -/
structure Power where
  /-- Domains 0–711, Table 16-1. -/
  doms : Table Dom
  /-- PKG_STATE.STATE, 3 bits; reset Off (R497). -/
  pkg : Nat
  /-- PKG_STATE.TRANSIT, 1 bit; reset 0. -/
  transit : Bool
  /-- PKG_CMD.TARGET, 2 bits; reset 0. -/
  target : BitVec 2
  /-- PKG_RESULT, 64 bits; reset NONE. -/
  res : Chan
  /-- WAKE_TIME, 64 bits; reset all ones. -/
  wakeTime : Word
  /-- WAKE_CAUSE.SMBUS, 1 bit; reset 0. -/
  wakeSmbus : Bool
  /-- WAKE_CAUSE.TIMER, 1 bit; reset 0. -/
  wakeTimer : Bool
  /-- The timer has fired since WAKE_TIME was last written or the package last woke, R419; reset false. -/
  timerFired : Bool
  /-- POWER_CEIL, 16 bits; reset CEILING_W, 2,400 with no image (R497). -/
  ceil : Nat
  /-- POWER_NOW, 16 bits; reset 0. -/
  now : Nat
  /-- Rails 0–24, Table 16-8 (VAON, 24, is never set). -/
  rails : Table Rail
  /-- The die level of each compute die, 4 bits, R429; reset 0. -/
  dieLevel : Table Nat
  /-- The thermal result of each compute die, R430; reset 0. -/
  thermal : Table Nat
  /-- Compute dies whose sensor is above L + 10, R429; reset none. -/
  critical : List Nat
  /-- The hottest base-die sensor beneath each compute die, °C, R429; reset 25. -/
  sensor : Table Nat
  /-- Governor intervals since each die's last report, by class × 16 + index, R430; reset 0. -/
  age : Table Nat
  /-- The guest's power grant, mW, R431; reset 0. -/
  grant : Nat
  /-- The power used outside rail VG in the last interval, W, R431; reset 0. -/
  outside : Nat
  /-- AVSBus masters 0–3: the requests in order, R426; reset none. -/
  avs : Table (List AvsReq)
  /-- The sleep request of the running ALL_AGREE row, R420; reset none. -/
  sleep : Option Sleep
  /-- Members that agreed in the running table, R420; reset none. -/
  asleep : List Nat
  /-- A wake source fired after COMMIT of an entry table, R422; reset false. -/
  wakeAfter : Bool
  deriving DecidableEq, Repr

/-- The time base (R432) and its reference clocks (R443). -/
structure TimeBase where
  /-- Time in units of 10^-10 ns: TIME is its quotient by 10^10; reset 0. -/
  sub : Nat
  /-- TB_SLEW.PPB, signed, 32 bits; reset 0. -/
  slew : BitVec 32
  deriving DecidableEq, Repr

/-- A request waiting in the Sequencer (R63): purpose, parameter, and who asked (0 device, 1 PKG_CMD, 2 Brixmen). -/
structure SeqReq where
  purpose : Nat
  param : Nat
  by_ : Nat
  deriving DecidableEq, Repr

/-- A frame of the Sequencer's call stack (R59): the table index, the row, the parameter. -/
structure SeqFrame where
  table : Nat
  row : Nat
  param : Nat
  deriving DecidableEq, Repr

/-- The running table (R57–R64): the request, the call stack (innermost first), the completed rows that carry HAS_UNDO with
the table and parameter of each, rows run, whether the run has committed, whether the row's action has been performed and
its wait is evaluated, the start of the wait, what the target has answered (0 nothing yet, 1 acknowledged, 2 error), the
unwinding list, the first failed undo row, and the failure it ends with. -/
structure SeqRun where
  req : SeqReq
  stack : List SeqFrame
  undo : List (Nat × Nat × Nat)
  rows : Nat
  committed : Bool
  waiting : Bool
  since : Nat
  outcome : Nat
  unwinding : Option (List (Nat × Nat × Nat))
  badUndo : Option Nat
  failure : Nat
  failRow : Nat
  deriving DecidableEq, Repr

/-- The loader and the Sequencer (R42, R63, Tables 2-12 to 2-15). -/
structure Seq where
  /-- The staging buffer, 4 MiB, R42; reset cleared. -/
  staging : Image
  /-- A transfer is open, R65; reset false. -/
  open_ : Bool
  /-- The pending slot, 4 MiB, R42; reset empty. -/
  pending : Option Image
  /-- The active slot, 4 MiB, R42; reset empty. -/
  active : Option Image
  /-- The image the active one replaced, until its bring-up ends, R68; reset none. -/
  earlier : Option Image
  /-- A newly active image is being brought up, R68; reset false. -/
  bringing : Bool
  /-- IMAGE_STATUS.LAST_FAILED, 1 bit, Table 2-12; reset 0. -/
  lastFailed : Bool
  /-- The earlier image is active again and its FULL_RESET is still to run, R68; reset false. -/
  restoring : Bool
  /-- LOAD_RESULT, 64 bits, Table 2-13; reset NONE. -/
  load : Chan
  /-- SEQ_RESULT, 64 bits, Table 2-15; reset NONE. -/
  res : Chan
  /-- The image is loaded: RWL fields are locked, R44; reset false. -/
  loaded : Bool
  /-- Sections delivered by LOAD_SECTION, with a CACHE section delivered to one die only as 64 + its die (16 more for a compute
  die), R60, R200; reset none. -/
  sections : List Nat
  /-- Writes of WRITE_REG rows that a door answered RETRY: the core of a tile target, the address or offset, the value, when
  it was first sent, and whether its row's wait ends it, R60; reset none. -/
  writes : List (Option Nat × Nat × Word × Nat × Bool)
  /-- The head places: FULL_RESET, FAILOVER and EXIT_HOLD requests in grant order, R63; reset empty. -/
  head : List SeqReq
  /-- The queue, up to SEQ_QUEUE_LIMIT requests, R63; reset empty. -/
  queue : List SeqReq
  /-- The running table, R57; reset none. -/
  run : Option SeqRun
  /-- The fused operator key hash, 384 bits, R48; DESIGN CHOICE blank. -/
  operator : Option (BitVec 384)
  /-- The fused rollback floor, 32 bits, R49; DESIGN CHOICE 0. -/
  floor : BitVec 32
  deriving DecidableEq, Repr

/-- A control message held at a junction (R20): the node whose junction it is, the message, and the writes it waits for as
(tag or 256 for a WrLine, line). -/
structure Junction where
  node : Nat
  msg : Instr
  waits : List (Nat × Nat)
  deriving DecidableEq, Repr

/-- The partner-violation registers of a port block, the firewall or the mirror engine (Table 13-10). -/
structure Pv where
  /-- PV_CTL.TOTAL, 32 bits saturating; reset 0. -/
  total : Nat
  /-- PV_CTL.NEXT, 4 bits; reset 0. -/
  next : Nat
  /-- PV_LOG0–15, two words each; reset 0. -/
  log : Table (Word × Word)
  deriving DecidableEq, Repr

/-- MT_STATE.STATE (Table 15-1): FREE, SYNCING, PROTECTED, UNPROTECTED, STANDBY, HALTED, BROKEN. -/
inductive SlotSt where
  | free | syncing | guarded | unguarded | standby | halted | broken
  deriving DecidableEq, Repr

/-- A held frame (R405, R406): its number, epoch, port and link, bytes, and how far it has come: 0 its copy is in the log,
1 sent as OUTPUT (at a standby: stored), 2 INTENT sent, 3 granted and handed to its port, 4 transmitted. -/
structure Held where
  num : Nat
  epoch : Nat
  port : Nat
  link : Nat
  bytes : List Byte
  st : Nat
  deriving DecidableEq, Repr

/-- Where the boundary of a slot stands (Table 15-3): none, PAUSE with the units that still owe a paused notice, waiting
for the router's record, SEAL with the base dies that still owe a sealed notice, abandoned until the retry (R397). -/
inductive Phase where
  | none
  | pause (owing : List Nat) (since : Nat)
  | record (since : Nat)
  | seal (owing : List Nat)
  | retry (at_ : Nat)
  deriving DecidableEq, Repr

/-- One mirror slot (R393, Table 15-1) with the progress of its epochs. -/
structure Slot where
  /-- MT_STATE.STATE, 4 bits; reset FREE. -/
  st : SlotSt
  /-- MT_STATE.TID, 12 bits; reset 0. -/
  tid : BitVec 12
  /-- ROLE 0, active, R393. -/
  active : Bool
  /-- Ranges as (BASE, LEN, TRACK_BASE), Table 15-2. -/
  ranges : List (Nat × Nat × Nat)
  /-- EPOCH_MS, Table 15-2. -/
  epochMs : Nat
  /-- STAGE_BASE, STAGE_LEN (the partner's at an active), STATE_BASE, Table 15-2. -/
  stageBase : Nat
  stageLen : Nat
  stateBase : Nat
  /-- MT_STATE.COMMITTED, 32 bits; reset 0. -/
  committed : Nat
  /-- MT_BYTES.COUNT, 64 bits wrapping; reset 0. -/
  bytes : Word
  /-- MT_THROTTLE.LEVEL, 4 bits; reset 0. -/
  level : Nat
  /-- The open epoch k, R396. -/
  epoch : Nat
  /-- The time of boundary k − 1, R396. -/
  since : Nat
  /-- The boundary under way, R396. -/
  phase : Phase
  /-- Base dies whose homes already mark in the map of the next epoch, R396. -/
  sealed : List Nat
  /-- Units that take part in the running pause, R397. -/
  pausedUnits : List Nat
  /-- Base dies whose homes have walked their directories for the running seal, R396. -/
  walked : List Nat
  /-- Domains woken for the running pause, which close again after RESUME, R455. -/
  woken : List Nat
  /-- The epoch being captured, with the next (range, line) to look at; none when END has been sent, R399. -/
  capture : Option (Nat × Nat × Nat)
  /-- The capture reads every line: a FULL epoch, R402. -/
  full : Bool
  /-- A FULL epoch has been ended and no protected epoch has begun, R402. -/
  catchUp : Bool
  /-- The last epoch whose END has been sent, and the last one acknowledged, R401. -/
  ended : Nat
  acked : Nat
  /-- State records written at the boundary and not yet sent, R399. -/
  records : List (List Byte)
  /-- Captured lines with their location words that wait to fill a LINES frame, R399. -/
  batch : List (List Byte)
  /-- STATE, LINES and OUTPUT frames sent (active) or received (standby) for the epoch, R401. -/
  nState : Nat
  nLines : Nat
  nOut : Nat
  /-- Lines marked in the epoch, and in the governor's interval; held frame bytes in each, R396, R408. -/
  marked : Nat
  /-- Lines already marked in the next epoch's map by base dies that have sealed, R396. -/
  markedNext : Nat
  heldBytes : Nat
  volume : Nat
  /-- Held frames, R405; the number of the next; the last number transmitted. -/
  held : List Held
  nextHeld : Nat
  /-- Bytes of the epoch staged so far, R401. -/
  staged : Nat
  /-- Standby: the payloads of each epoch received and not yet applied, as (epoch, TYPE, payload), R401. -/
  stage : List (Nat × Nat × List Byte)
  /-- Standby: END of the epoch has come and its ACK waits for the staging writes; the epoch it was, R401. -/
  endAt : Option Nat
  /-- Standby: the last epoch applied, R401. -/
  applied : Nat
  /-- Standby: the partner is lost, and the tenant is taken over once the last committed epoch is applied, R407; reset false. -/
  taking : Bool
  /-- Standby: the queue-pair contexts of the last epoch applied, R407. -/
  contexts : List (List Byte)
  /-- The tenant is stopped (R460) or blocked (R459): no boundary of its own starts. -/
  stopped : Bool
  /-- The final boundary of a quiesce: 0 not asked for, 1 asked for, 2 begun, R459. -/
  final : Nat
  deriving DecidableEq, Repr

/-- The mirror engine (Table 15-1) and the pairing state in VAON (R391). -/
structure Mirror where
  /-- PAIR_STATUS.STATE, 4 bits: 0 UNPAIRED, 1 JOINING, 2 PAIRED, 3 BROKEN; reset 0 at a cold reset. -/
  st : Nat
  /-- PAIR_STATUS.PARTNER, 12 bits; VAON, reset 0. -/
  partner : BitVec 12
  /-- PAIR_STATUS.DID, 12 bits; VAON, reset 0. -/
  did : BitVec 12
  /-- PAIR_STATUS.GEN, 16 bits; VAON, reset 0. -/
  gen : BitVec 16
  /-- BROKEN was entered through partner loss, R463; reset false. -/
  byLoss : Bool
  /-- The member has left its pair before a full reset and sends no Contrail frame, R461; reset false. -/
  left : Bool
  /-- When the leave began, R461; reset none. -/
  leaving : Option Nat
  /-- PAIR_CFG.VIOL_LIMIT, 16 bits; reset 64. -/
  limit : BitVec 16
  /-- LOG_BASE.BASE, [51:21]; reset 0. -/
  logBase : Word
  /-- LOG_LEN, 64 bits; reset 0. -/
  logLen : Word
  /-- MT_CMD.OP and ADDR, as the register holds them; reset 0. -/
  cmd : Word
  /-- MT_RESULT, 64 bits; reset NONE. -/
  res : Chan
  /-- The ADD or REARM whose JOIN is awaited: slot, time of the JOIN, R394. -/
  joining : Option (Nat × Nat × Bool)
  /-- SKIPPED, 64 bits wrapping; reset 0. -/
  skipped : Word
  /-- PV_CTL and PV_LOG; reset 0. -/
  pv : Pv
  /-- Slots 0–127; reset FREE. -/
  slots : Table Slot
  /-- The partner's MAC address by mirror port, R392; reset none. -/
  mac : Table (BitVec 48)
  /-- The time of the last valid Contrail frame by mirror port, R407; reset none. -/
  heard : Table Nat
  /-- SEQ of the next frame sent, 64 bits from 1, R403. -/
  seq : Nat
  /-- SEQ expected next, R404. -/
  expect : Nat
  /-- Frames that arrived above a gap, held until it is filled, as (SEQ, TYPE, frame), R404. -/
  ahead : List (Nat × Nat × CFrame)
  /-- When the gap appeared, R404. -/
  gapSince : Option Nat
  /-- The send log: SEQ, epoch, TID and bytes of every frame kept for resending; SEQ 0 for a record that is not itself a
  frame, epoch 0 for a frame that belongs to none, R404. -/
  log : List (Nat × Nat × BitVec 12 × List Byte)
  /-- Where the next record of the send log goes, R404. -/
  logNext : Nat
  /-- Times of violations within 1 ms, R409. -/
  viols : List Nat
  /-- The mirror port the next frame leaves on, R403. -/
  turn : Nat
  deriving DecidableEq, Repr

/-- An accepted Brixmen request (Table 19-1): OP, STAMP, MTAG, payload, source address and port. -/
structure MReq where
  op : Nat
  stamp : Nat
  mtag : Word
  payload : List Byte
  ip : BitVec 32
  port : Nat
  /-- When its register access was first issued, while a door answers RETRY, R269. -/
  since : Option Nat
  deriving DecidableEq, Repr

/-- Why an engine reads memory: what is done with the bytes once they have come. -/
inductive ReadFor where
  /-- A create record, for engine e, R356. -/
  | create (e : Nat)
  /-- A descriptor of a queue, R359. -/
  | desc (qpn : Nat) (send : Bool)
  /-- A descriptor that is only completed, with a status: ABORTED or FLUSHED. -/
  | flush (qpn : Nat) (send : Bool) (status : Nat)
  /-- The bytes of one frame or packet of the running send descriptor, R359. -/
  | gather (qpn : Nat)
  /-- The bytes of one response packet of an inbound RDMA READ, R364. -/
  | respond (qpn : Nat)
  /-- A job descriptor of a compressor lane, R384. -/
  | job (l : Nat)
  /-- An ADAPT slot map of a lane, R388. -/
  | map (l : Nat)
  /-- The block or slot that a lane handles next, R388. -/
  | block (l : Nat)
  /-- A guest read by its DTL tag, R377. -/
  | guest (tag : BitVec 12)
  /-- The record of an ADD of the mirror engine, R394. -/
  | mtRecord
  /-- The capture of line i of range r of slot m in epoch k, R399. -/
  | capture (m k r i : Nat)
  /-- The posted-interrupt record of a tenant for its router record, R453. -/
  | routerRecord (tid : BitVec 12)
  /-- READ_REG of an address in DRAM, R477. -/
  | steward (r : MReq)
  /-- The request record at WARDEN_CMD.REQ, R345. -/
  | wardenReq
  /-- CREATE's list of ranges for an enclave, R345. -/
  | wardenRanges (e : Nat)
  /-- The page that ADD_PAGE copies to an address, R345. -/
  | wardenPage (e dst : Nat) (measure : Bool)
  /-- The report data of ATTEST, whose report goes to an address, R345. -/
  | wardenReport (e dst : Nat)
  deriving DecidableEq, Repr

/-- A read under way: the chunks still to be read as (physical address, length), the bytes that have come, and the tag of
the RdCur now out (none while the node has no free tag). -/
structure Reader where
  node : Nat
  tid : BitVec 12
  cls : BitVec 3
  why : ReadFor
  todo : List (Nat × Nat)
  got : List Byte
  tag : Option Nat
  deriving DecidableEq, Repr

/-- What is done once a set of writes has been acknowledged. -/
inductive WriteFor where
  /-- A received frame's buffer: the completion record to write then, R360. -/
  | buffer (qpn : Nat) (rec : BitVec 256) (int : Bool)
  /-- Bytes of an RC packet: 0 of an inbound message, 1 the last and 2 earlier ones of an awaited READ, R364. -/
  | rcData (qpn what : Nat)
  /-- A completion record: whether an interrupt follows, R360. -/
  | completion (qpn : Nat) (int : Bool)
  /-- A write of a compressor job, R388. -/
  | job (l : Nat)
  /-- A guest write by its DTL tag, R377. -/
  | guest (tag : BitVec 12)
  /-- The send-log copy of a held frame: the descriptor of qpn counts as sent then, R405. -/
  | heldCopy (qpn : Nat)
  /-- Staging writes of an epoch at a standby, R401. -/
  | stage (m epoch : Nat)
  /-- Writes of an epoch's lines to their ranges and state area, R401. -/
  | apply (m epoch : Nat)
  /-- A Brixmen WRITE_REG into DRAM, R477. -/
  | mgmt
  /-- The writes of a Warden command, R345; the value its result takes. -/
  | warden (value : Nat)
  /-- A flush of a line of a range that the security block installs or removes, R338. -/
  | rangeFlush
  /-- The zeros over the ranges of an enclave, R338. -/
  | rangeZero
  /-- The zeros over a quiesced tenant's record, R331. -/
  | quiesce (tid : BitVec 12)
  deriving DecidableEq, Repr

/-- Writes of one node that are not yet acknowledged: those sent, as (tag or 256 for a WrLine, line), the stretches (physical
address, bytes) still to be sent, and the first failure as (code, physical address). -/
structure Writer where
  node : Nat
  tid : BitVec 12
  cls : BitVec 3
  waits : List (Nat × Nat)
  todo : List (Nat × List Byte)
  why : WriteFor
  failed : Option (Nat × Nat)
  deriving DecidableEq, Repr

/-- A frame that waits for its link (R368): the queue pair it belongs to (none for a mirror frame), the link, the bytes
without FCS, whether it ends its descriptor, and whether the descriptor asked for a time stamp. -/
structure TxFrame where
  qpn : Option Nat
  link : Nat
  cls : BitVec 3
  bytes : List Byte
  final : Bool
  stamp : Bool
  deriving DecidableEq, Repr

/-- One Ethernet port (Table 13-2). -/
structure Port where
  /-- PORT_STATUS.READY, 2 bits; reset 0. -/
  ready : BitVec 2
  /-- PORT_STATUS.PARTNER, 2 bits; reset 0. -/
  partner : BitVec 2
  /-- TX_FRAMES, 64 bits wrapping; reset 0. -/
  tx : Word
  /-- RX_FRAMES, 64 bits wrapping; reset 0. -/
  rx : Word
  /-- RX_BAD, 64 bits wrapping; reset 0. -/
  bad : Word
  /-- RX_NOMATCH, 64 bits wrapping; reset 0. -/
  noMatch : Word
  /-- RX_NOBUF, 64 bits wrapping; reset 0. -/
  noBuf : Word
  /-- RX_BLOCKED, 64 bits wrapping; reset 0. -/
  blocked : Word
  /-- RX_PAUSE, 64 bits wrapping; reset 0. -/
  pause : Word
  /-- PTP_ADJ.TX_ADJ, 32 bits signed; reset 0. -/
  txAdj : BitVec 32
  /-- PTP_ADJ.RX_ADJ, 32 bits signed; reset 0. -/
  rxAdj : BitVec 32
  /-- PV_CTL and PV_LOG; reset 0. -/
  pv : Pv
  /-- STEER0–4095, 64 bits; reset 0. -/
  steer : Table Word
  /-- STEER_QP0–4095, 64 bits; reset 0. -/
  steerQp : Table Word
  /-- Frames wholly read that wait for the transmit scheduler, R368; reset none. -/
  txq : List TxFrame
  /-- Deficits of the round robin by 8 × link + class, and the class served next by link, R368; reset 0. -/
  deficit : Table Nat
  turn : Table Nat
  /-- ETH_CEIL buckets by 8 × link + class: level in bits and time of the last fill, R368; reset full. -/
  ceil : Table (Nat × Nat)
  /-- Frames received for paused tenants, as (queue pair, bytes, time stamp), R398; reset none. -/
  rxWait : List (Nat × List Byte × Nat)
  deriving DecidableEq, Repr

/-- A descriptor (Table 13-5). -/
structure Desc where
  op : Nat
  flags : Byte
  mss : Nat
  len : Nat
  addr : Word
  cookie : Word
  raddr : Word
  rkey : BitVec 32
  imm : BitVec 32
  l3 : Nat
  l4 : Nat
  vlan : BitVec 16
  reserved : Bool
  deriving DecidableEq, Repr

/-- The descriptor a send queue works on: its index, how many payload bytes have been read, and whether every frame of it
has been handed on, so that it waits for the wire or the peer. -/
structure Work where
  desc : Desc
  index : Nat
  off : Nat
  hdr : List Byte
  handed : Bool
  deriving DecidableEq, Repr

/-- An RC packet that the peer has not acknowledged (R364): PSN, bytes, and the descriptor index it completes. -/
structure RcPkt where
  psn : BitVec 24
  bytes : List Byte
  done : Option (Nat × Desc)
  deriving DecidableEq, Repr

/-- An inbound RC message (R364): whether it is a WRITE, the bytes taken, where the next go as an intermediate address,
what is left, and the RECV descriptor it fills. `window` is 4 for a SEND, and 5 while only the descriptor has been read. -/
structure RcIn where
  write : Bool
  taken : Nat
  addr : Word
  left : Nat
  desc : Option (Nat × Desc)
  window : Nat
  deriving DecidableEq, Repr

/-- The reliable-connection part of a queue pair (R364, R365). -/
structure Rc where
  /-- Next PSN to send, 24 bits; INIT_PSN. -/
  psn : BitVec 24
  /-- Next PSN expected, 24 bits; INIT_PSN. -/
  expect : BitVec 24
  /-- Message sequence number of the responder, 24 bits; 0. -/
  msn : BitVec 24
  /-- Packets not acknowledged, oldest first. -/
  unacked : List RcPkt
  /-- Retries left, and when the acknowledge timer started. -/
  retries : Nat
  since : Option Nat
  /-- The inbound message in progress. -/
  inbound : Option RcIn
  /-- The inbound READ being answered: address, bytes left, PSN of the next response, first. -/
  reading : Option (Word × Nat × BitVec 24 × Bool)
  /-- The READ this side waits for: descriptor index, descriptor, bytes taken. -/
  readWait : Option (Nat × Desc × Nat)
  /-- Send rate in Mb/s, when a CNP was last sent, and when one last came, R365. -/
  rate : Nat
  cnpSent : Option Nat
  cnpSeen : Option Nat
  /-- Violations of the queue pair, R381. -/
  viols : Nat
  /-- An earlier write of the inbound message, of the awaited READ, ended in an error (R22). -/
  inBad : Bool
  readBad : Bool
  deriving DecidableEq, Repr

/-- A queue pair (R355, R356): its create record's fields and its state. -/
structure Qp where
  isRc : Bool
  port : Nat
  link : Nat
  tid : BitVec 12
  vector : BitVec 9
  rxTs : Bool
  rxCsum : Bool
  sq : Nat
  rq : Nat
  cq : Nat
  sqLog : Nat
  rqLog : Nat
  cqLog : Nat
  violLimit : Nat
  destQpn : BitVec 24
  ackTimeout : Nat
  retry : Nat
  vlan : BitVec 16
  peerIp : List Byte
  localIp : List Byte
  peerMac : List Byte
  windows : List (Word × Word × Word)
  /-- Head and tail of the send and receive queues, producer and head of the completion queue, 16 bits each, R358;
  the producer keeps one more bit, for PHASE. -/
  sHead : Nat
  sTail : Nat
  rHead : Nat
  rTail : Nat
  prod : Nat
  cHead : Nat
  /-- Send and receive state: 0 running, 1 halted, 2 error; the completion queue is halted, R356. -/
  sSt : Nat
  rSt : Nat
  cqHalt : Bool
  /-- The descriptor a halted queue stopped at, as read, R366. -/
  sDesc : Option Desc
  rDesc : Option Desc
  /-- The send descriptor being worked on. -/
  work : Option Work
  /-- Frames or RC packets taken and not yet handled, with the time stamp of each. -/
  rxq : List (List Byte × Nat)
  /-- The RECV descriptor at the head, read and not yet started, with its index: a frame or message will start it (R359). -/
  rxHeld : Option (Nat × Desc)
  /-- The tenant is blocked (R369) or paused (R398). -/
  blocked : Bool
  paused : Bool
  /-- DESTROY waits for started descriptors, R356. -/
  dying : Bool
  /-- Descriptors ended as ABORTED by DESTROY or a quiesce. -/
  aborted : Nat
  rc : Option Rc
  deriving DecidableEq, Repr

/-- A queue engine (Table 13-3). -/
structure QEng where
  /-- QP_CMD as its RW fields stand, 64 bits; reset 0. -/
  cmd : Word
  /-- QP_CMD_ADDR.ADDR, [51:6]; reset 0. -/
  addr : Word
  /-- QP_RESULT, 64 bits; reset NONE. -/
  res : Chan
  /-- The running command's OP and QPN, R356; reset none. -/
  running : Option (Nat × Nat)
  deriving DecidableEq, Repr

/-- A guest request that waits for its stream's bucket (R377): type, header and payload. -/
structure GuestReq where
  ty : Nat
  hdr : DtlHdr
  data : Line
  deriving DecidableEq, Repr

/-- One stream of the firewall (Table 13-9). -/
structure Stream where
  /-- STREAM_CFG: EN, TYPES and TID, 64 bits; reset 0. -/
  cfg : Word
  /-- STREAM_RATE.RATE, 32 bits; reset 0. -/
  rate : Nat
  /-- STREAM_RATE.BURST, 32 bits; reset 64. -/
  burst : Nat
  /-- The bucket: level in thousandths of a byte and time of the last fill, R377; reset full. -/
  bucket : Nat × Nat
  /-- The stream is fenced alone by a block notice, R379; reset false. -/
  blocked : Bool
  /-- A pause holds the stream's requests, R398; reset false. -/
  paused : Bool
  deriving DecidableEq, Repr

/-- The guest port and its firewall (Table 13-9). -/
structure Guest where
  /-- FW_CTL.FENCE, 1 bit; reset 1. -/
  fence : Bool
  /-- FW_CTL.AUTO, 1 bit; reset 0. -/
  auto_ : Bool
  /-- FW_CTL.FENCED, 1 bit; reset 0. -/
  fenced : Bool
  /-- FW_CTL.LINK_UP, 1 bit; reset 0. -/
  up : Bool
  /-- FW_CTL.MODULES, 4 bits; reset 0. -/
  modules : BitVec 4
  /-- GUEST_PRESENT, known once the LINK_TRAIN row has ended, R51; reset false. -/
  present : Bool
  /-- FW_VLIMIT.LIMIT, 16 bits; reset 64. -/
  limit : BitVec 16
  /-- PV_CTL and PV_LOG; reset 0. -/
  pv : Pv
  /-- WIN_BASE, WIN_LIMIT, WIN_STREAMS of windows 0–15; reset 0. -/
  wins : Table (Word × Word × Word)
  /-- Streams 0–15. -/
  streams : Table Stream
  /-- Guest requests forwarded or waiting, by tag with their stream, R375; reset none. -/
  open_ : List (BitVec 12 × Nat)
  /-- Guest requests that wait for their bucket, R377; reset none. -/
  waiting : List GuestReq
  /-- Host accesses under way: DTL tag and the requester's header with the address, R376; reset none. -/
  host : List (BitVec 12 × Hdr × Nat × Bool)
  /-- Answers that host accesses of cores have had and their instructions have not yet taken: node, address, code, line. -/
  answers : List (Nat × Nat × Nat × Line)
  /-- Writes of each stream that are not yet acknowledged, as (stream, tag or 256, line, time sent), R378; reset none. -/
  writes : List (Nat × Nat × Nat × Nat)
  /-- Times of violations within 1 ms, R381; reset none. -/
  viols : List Nat
  /-- When the last BUDGET came, R431; reset none. -/
  budgetAt : Option Nat
  /-- When SLEEP_REQ was sent and is unanswered, R420; reset none. -/
  sleepAt : Option Nat
  deriving DecidableEq, Repr

/-- A compressor job that has started (R384, R388): its descriptor's fields, the block handled next, the bytes read for it,
the bitmap and map so far, and what its descriptor's checks found. -/
structure Job where
  compress : Bool
  mode : Nat
  tid : BitVec 12
  vector : BitVec 9
  int : Bool
  count : Nat
  inBase : Nat
  outBase : Nat
  slotLen : Nat
  mapBase : Nat
  bitmap : Nat
  index : Nat
  ready : Option (List Byte)
  map : List Nat
  marks : List Nat
  written : Nat
  used : Nat
  aborting : Bool
  ending : Bool
  failure : Option (Nat × Nat)
  deriving DecidableEq, Repr

/-- One compressor lane (Table 14-1). -/
structure Lane where
  /-- JOB_CMD.DESC, [51:6]; reset 0. -/
  desc : Word
  /-- LANE_CTL.HALTED, 1 bit; reset 0. -/
  halted : Bool
  /-- JOB_RESULT, 64 bits; reset NONE. -/
  res : Chan
  /-- JOB_COUNTS.WRITTEN, 32 bits; reset 0. -/
  written : Nat
  /-- JOB_COUNTS.MARKED, 32 bits; reset 0. -/
  marked : Nat
  /-- JOB_DETAIL.FIRST_MARKED, 16 bits; reset 0. -/
  first : Nat
  /-- JOB_DETAIL.SLOT_USED, 32 bits; reset 0. -/
  used : Nat
  /-- A GO has been accepted and its job has not ended, R382; reset false. -/
  busy : Bool
  /-- The job that passed its checks, R384; reset none. -/
  job : Option Job
  /-- Tenants under a block notice, R390; reset none. -/
  blocked : List (BitVec 12)
  /-- Tenants under a pause notice, R398; reset none. -/
  paused : List (BitVec 12)
  /-- The job in `job` waits for RESUME before its first block, R398; reset false. -/
  held : Bool
  deriving DecidableEq, Repr

/-- A persistent-log slot that holds a record (R451): the record, the order of its writing, whether it is acknowledged. -/
structure PSlot where
  data : BitVec 128
  order : Nat
  acked : Bool
  deriving DecidableEq, Repr

/-- The fault collector (Table 17-7). -/
structure Collector where
  /-- FC_CTL.NOTIFY_EN, 1 bit; reset 0. -/
  notifyEn : Bool
  /-- FC_CTL.NOTIFY_CORE, 10 bits; reset 0. -/
  notifyCore : BitVec 10
  /-- FC_STATUS.OVERWRITTEN, 32 bits saturating; reset 0. -/
  overwritten : Nat
  /-- FC_STATUS.LAST_SEQ, 32 bits; reset 0. -/
  last : Nat
  /-- FC_ACKED.SEQ, 32 bits; reset 0. -/
  acked : Nat
  /-- RESET_CMD.CLASS, 3 bits; reset 0. -/
  rclass : BitVec 3
  /-- RESET_CMD.INDEX, 10 bits; reset 0. -/
  rindex : BitVec 10
  /-- RESET_RESULT, 64 bits, held in VAON; reset NONE at a cold reset. -/
  rres : Chan
  /-- FC_LOG0–1023, 128 bits each; reset 0. -/
  log : Table (BitVec 128)
  /-- The SEQ of the newest record of each (source, class), by 16 × source + class, R437; reset none. -/
  newest : Table Nat
  /-- The highest SEQ stored with LEVEL 1 or above, R438; reset 0. -/
  noted : Nat
  /-- Cores that hold FAULT_NOTIFY at H, each with the SEQ of the level-3 record, R438; reset none. -/
  stops : List (Nat × Nat)
  /-- Fences whose unit has finished the On fencing column, R441; reset none. -/
  done : List Nat
  /-- Base dies lost, R445; reset none. -/
  lost : List Nat
  /-- Base dies toward whose station each base die or the hub has lost its ring pair, as (from, to), R445; reset none. -/
  pairs : List (Nat × Nat)
  /-- The persistent log, 256 slots, nonvolatile, R450; DESIGN CHOICE empty. -/
  plog : Table PSlot
  /-- Records written to the persistent log so far, R451. -/
  pnext : Nat
  /-- PLOG_STATUS.PLOG_DROPPED, 32 bits saturating; reset 0. -/
  dropped : Nat
  /-- A level-5 record has placed FULL_RESET in the queue and is its cause record, R447; reset false. -/
  caused : Bool
  deriving DecidableEq, Repr

/-- The Steward's Brixmen side and the management port (R471–R479). -/
structure Mgmt where
  /-- The management key once SET_MKEY has replaced the fused one, 384 bits, nonvolatile, R472; DESIGN CHOICE none. -/
  key : Option (BitVec 384)
  /-- MGMT_NET.IPV4, 32 bits; straps. -/
  ip : BitVec 32
  /-- MGMT_NET.PREFIX, 6 bits; reset 16. -/
  plen : Nat
  /-- MGMT_RESULT, 64 bits, VAON; reset NONE. -/
  res : Chan
  /-- MGMT_VIOL.AUTH, 16 bits saturating; reset 0. -/
  auth : Nat
  /-- MGMT_VIOL.STALE, 16 bits saturating; reset 0. -/
  stale : Nat
  /-- MGMT_VIOL.RATE, 16 bits saturating; reset 0. -/
  rate : Nat
  /-- MGMT_VIOL.MALFORMED, 16 bits saturating; reset 0. -/
  malformed : Nat
  /-- Other frames dropped by the management port, R372; reset 0. -/
  dropped : Nat
  /-- Accepted requests whose operation has not yet been performed, R473; reset none. -/
  accepted : List MReq
  /-- The running command, R475; reset none. -/
  running : Option MReq
  /-- Accepted requests within the last 2 s: time and TAG, R473; reset none. -/
  recent : List (Nat × BitVec 384)
  /-- Times of refusals answered within 1 s, R473; reset none. -/
  refused : List Nat
  /-- The event destination: address and port, VAON, R479; reset port 0. -/
  dest : BitVec 32 × Nat
  /-- ESEQ of the last event, VAON, R479; reset 0. -/
  eseq : Nat
  /-- ESEQ of the last event that was sent, VAON, Table 19-4; reset 0. -/
  eseqSent : Nat
  /-- Times of events sent within 1 s, R479; reset none. -/
  events : List Nat
  deriving DecidableEq, Repr

/-- What the package puts out. -/
inductive Output where
  /-- A frame leaves the PCS of a link, without its FCS. -/
  | frame (port link : Nat) (bytes : List Byte)
  /-- A frame leaves the management port (R372). -/
  | mgmt (bytes : List Byte)
  /-- A Brixmen datagram leaves the management port for an IPv4 address and UDP port (R471). -/
  | datagram (ip : BitVec 32) (port : Nat) (bytes : List Byte)
  /-- The SMBus target answers a Read Byte, or NACKs it. -/
  | smbus (answer : Option Byte)
  /-- An AVSBus master writes a voltage: master, rail select, mV. -/
  | avsWrite (master sel mv : Nat)
  /-- An AVSBus master reads Status: master, rail select. -/
  | avsStatus (master sel : Nat)
  /-- A DTL message goes to the guest die. -/
  | dtl (bytes : List Byte)
  /-- Bits leave TDO. -/
  | tdo (bits : List Bool)
  deriving DecidableEq, Repr

/-- What lies on the board's side: supplies, resets, straps, clocks and JTAG (Chapter 20). -/
structure Board where
  /-- VAON stands in its range, R482; reset true. -/
  vaon : Bool
  /-- COLD_RST_N is held low, R488; reset false. -/
  rstLow : Bool
  /-- The package is in cold reset, R488; reset false. -/
  cold : Bool
  /-- The cold reset under way has written its persistent-log record, R488; reset false. -/
  logged : Bool
  /-- When the last cause of the cold reset was released, R488; reset none. -/
  released : Option Nat
  /-- A thermal trip is in force: THERMTRIP_N is low, R492; reset false. -/
  trip : Bool
  /-- The hottest sensor of each base die, °C, as last reported, R492; DESIGN CHOICE 25. -/
  temps : Table Nat
  /-- MGMT_ID as sampled, 16 bits, R486; DESIGN CHOICE 0x0100. -/
  mgmtId : BitVec 16
  /-- SMB_ADDR as sampled, 3 bits, R486; DESIGN CHOICE 0. -/
  smbAddr : BitVec 3
  /-- TESTMODE read 1 at the sample, R487; reset false. -/
  testMode : Bool
  /-- Clocked islands whose reference is lost, R443; reset none. -/
  clocks : List Nat
  /-- The JTAG instruction: 0 BYPASS, 1 IDCODE, 2 SAMPLE/PRELOAD, 3 EXTEST, 4 CLAMP, 5 HIGHZ, R489; reset IDCODE. -/
  jtag : Nat
  /-- The boundary register: a bit for each of the 41 CMOS and SMBus lands of Table 20-3, R489; DESIGN CHOICE 0. -/
  boundary : BitVec 41
  /-- The lands are driven by EXTEST or CLAMP (some), or floated by HIGHZ (none); reset not driven. -/
  driven : Option (Option (BitVec 41))
  deriving DecidableEq, Repr


/-- The state of the block. -/
structure State where
  /-- The queue of commands that wait, first in, first out; the model's own; reset empty. -/
  pending : List Instr
  /-- Messages and notices sent and not yet arrived, oldest first; the model's own; reset empty. -/
  inflight : List Instr
  /-- The step counter from which free values are drawn; the model's own; DESIGN CHOICE 0. -/
  free : Nat
  /-- The time base, R432. -/
  time : TimeBase
  /-- The cores by global core number, R17. -/
  cores : Table Core
  /-- RESET_ENTRY as the Sequencer or software last wrote it, 64 bits by core, R121; reset 0x1_0000. -/
  resetEntry : Table Word
  /-- Homes, fabric and memory, Chapters 08 to 10. -/
  hier : Hier
  /-- The interrupt router, Table 11-3. -/
  router : Router
  /-- QoS and the governor, Table 11-6. -/
  qos : Qos
  /-- The security block, Table 12-4. -/
  sec : Sec
  /-- Power, Table 16-5. -/
  power : Power
  /-- The loader and the Sequencer, R42–R68. -/
  seq : Seq
  /-- Messages held at junctions, R20; reset none. -/
  junction : List Junction
  /-- VIOLATION.COUNT of each block, 32 bits saturating, by the physical address of its window, R8, R30, R32; reset 0. -/
  viol : Table Nat
  /-- Units under a fence: domain numbers, 1000 + 96n + s for slices, 1400 + n base dies, 1410 + c compute dies, 1430 the
  governor, R439; reset none. -/
  fenced : List Nat
  /-- The mirror engine and the pairing, Chapter 15. -/
  mirror : Mirror
  /-- Ethernet ports P0–P7, Table 13-2. -/
  ports : Table Port
  /-- Queue engines 0 and 1, Table 13-3. -/
  engines : Table QEng
  /-- Queue pairs by QPN, R355; reset none. -/
  qps : Table Qp
  /-- The guest port, Table 13-9. -/
  guest : Guest
  /-- Compressor lanes 0–3, Table 14-1. -/
  lanes : Table Lane
  /-- Engine reads under way, R249; reset none. -/
  readers : List Reader
  /-- Engine writes not yet acknowledged that something waits for, R20; reset none. -/
  writers : List Writer
  /-- The fault collector, Table 17-7. -/
  fc : Collector
  /-- Brixmen, Chapter 19. -/
  mgmt : Mgmt
  /-- The board's side, Chapter 20. -/
  board : Board
  /-- What the package has put out, oldest first; the model's own; reset empty. -/
  out : List Output
  deriving DecidableEq, Repr

/-- A domain before anything has powered it: OFF (R43). -/
def Dom.initial : Dom := ⟨.off, 0, false, false, false, true, false, [], none, [], []⟩

/-- The uncore of a base die and the hub logic outside VAON, which are no switched domains but which rows power, reset and
drain (R496), run once an image is active. DESIGN CHOICE (log 54): until a row powers them off. -/
def Dom.running : Dom := { Dom.initial with st := .run, inReset := false }

/-- A result channel before any command: NONE (R33). -/
def Chan.none : Chan := ⟨0, 0, 0, 0⟩

/-- A slice at reset, before the CACHE section (R200). -/
def Slice.initial : Slice :=
  ⟨0, 1, 1, 0, 0, [], [], 0, 0, 0, 0, [], 0, 0, 0, false, []⟩

/-- A stack controller at reset. -/
def Mc.initial : Mc :=
  ⟨0, 0, 0, 0, 0, 0, 0, Chan.none, 0, 0, 0, 0, 0, 0, 0, none, [], [], 0, 0, 0, false, none, [], [], [], false, 0⟩

/-- A tag that is free. -/
def TagInfo.initial : TagInfo := ⟨0, none, 0, false, false, none, false⟩

/-- A fabric block at reset. -/
def FabBlock.initial : FabBlock := ⟨0, 0, 0, 0⟩

/-- A ring pair at reset. -/
def Pair.initial : Pair := ⟨0, 127, [], false, 0, 0, [], [], 0, []⟩

/-- A statistics record at reset. -/
def Stat.initial : Stat := ⟨false, 0, 0, 0, 0, 0, 0, []⟩

/-- The reset value of SW: PL 0b10, EX 1 (Table 4-2). -/
def swReset : Word := 0x22

/-- A core as it is after a core reset, before its domain runs (Table 3-1, R121, R169). -/
def Core.initial : Core :=
  { a := 0, x := 0, y := 0, l := 0, p := 0x10000, f := 0, va := 0, sw := swReset, sr := [], win := [], ovf := 0,
    run := .off, skipBp := false, stepDue := false, storeErr := none, ueDue := false, idx := 0, proven := false, seen := [],
    due := [], cur := [], errs := [], devSince := none, pfWait := [], sb := [], fmap := [], haze := [], pred := ⟨[], [], 0⟩, itlb := [], dtlb := [],
    l2tlb := [], wcache := [], tlbMark := false, bcasts := [], l1i := [], l1d := [], l2 := [], evict := [], lfsrI := 1,
    lfsrC := 1, lfsr2 := 1, reservoir := [], badI := [], lostD := [], lost2 := [], trackers := [], cleaned := [], kept := [],
    txns := [], stall := .none, doorbell := false, ipi := false, notify := false, notifyH := false, heldDel := [],
    enterAt := 0, entry := 0, owners := [], forced := false, before := .off }

/-- A tenant entry before TENANT_DEFAULTS is loaded. -/
def Tenant.initial : Tenant := ⟨false, false, false, false, 0, 0, 0, 0⟩

/-- An EID after reset: FREE (R334). -/
def Enclave.initial : Enclave := ⟨.free, [], [], 0⟩

/-- A rail at reset (Table 16-5). -/
def Rail.initial : Rail := ⟨false, 0, 0, 0, 0, []⟩

def Hier.initial : Hier :=
  { slices := [], dirs := [], txns := [], queues := [], wq := [], order := ⟨[], 0, [], [], [], 0⟩, mcs := [], dram := [],
    chk := [], tags := [], wrLines := [], wrBlocked := [], fab := [], pairs := [], stats := [], lost := [],
    layer1 := [], l1Late := [], lateSnoops := [], flights := [], arbs := [] }

def Router.initial : Router :=
  { pitBase := 0, qtid := 0, qres := Chan.none, direct := 0, posted := 0, returned := 0, discarded := 0, summary := [],
    tenants := [], resident := [], posts := [], quiesce := none, switching := [], paused := [], held := [] }

def Qos.initial : Qos :=
  { run := false, intervals := 0, rate := [], quota := [], tstat := [], bucket := [], used := [], starved := [],
    declined := [], occ := [], waiting := [] }

def Sec.initial : Sec :=
  { req := 0, res := Chan.none, restarts := 0, up := false, enclaves := [], running := none, baseRanges := [],
    coreRanges := [], healthy := true, drbg := 0, reseeds := 0, cuts := [] }

/-- The power block with no image: Off, POWER_CEIL 2,400 (R497). -/
def Power.initial : Power :=
  { doms := [], pkg := 3, transit := false, target := 0, res := Chan.none, wakeTime := BitVec.allOnes 64,
    wakeSmbus := false, wakeTimer := false, timerFired := false, ceil := 2400, now := 0, rails := [],
    dieLevel := [], thermal := [], critical := [], sensor := [], age := [], grant := 0, outside := 0, avs := [],
    sleep := none, asleep := [], wakeAfter := false }

def Seq.initial : Seq :=
  { staging := ⟨0, []⟩, open_ := false, pending := none, active := none, earlier := none, bringing := false, restoring := false,
    lastFailed := false, load := Chan.none, res := Chan.none, loaded := false, sections := [], writes := [],
    head := [], queue := [], run := none, operator := none, floor := 0 }

def Pv.initial : Pv := ⟨0, 0, []⟩

/-- A mirror slot that is FREE. -/
def Slot.initial : Slot :=
  { st := .free, tid := 0, active := false, ranges := [], epochMs := 0, stageBase := 0, stageLen := 0, stateBase := 0,
    committed := 0, bytes := 0, level := 0, epoch := 0, since := 0, phase := .none, sealed := [], walked := [], pausedUnits := [], woken := [],
    capture := none, full := false, catchUp := false, ended := 0, acked := 0, records := [], batch := [], nState := 0, nLines := 0,
    nOut := 0, marked := 0, markedNext := 0, heldBytes := 0, volume := 0, held := [], nextHeld := 1, staged := 0, stage := [],
    endAt := none, applied := 0, taking := false, contexts := [], stopped := false, final := 0 }

def Mirror.initial : Mirror :=
  { st := 0, partner := 0, did := 0, gen := 0, byLoss := false, left := false, leaving := none, limit := 64, logBase := 0,
    logLen := 0, cmd := 0, res := Chan.none, joining := none, skipped := 0, pv := Pv.initial, slots := [], mac := [],
    heard := [], seq := 1, expect := 1, ahead := [], gapSince := none, log := [], logNext := 0, viols := [],
    turn := 0 }

def Port.initial : Port :=
  { ready := 0, partner := 0, tx := 0, rx := 0, bad := 0, noMatch := 0, noBuf := 0, blocked := 0, pause := 0, txAdj := 0,
    rxAdj := 0, pv := Pv.initial, steer := [], steerQp := [], txq := [], deficit := [], turn := [], ceil := [],
    rxWait := [] }

def QEng.initial : QEng := ⟨0, 0, Chan.none, none⟩

/-- A stream at reset: disabled, BURST 64, its bucket full (Table 13-9). -/
def Stream.initial : Stream := ⟨0, 0, 64, (64000, 0), false, false⟩

/-- The guest port at reset: FENCE 1 (R379). -/
def Guest.initial : Guest :=
  { fence := true, auto_ := false, fenced := false, up := false, modules := 0, present := false, limit := 64,
    pv := Pv.initial, wins := [], streams := [], open_ := [], waiting := [], host := [], answers := [], writes := [],
    viols := [], budgetAt := none, sleepAt := none }

def Lane.initial : Lane := ⟨0, false, Chan.none, 0, 0, 0, 0, false, none, [], [], false⟩

def Collector.initial : Collector :=
  { notifyEn := false, notifyCore := 0, overwritten := 0, last := 0, acked := 0, rclass := 0, rindex := 0,
    rres := Chan.none, log := [], newest := [], noted := 0, stops := [], done := [], lost := [], pairs := [], plog := [],
    pnext := 0, dropped := 0, caused := false }

/-- Brixmen after a cold reset: the address that MGMT_ID gives (R471). -/
def Mgmt.initial (mgmtId : BitVec 16) : Mgmt :=
  { key := none, ip := 0xA9FE0000 ||| mgmtId.setWidth 32, plen := 16, res := Chan.none, auth := 0, stale := 0, rate := 0,
    malformed := 0, dropped := 0, accepted := [], running := none, recent := [], refused := [], dest := (0, 0), eseq := 0,
    eseqSent := 0, events := [] }

/-- The board as a model starts: VAON up, nothing asserted, MGMT_ID 0x0100. -/
def Board.initial : Board :=
  { vaon := true, rstLow := false, cold := false, logged := false, released := none, trip := false, temps := [],
    mgmtId := 0x0100, smbAddr := 0, testMode := false, clocks := [], jtag := 1, boundary := 0, driven := none }

/-- The machine right after a cold reset: the state of R43 and R497. -/
def State.reset : State :=
  { pending := [], inflight := [], free := 0, time := ⟨0, 0⟩, cores := [], resetEntry := [], hier := Hier.initial,
    router := Router.initial, qos := Qos.initial, sec := Sec.initial, power := Power.initial, seq := Seq.initial,
    junction := [], viol := [], fenced := [], mirror := Mirror.initial, ports := [], engines := [], qps := [],
    guest := Guest.initial, lanes := [], readers := [], writers := [], fc := Collector.initial,
    mgmt := Mgmt.initial 0x0100, board := Board.initial, out := [] }

end Sys2Proof.Machine
end

