-- ==== Sys2Proof/Machine/Table.lean ====
section
/-! DEFINITION. Sparse tables kept in rising order of key, and small list helpers. -/

namespace Sys2Proof.Machine

/-- The entry of key `k`, if there is one. -/
def tfind? {α : Type} : Table α → Nat → Option α
  | [], _ => none
  | (j, v) :: t, k => if j = k then some v else tfind? t k

/-- The entry of key `k`, or `d`. -/
def tget {α : Type} (t : Table α) (k : Nat) (d : α) : α := (tfind? t k).getD d

/-- Place `v` at key `k`. -/
def tput {α : Type} : Table α → Nat → α → Table α
  | [], k, v => [(k, v)]
  | (j, u) :: t, k, v =>
    if k < j then (k, v) :: (j, u) :: t else if k = j then (k, v) :: t else (j, u) :: tput t k v

/-- Remove the entry of key `k`. -/
def tdel {α : Type} (t : Table α) (k : Nat) : Table α := t.filter fun e => e.1 != k

/-- Change the entry of key `k`, taken as `d` when absent. -/
def tmod {α : Type} (t : Table α) (k : Nat) (d : α) (f : α → α) : Table α := tput t k (f (tget t k d))

/-- Change every entry's value. -/
def tmap {α : Type} (f : α → α) (t : Table α) : Table α := t.map fun e => (e.1, f e.2)

/-- Remove the first element that satisfies `p`, answering it. -/
def takeFirst {α : Type} (p : α → Bool) : List α → Option (α × List α)
  | [] => none
  | a :: l => if p a then some (a, l) else (takeFirst p l).map fun r => (r.1, a :: r.2)

/-- The lowest number below `n` that satisfies `p`. -/
def lowest (p : Nat → Bool) (n : Nat) : Option Nat := (List.range n).find? p

/-- Add to a list without repeats. -/
def insertNew (l : List Nat) (k : Nat) : List Nat := if l.contains k then l else l ++ [k]

/-- Saturating count in `w` bits. -/
def satInc (w n : Nat) : Nat := if n + 1 < 2 ^ w then n + 1 else 2 ^ w - 1

end Sys2Proof.Machine
end

