-- ==== Sys2Proof/WellFormed.lean ====
section
/-! DEFINITION. Which commands name only units, addresses and indices that the part has. A command that does not comes from
no unit of the package, and exec faults on it by name. -/

namespace Sys2Proof

/-- A core number (R17). -/
def coreOk (c : Nat) : Bool := decide (c < 576)
/-- A line number of the 52-bit address space (R26). -/
def lineOk (line : Nat) : Bool := decide (line < 2 ^ 46)
/-- A physical address (R26). -/
def paOk (pa : Nat) : Bool := decide (pa < 2 ^ 52)
/-- A node number (Table 9-1). -/
def nodeOk (node : Nat) : Bool := decide (node < 0x3EF)
/-- A transaction tag (Table 9-2). -/
def tagOk (tag : Nat) : Bool := decide (tag < 256)
/-- A header whose node and tag the part has; 256 stands in the header of a WrLine, which carries no tag (R277). -/
def hdrOk (h : Hdr) : Bool := nodeOk h.node && decide (h.tag ≤ 256)
/-- A stack number (Table 1-1). -/
def stackOk (k : Nat) : Bool := decide (k < 12)
/-- A slice, as 96n + s (R15). -/
def sliceOk (h : Nat) : Bool := decide (h < 384)
/-- A base die. -/
def baseOk (n : Nat) : Bool := decide (n < 4)
/-- What reports to the governor: the hub (class 0), a base die (1) or a stack (3). -/
def reporterOk (cls die : Nat) : Bool :=
  (cls == 0 && die == 0) || (cls == 1 && decide (die < 4)) || (cls == 3 && decide (die < 12))
/-- A base or compute die. -/
def dieOk (compute : Bool) (die : Nat) : Bool := decide (die < if compute then 12 else 4)
/-- A fabric block: 0 hub, 1 to 4 base, 5 to 16 compute (R286). -/
def fabOk (die : Nat) : Bool := decide (die < 17)
/-- A ring station (R282). -/
def stationOk (st : Nat) : Bool := decide (st < 5)
/-- A ring channel (R279). -/
def channelOk (channel : Nat) : Bool := decide (channel < 1024)
/-- A mirror slot (Table 15-1). -/
def slotOk (m : Nat) : Bool := decide (m < 128)
/-- A queue engine (R355). -/
def engineOk (e : Nat) : Bool := decide (e < 2)
/-- A compressor lane. -/
def laneOk (l : Nat) : Bool := decide (l < 4)
/-- An Ethernet port. -/
def portOk (p : Nat) : Bool := decide (p < 8)
/-- A link of a port. -/
def linkOk (link : Nat) : Bool := decide (link < 2)
/-- A queue pair number (R355). -/
def qpnOk (qpn : Nat) : Bool := decide (qpn < 65536)
/-- An AVSBus master, a clocked island or a line-remap entry: four of each. -/
def masterOk (m : Nat) : Bool := decide (m < 4)
/-- A guest stream or a row-remap entry: sixteen of each. -/
def streamOk (n : Nat) : Bool := decide (n < 16)
/-- A switched domain (Table 16-1). -/
def domainOk (d : Nat) : Bool := decide (d < 712)
/-- A switched domain, or what a row of a base die or of the hub reaches beside them: 712 + n the uncore of base die n, 716 the
hub logic outside VAON (R496). -/
def switchOk (d : Nat) : Bool := decide (d < 717)
/-- An engine that takes block and pause notices, by its hub unit number (Table 17-2). -/
def unitOk (u : Nat) : Bool := decide (8 ≤ u) && decide (u ≤ 0x17)
/-- A unit that sends a paused notice: a core, an engine as 1,024 + hub unit, or the router as 2,048. -/
def pausedOk (u : Nat) : Bool := decide (u < 576) || (decide (1024 ≤ u) && unitOk (u - 1024)) || u == 2048
/-- A partner-violation log: ports 0 to 7, firewall 8, mirror engine 9. -/
def pvOk (u : Nat) : Bool := decide (u < 10)
/-- A statistics record: cores by number, hub record r at 1,024 + r (R286). -/
def statOk (r : Nat) : Bool := decide (r < 576) || (decide (1024 ≤ r) && decide (r ≤ 1056))
/-- A unit that can be fenced, by its fence number: domains, slices at 1,000, base dies at 1,400, compute dies at 1,410, the
governor 1,430 (R439). -/
def fenceOk (u : Nat) : Bool := decide (u < 712) || (decide (1000 ≤ u) && decide (u ≤ 1430))
/-- A table purpose (Table 2-7). -/
def purposeOk (p : Nat) : Bool := decide (1 ≤ p) && decide (p < 0x40)

/-- The command names only what the part has. -/
def Instr.wf (i : Instr) : Bool :=
  match i with
  | .rds h line _ _ => hdrOk h && lineOk line
  | .rdx h line _ => hdrOk h && lineOk line
  | .upg h line => hdrOk h && lineOk line
  | .claim h line => hdrOk h && lineOk line
  | .rdcur h line => hdrOk h && lineOk line
  | .wrline h line _ => hdrOk h && lineOk line
  | .wrpart h line _ => hdrOk h && lineOk line
  | .atom h pa _ => hdrOk h && paOk pa
  | .wbreq h line => hdrOk h && lineOk line
  | .offer h line => hdrOk h && lineOk line
  | .drop h line => hdrOk h && lineOk line
  | .cwbreq h line => hdrOk h && lineOk line
  | .cflreq h line => hdrOk h && lineOk line
  | .hazerd h line => hdrOk h && lineOk line
  | .snps req holder line => hdrOk req && coreOk holder && lineOk line
  | .snpx req holder line => hdrOk req && coreOk holder && lineOk line
  | .snpinv req holder line => hdrOk req && coreOk holder && lineOk line
  | .snpcur req holder line => hdrOk req && coreOk holder && lineOk line
  | .snpflush req holder line => hdrOk req && coreOk holder && lineOk line
  | .snpclean req holder line => hdrOk req && coreOk holder && lineOk line
  | .go h line => hdrOk h && lineOk line
  | .cmp h line => hdrOk h && lineOk line
  | .cmpack h line => hdrOk h && lineOk line
  | .wbgo h line => hdrOk h && lineOk line
  | .wbcancel h line => hdrOk h && lineOk line
  | .accept h line => hdrOk h && lineOk line
  | .decline h line => hdrOk h && lineOk line
  | .acceptheld h line => hdrOk h && lineOk line
  | .acki holder line => coreOk holder && lineOk line
  | .acks holder line => coreOk holder && lineOk line
  | .acke holder line => coreOk holder && lineOk line
  | .acko holder line => coreOk holder && lineOk line
  | .notpresent holder line => coreOk holder && lineOk line
  | .hazeno h line => hdrOk h && lineOk line
  | .err h pa _ => hdrOk h && paOk pa
  | .datas h line _ => hdrOk h && lineOk line
  | .datae h line _ => hdrOk h && lineOk line
  | .datam h line _ => hdrOk h && lineOk line
  | .fwds h line _ => hdrOk h && lineOk line
  | .fwdm h line _ => hdrOk h && lineOk line
  | .snpdata holder line _ _ => coreOk holder && lineOk line
  | .wbdata h line _ => hdrOk h && lineOk line
  | .offerdata h line _ => hdrOk h && lineOk line
  | .curdata h line _ => hdrOk h && lineOk line
  | .hazedata h line _ => hdrOk h && lineOk line
  | .atomdata h pa _ _ => hdrOk h && paOk pa
  | .mrd line => lineOk line
  | .mwr line => lineOk line
  | .mmerge line _ => lineOk line
  | .matom req pa _ => hdrOk req && paOk pa
  | .mwrgo line => lineOk line
  | .mwrdata line _ => lineOk line
  | .mdata line _ => lineOk line
  | .faultMessage _ _ _ _ => true
  | .residencyUpdate c _ _ => coreOk c
  | .residencyAnswer c _ _ => coreOk c
  | .routerMessage _ _ => true
  | .interruptDelivery c _ _ => coreOk c
  | .blockNotice engine _ => unitOk engine
  | .drainedNotice engine _ _ => unitOk engine
  | .scrubbedNotice engine _ => unitOk engine
  | .tlbiBroadcastTake c issuer => coreOk c && coreOk issuer
  | .rangeStepAck => true
  | .keyUpdate stack => stackOk stack
  | .gateCheck c _ _ _ => coreOk c
  | .saveAreaAcked c => coreOk c
  | .pauseNoticeCore c _ => coreOk c
  | .pauseNoticeEngine u _ => unitOk u
  | .routerPauseNotice _ => true
  | .routerRecordRequest _ => true
  | .pausedNotice u _ => pausedOk u
  | .sealNotice n _ => baseOk n
  | .sealedNotice n _ => baseOk n
  | .sleepRequest d => domainOk d
  | .sleepAnswer d _ => domainOk d
  | .seqTableRequest purpose _ => purposeOk purpose
  | .fullReset _ => true
  | .mirrorLeave => true
  | .heldFrameCopy qpn => qpnOk qpn
  | .unitDrained d => switchOk d
  | .guestWindowAccess h _ _ => hdrOk h
  | .ringFrameReceive src dst channel _ => stationOk src && stationOk dst && channelOk channel
  | .cacheSectionArrival compute die => dieOk compute die
  | .brixmenRequest _ _ _ => true
  | .add c _ _ _ => coreOk c
  | .sub c _ _ _ => coreOk c
  | .andT c _ _ _ => coreOk c
  | .orT c _ _ _ => coreOk c
  | .xor c _ _ _ => coreOk c
  | .shl c _ _ _ => coreOk c
  | .shr c _ _ _ => coreOk c
  | .sar c _ _ _ => coreOk c
  | .ror c _ _ _ => coreOk c
  | .min c _ _ _ => coreOk c
  | .max c _ _ _ => coreOk c
  | .minu c _ _ _ => coreOk c
  | .maxu c _ _ _ => coreOk c
  | .slt c _ _ _ => coreOk c
  | .sltu c _ _ _ => coreOk c
  | .movs c _ _ _ => coreOk c
  | .clz c _ _ _ => coreOk c
  | .ctz c _ _ _ => coreOk c
  | .popc c _ _ _ => coreOk c
  | .bswap c _ _ _ => coreOk c
  | .mul c _ _ _ => coreOk c
  | .mulh c _ _ _ => coreOk c
  | .mulhu c _ _ _ => coreOk c
  | .div c _ _ _ => coreOk c
  | .divu c _ _ _ => coreOk c
  | .rem c _ _ _ => coreOk c
  | .remu c _ _ _ => coreOk c
  | .aese c _ _ _ => coreOk c
  | .aesel c _ _ _ => coreOk c
  | .aesd c _ _ _ => coreOk c
  | .aesdl c _ _ _ => coreOk c
  | .aessub c _ _ _ => coreOk c
  | .sha256r c _ _ _ => coreOk c
  | .sha256w c _ _ _ => coreOk c
  | .sha512r c _ _ _ => coreOk c
  | .sha512w c _ _ _ => coreOk c
  | .crc32cb c _ _ _ => coreOk c
  | .crc32ch c _ _ _ => coreOk c
  | .crc32cw c _ _ _ => coreOk c
  | .crc32cd c _ _ _ => coreOk c
  | .fadd c _ _ _ => coreOk c
  | .fsub c _ _ _ => coreOk c
  | .fmul c _ _ _ => coreOk c
  | .fdiv c _ _ _ => coreOk c
  | .fsqrt c _ _ _ => coreOk c
  | .fmin c _ _ _ => coreOk c
  | .fmax c _ _ _ => coreOk c
  | .fma c _ _ _ => coreOk c
  | .fcvti c _ _ _ => coreOk c
  | .fcvtf c _ _ _ => coreOk c
  | .flt c _ _ _ => coreOk c
  | .feq c _ _ _ => coreOk c
  | .vadd c _ _ _ _ => coreOk c
  | .vsub c _ _ _ _ => coreOk c
  | .vmul c _ _ _ _ => coreOk c
  | .vand c _ _ _ _ => coreOk c
  | .vor c _ _ _ _ => coreOk c
  | .vxor c _ _ _ _ => coreOk c
  | .vmin c _ _ _ _ => coreOk c
  | .vmax c _ _ _ _ => coreOk c
  | .vminu c _ _ _ _ => coreOk c
  | .vmaxu c _ _ _ _ => coreOk c
  | .vshl c _ _ _ _ => coreOk c
  | .vshr c _ _ _ _ => coreOk c
  | .vsar c _ _ _ _ => coreOk c
  | .vcmpeq c _ _ _ _ => coreOk c
  | .vcmplt c _ _ _ _ => coreOk c
  | .vcmpltu c _ _ _ _ => coreOk c
  | .vfma c _ _ _ _ => coreOk c
  | .vlds c _ _ _ _ => coreOk c
  | .vsts c _ _ _ _ => coreOk c
  | .vbcast c _ _ _ _ => coreOk c
  | .vext c _ _ _ _ => coreOk c
  | .vins c _ _ _ _ => coreOk c
  | .vradd c _ _ _ _ => coreOk c
  | .vrmin c _ _ _ _ => coreOk c
  | .vrmax c _ _ _ _ => coreOk c
  | .afadd c _ _ _ _ _ _ => coreOk c
  | .aswap c _ _ _ _ _ _ => coreOk c
  | .acas c _ _ _ _ _ _ => coreOk c
  | .amin c _ _ _ _ _ _ => coreOk c
  | .amax c _ _ _ _ _ _ => coreOk c
  | .aminu c _ _ _ _ _ _ => coreOk c
  | .amaxu c _ _ _ _ _ _ => coreOk c
  | .aand c _ _ _ _ _ _ => coreOk c
  | .aor c _ _ _ _ _ _ => coreOk c
  | .axor c _ _ _ _ _ _ => coreOk c
  | .li c _ => coreOk c
  | .addi c _ => coreOk c
  | .shi c _ => coreOk c
  | .andi c _ => coreOk c
  | .lix c _ => coreOk c
  | .addx c _ => coreOk c
  | .liy c _ => coreOk c
  | .addy c _ => coreOk c
  | .addf c _ => coreOk c
  | .ori c _ => coreOk c
  | .xori c _ => coreOk c
  | .shifti c _ => coreOk c
  | .mov c _ => coreOk c
  | .ret c _ => coreOk c
  | .ja c _ => coreOk c
  | .calla c _ => coreOk c
  | .ld c _ _ _ => coreOk c
  | .lds c _ _ _ => coreOk c
  | .st c _ _ _ => coreOk c
  | .addMem c _ _ _ => coreOk c
  | .subMem c _ _ _ => coreOk c
  | .andMem c _ _ _ => coreOk c
  | .orMem c _ _ _ => coreOk c
  | .xorMem c _ _ _ => coreOk c
  | .mulMem c _ _ _ => coreOk c
  | .ldx c _ _ _ => coreOk c
  | .stx c _ _ _ => coreOk c
  | .ldy c _ _ _ => coreOk c
  | .sty c _ _ _ => coreOk c
  | .lea c _ _ _ => coreOk c
  | .vld c _ _ _ => coreOk c
  | .vst c _ _ _ => coreOk c
  | .bCond c _ _ _ => coreOk c
  | .jmp c _ => coreOk c
  | .call c _ => coreOk c
  | .mfsr c _ => coreOk c
  | .mtsr c _ => coreOk c
  | .mfsw c _ => coreOk c
  | .mtsw c _ => coreOk c
  | .sync c _ => coreOk c
  | .ifence c _ => coreOk c
  | .fence c _ => coreOk c
  | .trap c _ => coreOk c
  | .svc c _ => coreOk c
  | .hvc c _ => coreOk c
  | .eret c _ => coreOk c
  | .wfi c _ => coreOk c
  | .brk c _ => coreOk c
  | .gate c _ => coreOk c
  | .enter c _ => coreOk c
  | .exit c _ => coreOk c
  | .pflush c _ => coreOk c
  | .pbar c _ => coreOk c
  | .pmrd c _ => coreOk c
  | .pmstop c _ => coreOk c
  | .pmgo c _ => coreOk c
  | .tlbiv c _ => coreOk c
  | .tlbiall c _ => coreOk c
  | .tlbivb c _ => coreOk c
  | .tlbiallb c _ => coreOk c
  | .tlbitid c _ => coreOk c
  | .cwb c _ => coreOk c
  | .cflush c _ => coreOk c
  | .cinv c _ => coreOk c
  | .czero c _ => coreOk c
  | .cpf c _ => coreOk c
  | .cwbset c _ => coreOk c
  | .cflushset c _ => coreOk c
  | .cinvset c _ => coreOk c
  | .tswitch c _ => coreOk c
  | .iclr c _ => coreOk c
  | .vinj c _ => coreOk c
  | .interruptEntry c => coreOk c
  | .wfiWake c => coreOk c
  | .brMispred c _ => coreOk c
  | .storeDrain c => coreOk c
  | .hazePromote c line => coreOk c && lineOk line
  | .pageWalk c _ _ => coreOk c
  | .tlbiAckTimeout c issuer => coreOk c && coreOk issuer
  | .l2Evict c line => coreOk c && lineOk line
  | .orderGrantObserved _ => true
  | .homeSnoopTimeout line holder => lineOk line && coreOk holder
  | .homeWaitExpired line => lineOk line
  | .flitHop die _ _ _ => fabOk die
  | .initiatorTimeout node tag _ => nodeOk node && tagOk tag
  | .retryReissue node tag _ => nodeOk node && tagOk tag
  | .tagReserveExpiry node tag => nodeOk node && tagOk tag
  | .ringReplayTimeout src dst => stationOk src && stationOk dst
  | .ringIdleDue src dst => stationOk src && stationOk dst
  | .drainLimitExpiry d => switchOk d
  | .timeBaseUpdate _ => true
  | .timerCompare c => coreOk c
  | .htimerCompare c => coreOk c
  | .quiesceCmdGo _ => true
  | .quiesceDrainExpired => true
  | .teCtlWrite _ _ => true
  | .governorInterval _ => true
  | .dramTokenWaitEnd line => lineOk line
  | .dieBudgetReport cls die _ _ => reporterOk cls die
  | .wardenCreate _ => true
  | .addPage _ => true
  | .addEntry _ => true
  | .sealRow _ => true
  | .attest _ => true
  | .wardenDestroy _ => true
  | .wardenRestart => true
  | .entropyFailure => true
  | .seedTripleRefill c _ _ _ => coreOk c
  | .cutHold domain _ => domainOk domain
  | .enclaveGraceExpiry domain => domainOk domain
  | .forcedExit c => coreOk c
  | .qpCreate e _ => engineOk e
  | .qpDestroy e _ => engineOk e
  | .qpRearm e _ => engineOk e
  | .qpQuery e _ => engineOk e
  | .doorbell e _ idx _ => engineOk e && decide (idx < 32768)
  | .frameReceive p link _ _ => portOk p && linkOk link
  | .frameTransmitted p link => portOk p && linkOk link
  | .rcAckTimeout qpn => qpnOk qpn
  | .cnpRateRecovery qpn => qpnOk qpn
  | .linkStateChange p link _ => portOk p && linkOk link
  | .mgmtFrameReceive _ => true
  | .smbusQuickCommand _ _ => true
  | .smbusReadByte _ _ => true
  | .dtlRd _ => true
  | .dtlWr _ _ => true
  | .dtlWrp _ _ => true
  | .dtlRddata _ _ => true
  | .dtlWrack _ => true
  | .dtlMsg _ => true
  | .dtlBudget _ _ => true
  | .dtlNak _ => true
  | .guestBucketReady stream => streamOk stream
  | .guestFenceComplete => true
  | .guestLinkLoss => true
  | .guestBudgetTimeout => true
  | .guestSleepTimeout => true
  | .fwCtlWrite _ => true
  | .jobGo l _ => laneOk l
  | .jobAbort l _ => laneOk l
  | .laneRearm l _ => laneOk l
  | .compressorBlock l => laneOk l
  | .scrubGo k _ => stackOk k
  | .scrubAbort k _ => stackOk k
  | .scrubStep k => stackOk k
  | .remapWrite k n _ => stackOk k && streamOk n
  | .remapCopyStep k => stackOk k
  | .sliceRemapWrite h n _ => sliceOk h && masterOk n
  | .flipArm slice n _ => (if slice then sliceOk n else stackOk n)
  | .mcErrClear k _ => stackOk k
  | .clrErr h _ => sliceOk h
  | .sliceLfsrWrite h _ => sliceOk h
  | .violationClear block _ => paOk block
  | .statClear r _ => statOk r
  | .pvClear u _ => pvOk u
  | .registerWrite node _ pa _ _ => nodeOk node && paOk pa
  | .mtAdd _ => true
  | .mtRemove _ => true
  | .mtRearm _ => true
  | .helloTimer => true
  | .heartbeatTimer => true
  | .helloFrame _ => true
  | .heartbeatFrame _ => true
  | .joinFrame _ => true
  | .joinOkFrame _ => true
  | .joinTimeout => true
  | .contrailDrop _ => true
  | .stateFrame _ => true
  | .linesFrame _ => true
  | .outputFrame _ => true
  | .endFrame _ => true
  | .ackFrame _ => true
  | .intentFrame _ => true
  | .grantFrame _ => true
  | .sentFrame _ => true
  | .nakFrame _ => true
  | .resendFrame _ => true
  | .resendGapTimeout => true
  | .epochBoundaryStart m => slotOk m
  | .boundaryAbandon m => slotOk m
  | .boundaryRetry m => slotOk m
  | .captureRead m => slotOk m
  | .epochApply m => slotOk m
  | .partnerLoss => true
  | .mirrorLeaveExpiry => true
  | .pkgCmdHold => true
  | .pkgCmdOff => true
  | .domReqRun d => domainOk d
  | .domReqRetain d => domainOk d
  | .domReqOff d => domainOk d
  | .doorAnswer d _ => domainOk d
  | .domainCloseComplete d => switchOk d
  | .domainWakeComplete d => switchOk d
  | .wakeTimer => true
  | .avsResponse master _ => masterOk master
  | .avsStatusRead master _ => masterOk master
  | .avsRequestFail master => masterOk master
  | .tbStep _ => true
  | .tbSlew _ => true
  | .powerCeilWrite _ => true
  | .fenceComplete u => fenceOk u
  | .fcAckedWrite _ => true
  | .acknowledgeStarvation _ _ => true
  | .referenceClockLost island => masterOk island
  | .referenceClockReturn island => masterOk island
  | .resetCmdFull _ => true
  | .resetCmdComputeDie _ => true
  | .resetCmdCore _ => true
  | .coldRstNAssert => true
  | .vaonPowerUp => true
  | .vaonLoss => true
  | .coldResetEnd _ _ _ => true
  | .thermalTrip die _ => baseOk die
  | .jtagTapReset => true
  | .jtagBypass _ => true
  | .jtagIdcode => true
  | .jtagSamplePreload _ _ => true
  | .jtagExtest _ _ => true
  | .jtagClamp _ => true
  | .jtagHighz _ => true
  | .rowNop => true
  | .rowWriteReg => true
  | .loadSection => true
  | .powerOn => true
  | .powerOff => true
  | .retain => true
  | .restore => true
  | .resetAssert => true
  | .rowResetRelease => true
  | .drain => true
  | .rowFence => true
  | .unfence => true
  | .avsSet => true
  | .linkTrain _ => true
  | .bist _ => true
  | .selfRefreshEnter => true
  | .selfRefreshExit => true
  | .signal => true
  | .rowCall => true
  | .skipIf => true
  | .rowEnd => true
  | .rowWaitMet => true
  | .rowWaitFailed => true
  | .getResult => true
  | .getStatus => true
  | .readReg => true
  | .readPlog => true
  | .getAttestKey => true
  | .imageStart => true
  | .imageData => true
  | .imageCommit => true
  | .runTable => true
  | .setPkgState => true
  | .resetFull => true
  | .resetComputeDie => true
  | .resetCore => true
  | .resetCold => true
  | .writeReg => true
  | .provisionKey => true
  | .raiseFloor => true
  | .setPairing => true
  | .plogAck => true
  | .setMkey => true
  | .subscribe => true
  | .setNet => true
  | .contrailBreak _ => true
  | .contrailFrameInvalid _ _ => true
  | .dtlReservedMessage _ _ => true
  | .wardenRestartComplete => true
  | .entropyHealthRestored => true
  | .coldRstNRelease => true

end Sys2Proof
end

