-- ==== Sys2Proof/Machine/Ops.lean ====
section
/-! DEFINITION. Operations that every unit uses: the active image, the address map and placement, messages under way, tags
and statistics, faults and violations, result words. -/

namespace Sys2Proof.Machine

/-- What a command answers. -/
abbrev Out := Host.Outcome State Fault Refusal

/-- The effect of a command that names only what the part has; a command that does not faults. -/
def onWf (ok : Bool) (s : State) : Out := if ok then .next s else .fault .illFormed

/-! ### Time -/

/-- TIME in ns (R432). -/
def State.now (s : State) : Nat := s.time.sub / 10 ^ 10

/-! ### The image (R45–R53) -/

def Image.byte (im : Image) (o : Nat) : Nat := (tget im.bytes o 0).toNat

/-- `n` bytes at `o`, little-endian. -/
def Image.le (im : Image) (o : Nat) : Nat → Nat
  | 0 => 0
  | n + 1 => im.byte o + 256 * im.le (o + 1) n

/-- `n` bytes at `o` in order. -/
def Image.slice (im : Image) (o n : Nat) : List Byte := (List.range n).map fun i => tget im.bytes (o + i) 0

/-- Offset and length of the section of a type, by the directory (R46). -/
def Image.section? (im : Image) (ty : Nat) : Option (Nat × Nat) :=
  ((List.range 11).find? fun i => im.le (128 + 16 * i) 2 == ty).map
    fun i => (im.le (128 + 16 * i + 8) 8, im.le (128 + 16 * i + 4) 4)

/-- `n` bytes at offset `o` of a section; 0 where there is none. -/
def Image.sec (im : Image) (ty o n : Nat) : Nat :=
  match im.section? ty with
  | some (off, _) => im.le (off + o) n
  | none => 0

/-- A field of a section of the active image, `d` with no active image (R497). -/
def State.img (s : State) (ty o n d : Nat) : Nat :=
  match s.seq.active with
  | some im => im.sec ty o n
  | none => d

def secDieMap : Nat := 1
def secRoutes : Nat := 2
def secHome : Nat := 3
def secCache : Nat := 4
def secQos : Nat := 5
def secPower : Nat := 6
def secFault : Nat := 7
def secPorts : Nat := 8
def secTenant : Nat := 9
def secSteps : Nat := 10
def secGlobal : Nat := 11

/-- TIMEOUT_NS of a class (Table 9-6), the Octost defaults with no image. -/
def State.timeoutNs (s : State) (k : Nat) : Nat :=
  s.img secGlobal (0x10 + 4 * k) 4 ([2000000, 1000000, 2000000, 1000000, 2000000, 2000000, 1000000, 1000000].getD k 0)

/-- DRAIN_LIMIT_NS (R24, R497). -/
def State.drainLimit (s : State) : Nat := s.img secGlobal 8 4 4000000

/-- ENCLAVE_GRACE_NS (R53); with no image no enclave exists. -/
def State.enclaveGrace (s : State) : Nat := s.img secGlobal 12 4 10000000

/-- Whether base die n is enabled (R27, R50). -/
def State.baseEn (s : State) (n : Nat) : Bool := n < 4 && (s.img secDieMap 0 1 0).testBit n

/-- Whether compute die c is enabled. -/
def State.computeEn (s : State) (c : Nat) : Bool := c < 12 && (s.img secDieMap 4 2 0).testBit c

def State.bases (s : State) : List Nat := (List.range 4).filter s.baseEn

/-- The enabled stacks in ascending order. -/
def State.stacks (s : State) : List Nat := (s.bases.map fun n => [3 * n, 3 * n + 1, 3 * n + 2]).flatten

/-- Lines of one base die's DRAM: 384 GiB (R27). -/
def quarterLines : Nat := 3 * 2 ^ 31

/-- Populated DRAM lines (R27). -/
def State.dramLines (s : State) : Nat := s.bases.length * quarterLines

/-- The physical tile of a core by the active spare map (R16). -/
def State.tileOf (s : State) (g : Nat) : Nat := s.img secDieMap (8 + g) 1 0xFF

/-- The core that a tile of a compute die carries, if the active spare map assigns it. -/
def State.coreOfTile (s : State) (c t : Nat) : Option Nat :=
  ((List.range 48).find? fun i => s.tileOf (48 * c + i) == t).map fun i => 48 * c + i

/-- Bit k of CAPS (R40, R41, Table 1-8): the feature mask's bit, and for PMU_EXT every enabled compute die a B1. -/
def State.cap (s : State) (k : Nat) : Bool :=
  s.seq.active.isSome && decide (k < 7) && (s.img secGlobal 0 8 0).testBit k &&
    (k != 6 || (List.range 12).all fun c => !s.computeEn c || Config.dieIsB1 c)

/-- CAPS. -/
def State.caps (s : State) : Nat := (List.range 7).foldl (fun a k => a + (s.cap k).toNat * 2 ^ k) 0

/-! ### The address map (R26–R29) -/

/-- Device space (R29). -/
def isDevice (pa : Nat) : Bool := decide (0xF000000000000 ≤ pa)

/-- Populated DRAM. -/
def State.isDram (s : State) (pa : Nat) : Bool := decide (pa / 64 < s.dramLines)

/-- The guest-die window. -/
def isGuestWindow (pa : Nat) : Bool := decide (0xF100000000000 ≤ pa) && decide (pa ≤ 0xF1FFFFFFFFFFF)

/-! ### Register windows (R28, R32) -/

/-- A register block, by its window (R32 and the chapter that owns it). -/
inductive Blk where
  | ident | collector | router | qos | security | power | guest | mailbox | time | mirror | hubFab
  | port (p : Nat)
  | engine (e : Nat)
  | lane (l : Nat)
  | l3 (n : Nat)
  | baseFab (n : Nat)
  | stack (k : Nat)
  | compFab (c : Nat)
  deriving DecidableEq, Repr

/-- The hub block whose window is the m-th MiB of the hub window. -/
def hubBlk (m : Nat) : Option Blk :=
  if m == 0 then some .ident else if m == 1 then some .collector else if m == 2 then some .router
  else if m == 3 then some .qos
  else if 0x10 ≤ m ∧ m < 0x18 then some (.port (m - 0x10))
  else if 0x18 ≤ m ∧ m < 0x1A then some (.engine (m - 0x18))
  else if 0x20 ≤ m ∧ m < 0x24 then some (.lane (m - 0x20))
  else if m == 0x30 then some .mirror else if m == 0x40 then some .security else if m == 0x50 then some .power
  else if m == 0x60 then some .guest else if m == 0x70 then some .mailbox else if m == 0x80 then some .time
  else if m == 0x90 then some .hubFab else none

/-- The block whose window holds a physical address (Table 1-3, R28). -/
def blkOf (pa : Nat) : Option Blk :=
  if pa < 0xF000000000000 then none
  else if pa < 0xF000010000000 then hubBlk ((pa - 0xF000000000000) / 2 ^ 20)
  else if 0xF000100000000 ≤ pa ∧ pa < 0xF000500000000 then
    let n := (pa - 0xF000100000000) / 2 ^ 32
    let m := pa % 2 ^ 32 / 2 ^ 20
    if m == 1 then some (.l3 n) else if m == 2 then some (.baseFab n)
    else if 3 ≤ m ∧ m < 6 then some (.stack (3 * n + (m - 3))) else none
  else if 0xF001000000000 ≤ pa ∧ pa < 0xF001C00000000 then
    if pa % 2 ^ 32 / 2 ^ 20 == 2 then some (.compFab ((pa - 0xF001000000000) / 2 ^ 32)) else none
  else none

/-- A register window of the package: one that lies in no die that is not enabled (R28). -/
def State.blkOn (s : State) : Blk → Bool
  | .l3 n => s.baseEn n
  | .baseFab n => s.baseEn n
  | .stack k => s.baseEn (k / 3)
  | .compFab c => s.computeEn c
  | _ => true

/-- An address of device space that is mapped (R28). -/
def State.devMapped (s : State) (pa : Nat) : Bool :=
  if isGuestWindow pa then s.guest.present else (blkOf pa).any s.blkOn

/-! ### Placement (R291, R292) -/

def popcount (n w : Nat) : Nat := (List.range w).foldl (fun a i => a + (n.testBit i).toNat) 0

/-- Where a line lives: its base die, stack, stack-local line and slice number on the base die. -/
structure Place where
  base : Nat
  stack : Nat
  local_ : Nat
  slice : Nat
  deriving DecidableEq, Repr

def foldSlice (b k : Nat) : Nat :=
  bitsOf b 0 5 ^^^ bitsOf b 5 5 ^^^ bitsOf b 10 5 ^^^ bitsOf b 15 5 ^^^ bitsOf b 20 5 ^^^ bitsOf b 25 5 ^^^
    bitsOf b 30 1 ^^^ bitsOf k 59 5

/-- place(N, T) with HASH_KEY k: the ordinal and the stack-local line. -/
def placeFn (n t k : Nat) : Nat × Nat :=
  let r := n % t
  let b := n / t
  let f := popcount (bitsOf b 0 31 &&& bitsOf k 0 31) 31 % t
  ((r + f) % t, b)

/-- The place of a populated line. -/
def State.locate (s : State) (line : Nat) : Option Place :=
  if line < s.dramLines then
    let key := s.img secHome 8 8 0
    if s.img secHome 0 1 0 == 0 then
      let n := s.bases.getD (line / quarterLines) 0
      let p := placeFn (line % quarterLines) 3 key
      some ⟨n, 3 * n + p.1, p.2, 32 * p.1 + foldSlice p.2 key⟩
    else
      let ss := s.stacks
      let p := placeFn line ss.length key
      let k := ss.getD p.1 0
      some ⟨k / 3, k, p.2, 32 * (k % 3) + foldSlice p.2 key⟩
  else none

/-- A slice's number in `Hier.slices`. -/
def Place.home (p : Place) : Nat := 96 * p.base + p.slice

/-- The node number of a home (Table 9-1). -/
def homeNode (h : Nat) : Nat := 0x240 + h

/-! ### Domains and fences -/

/-- A switched domain (Table 16-1); beside them 712 + n for the uncore of base die Bn and 716 for the hub logic outside VAON
(R496). -/
def State.dom (s : State) (d : Nat) : Dom := tget s.power.doms d (if d < 712 then Dom.initial else Dom.running)
def baseUncore (n : Nat) : Nat := 712 + n
def hubLogic : Nat := 716
def State.setDom (s : State) (d : Nat) (x : Dom) : State := { s with power := { s.power with doms := tput s.power.doms d x } }
def bankDomain (h : Nat) : Nat := 576 + 24 * (h / 96) + h % 96 / 4
def uncoreDomain (c : Nat) : Nat := 672 + c
def stackDomain (k : Nat) : Nat := 684 + k

def State.isFenced (s : State) (u : Nat) : Bool := s.fenced.contains u

/-- The domain is in RUN and its unit is not held stopped, in reset or fenced. -/
def State.runs (s : State) (d : Nat) : Bool :=
  let x := s.dom d
  x.st == .run && !x.stopped && !x.inReset && !s.isFenced d

/-! ### Messages under way -/

/-- A message or notice leaves its sender. -/
def State.send (s : State) (m : Instr) : State := { s with inflight := s.inflight ++ [m] }

/-- A message arrives: it is no longer under way. -/
def State.arrive (s : State) (m : Instr) : State :=
  { s with inflight := s.inflight.erase m, hier := { s.hier with flights := s.hier.flights.eraseP (·.msg == m) } }

/-- Messages that a door held go on, ahead of those that are still on their way (R19, R263). -/
def State.goOn (s : State) (ms : List Instr) : State := { s with inflight := ms ++ s.inflight }

def State.sendAll (s : State) (ms : List Instr) : State := { s with inflight := s.inflight ++ ms }

/-- Draw the next free-value index. -/
def State.draw (s : State) : Nat × State := (s.free, { s with free := s.free + 1 })

/-! ### Faults and violations -/

/-- SOURCE of a fault message (Table 17-1). -/
def srcCode (cls die unit : Nat) : BitVec 16 := BitVec.ofNat 16 (4096 * cls + 256 * die + unit)

/-- A core is named by its physical tile (R434). -/
def State.coreSrc (s : State) (g : Nat) : BitVec 16 := srcCode 2 (g / 48) (s.tileOf g)

def sliceSrc (h : Nat) : BitVec 16 := srcCode 1 (h / 96) (h % 96)

/-- Send a fault message to the collector (R433). -/
def State.fault (s : State) (src : BitVec 16) (kind : BitVec 8) (tid : Option (BitVec 12)) (addr : Nat) : State :=
  s.send (.faultMessage src kind tid (addr % 2 ^ 52))

/-- Count a violation of the block whose window starts at `blk` (R8, R30). -/
def State.violate (s : State) (blk : Nat) : State := { s with viol := tmod s.viol blk 0 (satInc 32) }

/-- A write of a register of a block, whose bits in use are given: a 1 in any other bit is counted once (R8). -/
def State.reserved (s : State) (blk : Nat) (used v : Word) : State := if v &&& ~~~used != 0 then s.violate blk else s

/-! ### Result words (R33–R36) -/

/-- The word that a result register reads. -/
def Chan.word (c : Chan) : Word := BitVec.ofNat 64 (c.status.toNat * 2 ^ 60 + c.seq.toNat * 2 ^ 32 + c.value.toNat)

/-- Accept a command: BUSY, the next number is counted (R34, R35). -/
def Chan.accept (c : Chan) : Chan :=
  { c with status := 1, value := 0, count := if c.count == 0xFFFFFFF then 1 else c.count + 1 }

/-- Complete the accepted command as DONE. -/
def Chan.done (c : Chan) (v : Nat) : Chan := { c with status := 2, seq := c.count, value := BitVec.ofNat 32 v }

/-- Complete the accepted command as FAILED with a code and a detail. -/
def Chan.fail (c : Chan) (code detail : Nat) : Chan :=
  { c with status := 3, seq := c.count, value := BitVec.ofNat 32 (detail % 65536 * 65536 + code) }

def codeLengthRange : Nat := 1
def codeAlign : Nat := 2
def codeTargetUnmapped : Nat := 3
def codePoisoned : Nat := 4
def codeNotPermitted : Nat := 5
def codeFieldInvalid : Nat := 6
def codeAborted : Nat := 7

/-! ### Statistics (R286) -/

/-- The statistics record of a node: cores by number, hub record r at 1,024 + r. -/
def statOf (node : Nat) : Option Nat :=
  if node < 576 then some node
  else if 0x3CC ≤ node ∧ node ≤ 0x3DA then some (1024 + (node - 0x3CC))
  else if node = 0x3DC then some (1024 + 15)
  else if node = 0x3EE then some (1024 + 32)
  else none

/-- Change a statistics record unless it is frozen (R287). -/
def State.statRec (s : State) (r : Nat) (f : Stat → Stat) : State :=
  let x := tget s.hier.stats r Stat.initial
  if x.freeze then s else { s with hier := { s.hier with stats := tput s.hier.stats r (f x) } }

/-- Change the statistics record of a node. -/
def State.stat (s : State) (node : Nat) (f : Stat → Stat) : State :=
  match statOf node with
  | none => s
  | some r => s.statRec r f

/-- The histogram bucket of a duration (Table 9-13). -/
def histBucket (ns : Nat) : Nat :=
  ((List.range 15).find? fun b => ns < 32 * 2 ^ b).getD 15

/-! ### Tags (R274–R276) -/

def tagKey (node tag : Nat) : Nat := 512 * node + tag
def State.tag (s : State) (node tag : Nat) : TagInfo := tget s.hier.tags (tagKey node tag) TagInfo.initial
def State.setTag (s : State) (node tag : Nat) (t : TagInfo) : State :=
  { s with hier := { s.hier with tags := tput s.hier.tags (tagKey node tag) t } }

/-- The lowest tag of a node that is neither in use nor reserved. -/
def State.freeTag (s : State) (node : Nat) : Option Nat :=
  lowest (fun t => let x := s.tag node t; x.req.isNone && !x.reserved) 256

/-- The line that a VN0 request names, with its header, and whether it is a WrLine. -/
def reqInfo : Instr → Option (Hdr × Nat × Bool)
  | .rds h l _ _ => some (h, l, false)
  | .rdx h l _ => some (h, l, false)
  | .upg h l => some (h, l, false)
  | .claim h l => some (h, l, false)
  | .rdcur h l => some (h, l, false)
  | .wrline h l _ => some (h, l, true)
  | .wrpart h l _ => some (h, l, false)
  | .atom h pa _ => some (h, pa / 64, false)
  | .wbreq h l => some (h, l, false)
  | .offer h l => some (h, l, false)
  | .drop h l => some (h, l, false)
  | .cwbreq h l => some (h, l, false)
  | .cflreq h l => some (h, l, false)
  | .hazerd h l => some (h, l, false)
  | _ => none

/-- The address of a request. -/
def reqAddr : Instr → Nat
  | .atom _ pa _ => pa
  | .guestWindowAccess _ pa _ => 0xF100000000000 + pa
  | .wrpart _ line p => 64 * line + p.offset.toNat % 64
  | m => 64 * ((reqInfo m).map (·.2.1)).getD 0

/-- The station a node sits at: its base die, or 4 for the hub (R238, R282). -/
def stationOf (node : Nat) : Nat :=
  if node < 576 then node / 144
  else if node < 0x3C0 then (node - 0x240) / 96
  else if node < 0x3CC then (node - 0x3C0) / 3
  else if 0x3DE ≤ node ∧ node < 0x3E2 then node - 0x3DE
  else if 0x3E2 ≤ node ∧ node < 0x3EE then (node - 0x3E2) / 3
  else 4

/-- Whether a request passes the order channel by R238's first kind. -/
def State.farOrdered (s : State) (m : Instr) : Bool :=
  match reqInfo m with
  | none => false
  | some (h, l, _) =>
    match m with
    | .hazerd _ _ => false
    | _ =>
      match s.locate l with
      | none => false
      | some p => decide (2 ≤ s.bases.length) && stationOf h.node != p.base

/-- Post an order token at a station (R239). -/
def State.postToken (s : State) (t : Token) : State :=
  { s with hier := { s.hier with order := { s.hier.order with
      posted := tmod s.hier.order.posted t.station [] (· ++ [t]) } } }

def tokenOf (st : Nat) (h : Hdr) (l : Nat) (wl : Bool) : Token := ⟨st, wl, h.node, h.tag, h.gen, l⟩

/-- Bytes that a request carries out (Table 9-13). -/
def wrBytesOf : Instr → Nat
  | .wrline _ _ _ => 64
  | .wrpart _ _ p => popcount p.mask.toNat 32
  | .wbdata _ _ _ => 64
  | .offerdata _ _ _ => 64
  | _ => 0

/-- Send a VN0 request: its tag is taken, its timer starts, its bytes and the request are counted, and its station posts
a token where R238 asks for one. A request for an address that is neither populated nor a mapped address of device space is
answered UNMAPPED by the initiator's own interface, which sends no flit (R28, R268). -/
def State.request (s : State) (m : Instr) : State :=
  match reqInfo m with
  | none => s
  | some (h, l, wl) =>
    if l < s.dramLines || (isDevice (64 * l) && s.devMapped (reqAddr m)) then
      let s := if wl then { s with hier := { s.hier with wrLines := s.hier.wrLines ++ [(h.node, l, s.now)] } }
        else s.setTag h.node h.tag { s.tag h.node h.tag with req := some m, since := s.now, retry := false }
      let s := s.stat h.node fun x =>
        { x with requests := x.requests + 1, wrBytes := x.wrBytes + BitVec.ofNat 64 (wrBytesOf m) }
      let s := if s.farOrdered m then s.postToken (tokenOf (stationOf h.node) h l wl) else s
      s.send m
    else
      (if wl then { s with hier := { s.hier with wrLines := s.hier.wrLines ++ [(h.node, l, s.now)] } }
       else s.setTag h.node h.tag { s.tag h.node h.tag with req := some m, since := s.now, retry := false }).send
        (.err h (64 * l) 1)

/-- A header for a new request of a node: the lowest free tag with its generation. -/
def State.newHdr (s : State) (node : Nat) (tid : BitVec 12) (cls : BitVec 3) : Option Hdr :=
  (s.freeTag node).map fun t => ⟨node, t, (s.tag node t).gen, tid, cls⟩

/-- Send a request built from a fresh header; none when the node has no free tag. -/
def State.issue (s : State) (node : Nat) (tid : BitVec 12) (cls : BitVec 3) (mk : Hdr → Instr) : Option (Hdr × State) :=
  (s.newHdr node tid cls).map fun h => (h, s.request (mk h))

/-- Whether a response belongs to the request its tag carries now (R276). -/
def State.current (s : State) (h : Hdr) : Bool :=
  let t := s.tag h.node h.tag
  t.req.isSome && !t.reserved && t.gen == h.gen

/-- Whether a response is late (R276). -/
def State.isLate (s : State) (h : Hdr) : Bool :=
  let t := s.tag h.node h.tag
  t.reserved || t.gen != h.gen

/-- The last response of a request has come: the tag is free again and the time is counted. -/
def State.finish (s : State) (h : Hdr) : State :=
  let t := s.tag h.node h.tag
  let s := s.stat h.node fun x =>
    { x with hist := tmod x.hist (histBucket (s.now - t.since)) 0 (· + 1) }
  s.setTag h.node h.tag { t with req := none, retry := false }

/-- A late response is counted and frees the reserved tag (R276). -/
def State.lateResponse (s : State) (h : Hdr) : State :=
  let t := s.tag h.node h.tag
  let s := s.stat h.node fun x => { x with late := x.late + 1 }
  if t.reserved then s.setTag h.node h.tag { t with reserved := false, req := none, lateData := none, lateGo := false } else s

/-- A VN3 data flit reaches a node (RD_BYTES). -/
def State.countRead (s : State) (node : Nat) : State := s.stat node fun x => { x with rdBytes := x.rdBytes + 64 }

/-! ### Fabric blocks and ring frames (R280, R286) -/

/-- A ring frame (Table 9-7): flit and route, LINK, CRC, RS. -/
def ringFrame (flit : BitVec 592) (seq ack : BitVec 7) (nak idle : Bool) : BitVec 768 :=
  let link := seq.toNat * 512 + ack.toNat * 4 + nak.toNat * 2 + idle.toNat
  let body := toBytes flit 74 ++ leBytes 2 link
  let crc := crcFrame body
  let msg := body ++ toBytes crc 4
  ofBytes 768 (msg ++ (rsParity (msg.map (·.toNat))).map fun n => BitVec.ofNat 8 n)

def State.fabBlock (s : State) (die : Nat) : FabBlock := tget s.hier.fab die FabBlock.initial
def State.setFab (s : State) (die : Nat) (f : FabBlock) : State :=
  { s with hier := { s.hier with fab := tput s.hier.fab die f } }

/-- The fabric block of a station, and the source its fault messages carry. -/
def stationFab (st : Nat) : Nat := if st == 4 then 0 else st + 1
def stationSrc (st : Nat) : BitVec 16 := if st == 4 then srcCode 0 0 0x19 else srcCode 1 st 0x62

/-! ### Junctions (R20) -/

/-- No further WrLine of a node to a line may leave: one is in flight, or one has timed out (R277). -/
def State.noWrLine (s : State) (node line : Nat) : Bool :=
  s.hier.wrBlocked.contains (node, line) || s.hier.wrLines.any fun w => w.1 == node && w.2.1 == line

/-- A write id: (tag, line), with 256 for a WrLine. -/
def writeId (m : Instr) : Option (Nat × (Nat × Nat)) :=
  (reqInfo m).map fun r => (r.1.node, (if r.2.2 then 256 else r.1.tag, r.2.1))

/-- Hold a control message at a node's junction until its writes are acknowledged, or send it when there are none. -/
def State.hold (s : State) (node : Nat) (waits : List (Nat × Nat)) (m : Instr) : State :=
  if waits.isEmpty then s.send m else { s with junction := s.junction ++ [⟨node, m, waits⟩] }

/-- The junctions hold these messages; the ones that wait for no write leave. -/
def State.letGo (s : State) (js : List Junction) : State :=
  { s with junction := js.filter (fun j => !j.waits.isEmpty),
           inflight := s.inflight ++ (js.filter (fun j => j.waits.isEmpty)).map (·.msg) }

/-- A write of a node has been acknowledged or has failed: messages that waited for nothing else leave. -/
def State.release (s : State) (node : Nat) (w : Nat × Nat) : State :=
  let js := s.junction.map fun j => if j.node == node then { j with waits := j.waits.filter (· != w) } else j
  s.letGo js

/-- A write that held messages wait for has not left yet: it leaves now under `ids`, or never does when there are none. -/
def State.renameWait (s : State) (node : Nat) (w : Nat × Nat) (ids : List (Nat × Nat)) : State :=
  s.letGo (s.junction.map fun j =>
    if j.node == node && j.waits.contains w then { j with waits := j.waits.erase w ++ ids } else j)

end Sys2Proof.Machine
end

