-- ==== Sys2Proof/Machine/Memory.lean ====
section
/-! DEFINITION. DRAM as its controllers hold it (Chapter 10): stack-located bytes under the line code, remap, flip mask,
encryption, and the classes of a read. -/

namespace Sys2Proof.Machine

/-! ### Stored bytes -/

/-- What an unlisted byte of DRAM reads as (DESIGN CHOICE, unsafe, notes/assumptions/1.md: R501 says arbitrary bits). -/
def unlistedByte : Byte := 0

/-- The canonical form: addresses strictly rising, no entry equal to what an unlisted address reads as. -/
def memWf : List Host.Cell → Bool
  | [] => true
  | [c] => c.2 != unlistedByte
  | c :: d :: l => c.2 != unlistedByte && decide (c.1 < d.1) && memWf (d :: l)

/-- One byte of memory. -/
def memRead : List Host.Cell → Nat → Byte
  | [], _ => unlistedByte
  | c :: l, a => if c.1 = a then c.2 else memRead l a

/-- Write one byte; writing what an unlisted address reads as removes the entry. -/
def memWrite : List Host.Cell → Nat → Byte → List Host.Cell
  | [], a, b => if b = unlistedByte then [] else [(a, b)]
  | c :: l, a, b =>
    if a < c.1 then (if b = unlistedByte then c :: l else (a, b) :: c :: l)
    else if a = c.1 then (if b = unlistedByte then l else (a, b) :: l)
    else c :: memWrite l a b

/-- Write the `n` bytes of a value from address `a` on. -/
def memWriteBytes (m : List Host.Cell) (a : Nat) {w : Nat} (v : BitVec w) : Nat → List Host.Cell
  | 0 => m
  | n + 1 => memWrite (memWriteBytes m a v n) (a + n) (byteOf v n)

/-- The stored data of stack-located line `loc`. -/
def readRaw (m : List Host.Cell) (loc : Nat) : Line :=
  ofBytes 512 ((List.range 64).map fun i => memRead m (64 * loc + i))

/-! ### Where a line is stored -/

def State.mc (s : State) (k : Nat) : Mc := tget s.hier.mcs k Mc.initial
def State.setMc (s : State) (k : Nat) (m : Mc) : State := { s with hier := { s.hier with mcs := tput s.hier.mcs k m } }

/-- V and ROW of a REMAP register (Table 10-7). -/
def remapV (w : Word) : Bool := bit w 63
def remapRow (w : Word) : Nat := fld w 0 22

/-- Spare row n of stack k begins at this stack-located line. -/
def spareLine (k n : Nat) : Nat := 12 * 2 ^ 31 + (16 * k + n) * 512

/-- The stack-located line that serves stack-local line a of stack k: the lowest valid remap entry naming its row
(R306), else the line itself. -/
def State.dramLoc (s : State) (k a : Nat) : Nat :=
  match lowest (fun n => let w := tget (s.mc k).remap n 0; remapV w && remapRow w == a / 512) 16 with
  | some n => spareLine k n + a % 512
  | none => k * 2 ^ 31 + a

/-! ### Encryption (R309) -/

/-- The enclave whose range in a controller's table holds a line. -/
def rangeOwner (rs : List (Nat × Nat × Nat)) (line : Nat) : Option Nat :=
  (rs.find? fun r => r.2.1 / 64 ≤ line && line < (r.2.1 + r.2.2) / 64).map (·.1)

/-- A line as it is stored: encrypted where a range of the controller's table holds it. -/
def Mc.cipher (m : Mc) (enc : Bool) (line : Nat) (l : Line) : Line :=
  match rangeOwner m.ranges line with
  | some e => xtsLine enc (tget m.keys e 0) line l
  | none => l

/-! ### Coded writes and reads -/

/-- The flip mask of a controller or slice over the 72 bytes of a coded line: the flips of the data and of the check
bytes (R308). -/
def flipBits (lo : Word) (hi : BitVec 8) (w : BitVec 3) : Line × BitVec 64 :=
  let m := (lo.toNat + 2 ^ 64 * hi.toNat) * 2 ^ (72 * w.toNat)
  (BitVec.ofNat 512 m, BitVec.ofNat 64 (m / 2 ^ 512))

/-- Store a coded line: data as given, check difference 0 or the poison mark, with the armed flip mask applied after
encoding (R295, R297, R308). -/
def State.storeRaw (s : State) (k loc : Nat) (data : Line) (delta : BitVec 64) : State :=
  let m := s.mc k
  let f := if m.armed then flipBits m.flipLo m.flipHi m.flipWin else (0, 0)
  let d := data ^^^ f.1
  let delta' := delta ^^^ f.2 ^^^ (if f.1 == 0 then 0 else encodeLine f.1)
  let s := if m.armed then s.setMc k { m with flipLo := 0, flipHi := 0, flipWin := 0, armed := false } else s
  { s with hier := { s.hier with
      dram := memWriteBytes s.hier.dram (64 * loc) d 64,
      chk := if delta' == 0 then tdel s.hier.chk loc else tput s.hier.chk loc delta' } }

/-- A controller writes a line (R301). -/
def State.dramWrite (s : State) (p : Place) (line : Nat) (d : LineData) : State :=
  let m := s.mc p.stack
  s.storeRaw p.stack (s.dramLoc p.stack p.local_) (m.cipher true line d.bytes) (if d.poison then poisonMark else 0)

/-- The stored line and its class (R296). -/
def State.dramLook (s : State) (p : Place) : Line × LineClass :=
  let loc := s.dramLoc p.stack p.local_
  (readRaw s.hier.dram loc, lineClass (tget s.hier.chk loc 0))

/-- What a read of the line would answer, with no effect. -/
def State.dramPeek (s : State) (p : Place) (line : Nat) : LineData :=
  let r := s.dramLook p
  let pl := (s.mc p.stack).cipher false line (correctLine r.1 r.2)
  match r.2 with
  | .clean => ⟨pl, false⟩
  | .corrected _ _ => ⟨pl, false⟩
  | .poisoned => ⟨pl, true⟩
  | .uncorrectable => ⟨pl, true⟩

def ctrlSrc (k : Nat) : BitVec 16 := srcCode 3 k 0

/-- R299: count a correction; the message leaves unless the previous one named the line less than 1 ms ago. -/
def State.countCorrected (s : State) (k line sym : Nat) (message : Bool) : State :=
  let m := s.mc k
  let recent := match m.lastCorr with
    | some (l, t) => l == line && decide (s.now < t + 1000000)
    | none => false
  let m := { m with ce := satInc 28 m.ce, symbols := setBit m.symbols sym true }
  if message && !recent then
    (s.setMc k { m with lastCorr := some (line, s.now) }).fault (ctrlSrc k) 0x30 none (64 * line)
  else s.setMc k m

/-- R300: an uncorrectable line is rewritten poisoned with the data bytes as read, counted and reported. -/
def State.recordPoison (s : State) (k loc line : Nat) (raw : Line) : State :=
  let s := s.storeRaw k loc raw poisonMark
  let m := s.mc k
  (s.setMc k { m with ue := satInc 28 m.ue }).fault (ctrlSrc k) 0x31 none (64 * line)

/-- A controller reads a line for a request: the answer, and what the class brings about (R296, R299, R300). -/
def State.dramRead (s : State) (p : Place) (line : Nat) : LineData × State :=
  let r := s.dramLook p
  let d := s.dramPeek p line
  match r.2 with
  | .corrected sym _ => (d, s.countCorrected p.stack line sym true)
  | .uncorrectable => (d, s.recordPoison p.stack (s.dramLoc p.stack p.local_) line r.1)
  | _ => (d, s)

/-! ### Merging -/

/-- A part merged into a line; the poison mark stays (R207, R301). -/
def mergePart (d : LineData) (p : Part) : LineData :=
  ⟨mergeBytes d.bytes p.data p.mask p.offset.toNat, d.poison || p.poison⟩

/-! ### Atomic arithmetic (Table 3-10) -/

/-- The new value of an atomic's memory operand. -/
def atomNew (a : AtomOp) (t : BitVec 128) : BitVec 128 :=
  let w := if a.wide then 128 else 64
  let mask : BitVec 128 := if a.wide then BitVec.allOnes 128 else 0xFFFFFFFFFFFFFFFF
  let x := t &&& mask
  let y := a.operand &&& mask
  let sx : Int := if x.toNat < 2 ^ (w - 1) then x.toNat else (x.toNat : Int) - 2 ^ w
  let sy : Int := if y.toNat < 2 ^ (w - 1) then y.toNat else (y.toNat : Int) - 2 ^ w
  match a.op.toNat with
  | 0 => (x + y) &&& mask
  | 1 => y
  | 2 => if x == a.compare &&& mask then y else x
  | 3 => if sx ≤ sy then x else y
  | 4 => if sx ≤ sy then y else x
  | 5 => if x ≤ y then x else y
  | 6 => if x ≤ y then y else x
  | 7 => x &&& y
  | 8 => x ||| y
  | _ => x ^^^ y

/-- The old 8 or 16 bytes at byte `off` of a line, and the line after the operation. -/
def atomLine (a : AtomOp) (l : Line) (off : Nat) : BitVec 128 × Line :=
  let n := if a.wide then 128 else 64
  let old : BitVec 128 := BitVec.ofNat 128 (fld l (8 * off) n)
  (old, setFld l (8 * off) n (atomNew a old).toNat)

end Sys2Proof.Machine
end

