-- ==== Sys2Proof/Machine/Home.lean ====
section
/-! DEFINITION. The homes: L3 slices, the directory, admission and order, and the transactions of Table 8-3 (Chapter 08),
with the quotas and tokens that bound them (R325–R327). -/

namespace Sys2Proof.Machine

/-! ### Slices -/

def State.slice (s : State) (h : Nat) : Slice := tget s.hier.slices h Slice.initial
def State.setSlice (s : State) (h : Nat) (x : Slice) : State :=
  { s with hier := { s.hier with slices := tput s.hier.slices h x } }

/-- The slice's data array serves its home: its bank group is in RUN and no fence takes the slice out of use. -/
def State.sliceUp (s : State) (h : Nat) : Bool := s.runs (bankDomain h) && !s.isFenced (1000 + h)

/-! ### The CACHE section (R200) -/

/-- The key under which a die's own load of the section is noted. -/
def cacheKey (compute : Bool) (die : Nat) : Nat := 64 + 16 * compute.toNat + die

/-- The section has been sent to a die's agent since it left reset. -/
def State.sentSection (s : State) (compute : Bool) (die : Nat) : Bool :=
  s.seq.sections.contains secCache || s.seq.sections.contains (cacheKey compute die)

/-- The section has reached a die's agent since it left reset. -/
def State.hasSection (s : State) (compute : Bool) (die : Nat) : Bool :=
  s.sentSection compute die && !s.inflight.contains (.cacheSectionArrival compute die)

/-- The slice can allocate: its array serves, and its base die has the CACHE section (R200). -/
def State.sliceReady (s : State) (h : Nat) : Bool := s.sliceUp h && s.hasSection false (h / 96)

/-! ### Lines of a slice -/

/-- The place of a line in a slice: set PA[17:6], way (Table 7-1). -/
def sliceFind (x : Slice) (line : Nat) : Option (Nat × SLine) :=
  (List.range 16).findSome? fun w =>
    match tfind? x.lines (line % 4096 * 16 + w) with
    | some l => if l.line == line then some (line % 4096 * 16 + w, l) else none
    | none => none

/-- Whether the slice serves a copy of the line. -/
def State.sliceHolds (s : State) (h line : Nat) : Bool := s.sliceUp h && (sliceFind (s.slice h) line).isSome

/-- Write a line into the slice's array at a place: encoded, with the armed flip mask applied (R298, R308). -/
def State.sliceStore (s : State) (h key line : Nat) (d : LineData) (dirty : Bool) (cls : BitVec 3) : State :=
  let x := s.slice h
  let f := if x.armed then flipBits x.flipLo x.flipHi x.flipWin else (0, 0)
  let delta := (if d.poison then poisonMark else 0) ^^^ f.2 ^^^ (if f.1 == 0 then 0 else encodeLine f.1)
  let x := if x.armed then { x with flipLo := 0, flipHi := 0, flipWin := 0, armed := false } else x
  s.setSlice h { x with lines := tput x.lines key ⟨line, d.bytes ^^^ f.1, delta, dirty, cls, 0⟩ }

/-- Remove a line from the slice. -/
def State.sliceDrop (s : State) (h line : Nat) : State :=
  match sliceFind (s.slice h) line with
  | some (k, _) => s.setSlice h { s.slice h with lines := tdel (s.slice h).lines k }
  | none => s

/-- R205: the copy at place k of a slice's array is read. A correctable copy is delivered corrected and stays as it is. An
uncorrectable clean copy is dropped (none: DRAM serves); a modified one is poisoned. -/
def State.slotRead (s : State) (h k : Nat) (l : SLine) : Option LineData × State :=
  match lineClass l.chk with
  | .clean => (some ⟨l.bytes, false⟩, s)
  | .corrected i e =>
    let x := s.slice h
    (some ⟨correctLine l.bytes (.corrected i e), false⟩,
      (s.setSlice h { x with ce := satInc 32 x.ce }).fault (sliceSrc h) 0x03 none (64 * l.line))
  | .poisoned => (some ⟨l.bytes, true⟩, s)
  | .uncorrectable =>
    let x := s.slice h
    let s := (s.setSlice h { x with ue := satInc 32 x.ue }).fault (sliceSrc h) 0x04 none (64 * l.line)
    if l.dirty then (some ⟨l.bytes, true⟩, s.sliceStore h k l.line ⟨l.bytes, true⟩ true l.cls)
    else (none, s.setSlice h { s.slice h with lines := tdel (s.slice h).lines k })

/-- R205: read the copy that the slice serves. -/
def State.sliceRead (s : State) (h line : Nat) : Option LineData × State :=
  match if s.sliceUp h then sliceFind (s.slice h) line else none with
  | none => (none, s)
  | some (k, l) => s.slotRead h k l

/-- What a read of a copy would deliver, with no effect. -/
def SLine.peek (l : SLine) : Option LineData :=
  match lineClass l.chk with
  | .clean => some ⟨l.bytes, false⟩
  | .corrected i e => some ⟨correctLine l.bytes (.corrected i e), false⟩
  | .poisoned => some ⟨l.bytes, true⟩
  | .uncorrectable => if l.dirty then some ⟨l.bytes, true⟩ else none

/-- The slice's copy with no effect. -/
def State.slicePeek (s : State) (h line : Nat) : Option LineData :=
  (if s.sliceUp h then sliceFind (s.slice h) line else none).bind fun e => e.2.peek

/-! ### Quota and tokens (R325–R327) -/

def qosKey (d : Nat) (q : BitVec 3) : Nat := 8 * d + q.toNat

/-- A class field of the QOS section (Table 11-7). -/
def State.qosField (s : State) (q off n d : Nat) : Nat := s.img secQos (0x10 + 32 * q + off) n d

def State.quota (s : State) (d : Nat) (q : BitVec 3) : Nat :=
  tget s.qos.quota (qosKey d q) (s.qosField q.toNat 2 2 256)
def State.rate (s : State) (d : Nat) (q : BitVec 3) : Nat :=
  tget s.qos.rate (qosKey d q) (s.qosField q.toNat 8 4 6000000)

/-- Lines of a slice charged to a class (R326). -/
def chargedTo (x : Slice) (q : BitVec 3) : Nat := (x.lines.filter fun e => e.2.cls == q).length

/-- Whether the quota of a class permits one more line in a slice; a refusal is noted for the governor. -/
def State.quotaOk (s : State) (h : Nat) (q : BitVec 3) : Bool :=
  decide (chargedTo (s.slice h) q < s.quota (h / 96) q * 256)

def State.declined (s : State) (h : Nat) (q : BitVec 3) : State :=
  { s with qos := { s.qos with declined := insertNew s.qos.declined (qosKey (h / 96) q) } }

/-- Note the largest count of a class for the governor (OCC). -/
def State.noteOcc (s : State) (h : Nat) (q : BitVec 3) : State :=
  { s with qos := { s.qos with occ := tmod s.qos.occ (qosKey (h / 96) q) 0 (max (chargedTo (s.slice h) q)) } }

/-- The bucket of (d, q) filled up to now, in thousandths of a byte (R327). -/
def State.bucketNow (s : State) (d : Nat) (q : BitVec 3) : Nat :=
  let r := s.rate d q
  let b := tget s.qos.bucket (qosKey d q) (r * 10000, s.now)
  min (b.1 + (s.now - b.2) * r) (r * 10000)

/-- Take 64 bytes from the bucket, or note that it was starved. -/
def State.takeTokens (s : State) (d : Nat) (q : BitVec 3) : Bool × State :=
  let v := s.bucketNow d q
  if 64000 ≤ v then
    (true, { s with qos := { s.qos with
      bucket := tput s.qos.bucket (qosKey d q) (v - 64000, s.now),
      starved := if v < 128000 then insertNew s.qos.starved (qosKey d q) else s.qos.starved } })
  else
    (false, { s with qos := { s.qos with
      bucket := tput s.qos.bucket (qosKey d q) (v, s.now), starved := insertNew s.qos.starved (qosKey d q) } })

/-! ### Line writes toward the controllers (R294) -/

/-- A home's layer-1 request leaves and its timer starts (R274): `code` is its code in Table 10-1. -/
def State.askLayer1 (s : State) (line code : Nat) (m : Instr) : State :=
  ({ s with hier := { s.hier with layer1 := s.hier.layer1 ++ [(line, code, s.now)] } } : State).send m

/-- The home sends MWr and keeps the line until the controller's Cmp. -/
def State.homeWrite (s : State) (line : Nat) (d : LineData) : State :=
  ({ s with hier := { s.hier with wq := tput s.hier.wq line d } } : State).askLayer1 line 2 (.mwr line)

/-- A modified copy at place k of a slice's array goes to DRAM (R205, R307, R414). -/
def State.slotWrite (s : State) (h k : Nat) (l : SLine) : State :=
  if l.dirty then
    let (d, s) := s.slotRead h k l
    s.homeWrite l.line (d.getD ⟨l.bytes, true⟩)
  else s

/-- The tags of the set of a line are checked (R206): a correctable error is corrected in place. An uncorrectable one
invalidates its way and is reported; what the way alone held is poisoned in DRAM. -/
def State.sliceCheck (s : State) (h line : Nat) : State :=
  let b := line % 4096 * 16
  let bad := (s.slice h).lines.filter fun e => e.1 / 16 * 16 == b && e.2.tag != 0
  if !s.sliceUp h then s
  else
    bad.foldl (fun s e =>
      let x := s.slice h
      if e.2.tag == 1 then s.setSlice h { x with lines := tput x.lines e.1 { e.2 with tag := 0 } }
      else
        let s := (s.setSlice h { x with lines := tdel x.lines e.1 }).fault (sliceSrc h) 0x05 none (64 * e.2.line)
        if e.2.dirty then s.homeWrite e.2.line ⟨e.2.bytes, true⟩ else s) s

/-- Allocate a line in the slice: the lowest invalid way, else the LFSR's; a modified victim is written to DRAM (R198). -/
def State.sliceAlloc (s : State) (h line : Nat) (d : LineData) (dirty : Bool) (q : BitVec 3) : State :=
  let x := s.slice h
  let base := line % 4096 * 16
  let s :=
    match lowest (fun w => (tfind? x.lines (base + w)).isNone) 16 with
    | some w => s.sliceStore h (base + w) line d dirty q
    | none =>
      let lf := lfsrNext x.lfsr
      let key := base + lf.toNat % 16
      let s := s.setSlice h { x with lfsr := lf }
      let s := match tfind? x.lines key with
        | some v => s.slotWrite h key v
        | none => s
      s.sliceStore h key line d dirty q
  s.noteOcc h q

/-! ### The directory (R231–R233) -/

def dirBase (h line : Nat) : Nat := h * 2 ^ 15 + line % 2048 * 16

/-- The entry of a line: its place and state. -/
def State.dirFind (s : State) (h line : Nat) : Option (Nat × Dir) :=
  (List.range 16).findSome? fun w =>
    match tfind? s.hier.dirs (dirBase h line + w) with
    | some (l, d) => if l == line then some (dirBase h line + w, d) else none
    | none => none

def State.dirOf (s : State) (line : Nat) : Option Dir :=
  match s.locate line with
  | some p => (s.dirFind p.home line).map (·.2)
  | none => none

/-- Set the entry of a line, in its present way or the lowest free one. -/
def State.dirSet (s : State) (h line : Nat) (d : Dir) : State :=
  let key := match s.dirFind h line with
    | some (k, _) => some k
    | none => (lowest (fun w => (tfind? s.hier.dirs (dirBase h line + w)).isNone) 16).map (dirBase h line + ·)
  match key with
  | some k => { s with hier := { s.hier with dirs := tput s.hier.dirs k (line, d) } }
  | none => s

def State.dirFree (s : State) (h line : Nat) : State :=
  match s.dirFind h line with
  | some (k, _) => { s with hier := { s.hier with dirs := tdel s.hier.dirs k } }
  | none => s

/-- The enabled cores of a compute die. -/
def coresOf (c : Nat) : List Nat := (List.range 48).map fun i => 48 * c + i

/-- The cores a sharer field sends a snoop to (R232). -/
def Sharers.cores : Sharers → List Nat
  | .ptr l => l
  | .vec ds => (ds.map coresOf).flatten

def Sharers.add : Sharers → Nat → Sharers
  | .ptr l, c =>
    if l.contains c then .ptr l
    else if l.length < 3 then .ptr (l ++ [c])
    else .vec ((l ++ [c]).map (· / 48)).eraseDups
  | .vec ds, c => .vec (insertNew ds (c / 48))

/-- Remove a sharer; a vector stays as it is (R232). -/
def Sharers.remove : Sharers → Nat → Sharers
  | .ptr l, c => .ptr (l.filter (· != c))
  | .vec ds, _ => .vec ds

def Sharers.empty : Sharers → Bool
  | .ptr l => l.isEmpty
  | .vec ds => ds.isEmpty

def Sharers.lists : Sharers → Nat → Bool
  | .ptr l, c => l.contains c
  | .vec ds, c => ds.contains (c / 48)

/-- Whether the directory lists a core as a holder. -/
def Dir.lists : Dir → Nat → Bool
  | .s sh, c => sh.lists c
  | .x h, c => h == c
  | .o w sh, c => w == c || sh.lists c

/-- Every core that an invalidation goes to, the X holder or O owner first. -/
def Dir.holders : Dir → List Nat
  | .s sh => sh.cores
  | .x h => [h]
  | .o w sh => w :: sh.cores.filter (· != w)

/-- Whether a holder sits on another base die (R238). -/
def Dir.foreign (d : Dir) (base : Nat) : Bool :=
  match d with
  | .s (.vec ds) => ds.any fun c => c / 3 != base
  | .o w (.vec ds) => w / 144 != base || ds.any fun c => c / 3 != base
  | d => d.holders.any fun c => c / 144 != base

/-- The entry without one holder; none when nothing is left. -/
def Dir.without (d : Dir) (c : Nat) : Option Dir :=
  match d with
  | .s sh => let t := sh.remove c; if t.empty then none else some (.s t)
  | .x h => if h == c then none else some (.x h)
  | .o w sh =>
    if w == c then (if sh.empty then none else some (.s sh))
    else some (.o w (sh.remove c))

def State.dirRemove (s : State) (h line c : Nat) : State :=
  match s.dirFind h line with
  | some (_, d) =>
    match d.without c with
    | some d' => s.dirSet h line d'
    | none => s.dirFree h line
  | none => s

/-! ### Tracking maps of mirrored tenants (R395, R399) -/

/-- A core without any copy of a line; an evict-pending buffer takes the state I (Table 8-4). -/
def Core.purge (c : Core) (line : Nat) : Core :=
  { c with l1i := c.l1i.filter (fun e => e.2.line != line), l1d := c.l1d.filter (fun e => e.2.line != line),
           l2 := c.l2.filter (fun e => e.2.line != line), fmap := c.fmap.filter (fun e => e.2.line != line),
           evict := c.evict.map fun b => if b.line == line then { b with st := .i } else b }

/-- The newest copy of a line among the caches: modified L1D bytes, an M or O line of an L2 or of an evict-pending buffer. -/
def Core.modified (c : Core) (line : Nat) : Option LineData :=
  match c.l1d.find? fun e => e.2.line == line && e.2.dirty with
  | some e => some ⟨e.2.bytes, e.2.poison⟩
  | none =>
    match c.l2.find? fun e => e.2.line == line && (e.2.st == .m || e.2.st == .o) with
    | some e => some ⟨e.2.bytes, e.2.poison⟩
    | none => (c.evict.find? fun b => b.line == line && (b.st == .m || b.st == .o)).map fun b => ⟨b.bytes, b.poison⟩

/-- The home's own copy of a line, with no effect: a write under way, the slice's, DRAM's. -/
def State.homeCopy (s : State) (p : Place) (line : Nat) : LineData :=
  (tfind? s.hier.wq line).getD ((s.slicePeek p.home line).getD (s.dramPeek p line))

/-- The newest value of a line among the caches and the home, with no effect. -/
def State.homeValue (s : State) (p : Place) (line : Nat) : LineData :=
  (s.cores.findSome? fun e => e.2.modified line).getD (s.homeCopy p line)

/-- The home takes a line from every cache for an access of its own to it. DESIGN CHOICE (log 52): the snoops that this
takes and their answers are one step with the access; the directory entry is freed, so that it stays exact (R230). -/
def State.homeTake (s : State) (p : Place) (line : Nat) : LineData × State :=
  (s.homeValue p line, ({ s with cores := s.cores.map fun e => (e.1, e.2.purge line) } : State).dirFree p.home line)

/-- Place a line that the home itself has changed: in the slice where it holds the line, else in DRAM. -/
def State.homePlace (s : State) (p : Place) (line : Nat) (d : LineData) : State :=
  match if s.sliceUp p.home then sliceFind (s.slice p.home) line else none with
  | some (k, l) => s.sliceStore p.home k line d true l.cls
  | none => s.dramWrite p line d

/-- The slot and range of a line whose writes are marked: slot, index in its range, TRACK_BASE, LEN. -/
def State.trackOf (s : State) (line : Nat) : Option (Nat × Slot × Nat × Nat × Nat) :=
  s.mirror.slots.findSome? fun e =>
    if e.2.active && (e.2.st == .syncing || e.2.st == .guarded) then
      (e.2.ranges.find? fun r => r.1 ≤ 64 * line && 64 * line < r.1 + r.2.1).map fun r =>
        (e.1, e.2, line - r.1 / 64, r.2.2, r.2.1)
    else none

/-- The byte address of a bit of map p of a tracking area. -/
def trackByte (track len p i : Nat) : Nat := track + p * (len / 512) + i / 8

/-- A tracking bit as the home sees it. -/
def State.trackBit (s : State) (track len p i : Nat) : Bool :=
  let a := trackByte track len p i
  match s.locate (a / 64) with
  | some q => (s.homeValue q (a / 64)).bytes.getLsbD (8 * (a % 64) + i % 8)
  | none => false

/-- Set or clear a tracking bit. -/
def State.trackPut (s : State) (track len p i : Nat) (b : Bool) : State :=
  let a := trackByte track len p i
  match s.locate (a / 64) with
  | none => s
  | some q =>
    let (d, s) := s.homeTake q (a / 64)
    s.homePlace q (a / 64) ⟨setBit d.bytes (8 * (a % 64) + i % 8) b, d.poison⟩

/-- The home marks a line in the map its base die now marks in. -/
def State.markLine (s : State) (base line : Nat) : State :=
  match s.trackOf line with
  | none => s
  | some (m, sl, i, track, len) =>
    let p := (if sl.sealed.contains base then sl.epoch + 1 else sl.epoch) % 2
    if s.trackBit track len p i then s
    else
      let s := s.trackPut track len p i true
      { s with mirror := { s.mirror with
          slots := tput s.mirror.slots m
            (if sl.sealed.contains base then { sl with markedNext := sl.markedNext + 1 }
             else { sl with marked := sl.marked + 1, volume := sl.volume + 64 }) } }

/-- The mirror engine's node (Table 9-1). -/
def mirrorNode : Nat := 0x3DA

/-- The map of the epoch that a line's seal or capture belongs to: the tracking area, its length, the map, the bit. -/
def State.sealedMap (s : State) (base line : Nat) : Option (Nat × Nat × Nat × Nat) :=
  match s.trackOf line with
  | none => none
  | some (_, sl, i, track, len) =>
    if sl.sealed.contains base then some (track, len, sl.epoch % 2, i)
    else sl.capture.map fun c => (track, len, c.1 % 2, i)

/-- The sealed bit of a line stands, so that a request which would mark it waits for the capture read (R399). -/
def State.sealedBit (s : State) (base line : Nat) : Bool :=
  (s.sealedMap base line).any fun x => s.trackBit x.1 x.2.1 x.2.2.1 x.2.2.2

/-- The engine's capture read of a line clears its sealed bit in the same step (R399). -/
def State.captureClear (s : State) (base line : Nat) : State :=
  match s.sealedMap base line with
  | some x => if s.trackBit x.1 x.2.1 x.2.2.1 x.2.2.2 then s.trackPut x.1 x.2.1 x.2.2.1 x.2.2.2 false else s
  | none => s

/-! ### Queues and transactions -/

def State.txnAt (s : State) (line : Nat) : Option Txn := tfind? s.hier.txns line
def State.setTxn (s : State) (line : Nat) (t : Txn) : State :=
  { s with hier := { s.hier with txns := tput s.hier.txns line t } }
def State.endTxn (s : State) (line : Nat) : State := { s with hier := { s.hier with txns := tdel s.hier.txns line } }

def State.queueOf (s : State) (line : Nat) : List Queued := tget s.hier.queues line []
def State.setQueue (s : State) (line : Nat) (q : List Queued) : State :=
  { s with hier := { s.hier with queues := if q.isEmpty then tdel s.hier.queues line else tput s.hier.queues line q } }

/-- Transactions running at one slice (R235). -/
def State.txnCount (s : State) (h : Nat) : Nat :=
  (s.hier.txns.filter fun e => (s.locate e.1).any fun p => p.home == h).length

def snoopMsg (code : Nat) (r : Hdr) (c line : Nat) : Instr :=
  match code with
  | 1 => .snps r c line
  | 2 => .snpx r c line
  | 3 => .snpinv r c line
  | 4 => .snpcur r c line
  | 5 => .snpflush r c line
  | _ => .snpclean r c line

def hdrOf (m : Instr) : Hdr := (((reqInfo m).map (·.1)).getD ⟨0, 0, 0, 0, 0⟩)

/-- The plan of a request by the directory state it finds (Table 8-3, R246, R247, R252, R253). A line that a disabled cache
kept is written back whatever the directory holds (Table 7-5). -/
def planOf (m : Instr) (d : Option Dir) (accept : Nat) (bufState : L2St) (kept : Bool) : List Act :=
  let req := (hdrOf m).node
  let others (l : List Nat) := l.filter (· != req)
  let inv (l : List Nat) : List (Nat × Nat) := l.map fun c => (3, c)
  let listed := d.any (·.lists req)
  match m with
  | .rds _ _ sh _ =>
    match d with
    | none => [.fetch, .grant (if sh then 1 else 2), .await 1]
    | some (.s _) => [.fetch, .grant 1, .await 1]
    | some (.x h) => if h == req then [.fetch, .grant (if sh then 1 else 2), .await 1] else [.snoop [(1, h)], .afterS, .await 1]
    | some (.o h _) => if h == req then [.fetch, .grant 1, .await 1] else [.snoop [(1, h)], .afterS, .await 1]
  | .rdx _ _ _ => rdxPlan d req
  | .upg _ _ =>
    match d with
    | some (.s sh) => if listed then [.snoop (inv (others sh.cores)), .go, .await 1] else rdxPlan d req
    | some (.o w sh) => if w == req then [.snoop (inv (others sh.cores)), .go, .await 1] else rdxPlan d req
    | _ => rdxPlan d req
  | .claim _ _ =>
    match d with
    | none => [.go, .await 1]
    | some d => [.snoop (inv (others d.holders)), .go, .await 1]
  | .rdcur _ _ =>
    match d with
    | some (.x h) => [.snoop [(4, h)], .fetch, .reply 0x109]
    | some (.o h _) => [.snoop [(4, h)], .fetch, .reply 0x109]
    | _ => [.fetch, .reply 0x109]
  | .wrline _ _ _ =>
    match d with
    | none => [.put, .reply 2]
    | some d => [.snoop (inv d.holders), .put, .free, .reply 2]
  | .wrpart _ _ _ =>
    match d with
    | none => [.put, .reply 2]
    | some (.s sh) => [.snoop (inv sh.cores), .put, .free, .reply 2]
    | some (.x h) => [.snoop [(5, h)], .put, .free, .reply 2]
    | some (.o h sh) => [.snoop ((5, h) :: inv (sh.cores.filter (· != h))), .put, .free, .reply 2]
  | .wbreq _ _ =>
    if !listed then if kept && bufState != .i then [.reply 4, .await 2, .place true, .reply 2] else [.reply 5]
    else if bufState == .e || bufState == .s || bufState == .i then [.remove, .reply 5]
    else [.reply 4, .await 2, .place true, .remove, .reply 2]
  | .offer _ _ =>
    if !listed then [.reply 7]
    else if accept == 6 then [.reply 6, .await 2, .remove, .place false]
    else [.remove, .reply accept]
  | .drop _ _ =>
    if !listed then [.reply 2]
    else match d with
      | some (.o w sh) =>
        if w == req then [.snoop (inv (sh.cores.filter (· != w))), .free, .reply 2] else [.remove, .reply 2]
      | _ => [.remove, .reply 2]
  | .cwbreq _ _ =>
    match d with
    | some (.x h) => [.snoop [(6, h)], .clean, .reply 2]
    | some (.o h _) => [.snoop [(6, h)], .ownerShares, .clean, .reply 2]
    | _ => [.clean, .reply 2]
  | .cflreq _ _ =>
    match d with
    | none => [.clean, .dropSlice, .reply 2]
    | some (.s sh) => [.snoop (inv sh.cores), .clean, .dropSlice, .free, .reply 2]
    | some (.x h) => [.snoop [(5, h)], .clean, .dropSlice, .free, .reply 2]
    | some (.o h sh) => [.snoop ((5, h) :: inv (sh.cores.filter (· != h))), .clean, .dropSlice, .free, .reply 2]
  | .atom _ _ a =>
    let sn : List Act := match d with
      | none => []
      | some (.s sh) => [.snoop (inv sh.cores)]
      | some (.x h) => [.snoop [(5, h)]]
      | some (.o h sh) => [.snoop ((5, h) :: inv (sh.cores.filter (· != h)))]
    if a.uncached then sn ++ [.clean, .dropSlice, .free, .passAtom, .await 4] else sn ++ [.fetch, .free, .anvil]
  | _ => []
where
  /-- RdX, and Upg run as RdX. -/
  rdxPlan (d : Option Dir) (req : Nat) : List Act :=
    match d with
    | none => [.fetch, .grant 3, .await 1]
    | some (.s sh) => [.snoop ((sh.cores.filter (· != req)).map fun c => (3, c)), .fetch, .grant 3, .await 1]
    | some (.x h) => if h == req then [.fetch, .grant 3, .await 1] else [.snoop [(2, h)], .afterX, .await 1]
    | some (.o h sh) =>
      if h == req then [.snoop ((sh.cores.filter (· != req)).map fun c => (3, c)), .go, .await 1]
      else [.snoop ((2, h) :: (sh.cores.filter fun c => c != req && c != h).map fun c => (3, c)), .afterX, .await 1]

/-- The flush of a line that SEAL makes at its home: SnpFlush to the X holder or O owner, its data written at home (R396). -/
def sealPlan (d : Option Dir) : List Act :=
  match d with
  | some (.x h) => [.snoop [(5, h)], .store, .free]
  | some (.o h _) => [.snoop [(5, h)], .store, .ownerShares]
  | _ => []

/-- A removed range's line leaves every cache and the slice, modified data discarded (R338). -/
def discardPlan (d : Option Dir) : List Act :=
  (match d with
   | some d => [.snoop (d.holders.map fun c => (3, c))]
   | none => []) ++ [.dropSlice, .free, .reply 2]

/-- A flush that the home makes for the seal of a mirrored tenant: it has no requester (R396). -/
def isSeal : Instr → Bool
  | .cflreq r _ => r.node == mirrorNode
  | _ => false

/-- The plan of a request at its home: Table 8-3's, or that of a flush for a seal or for the removal of an enclave. -/
def State.homePlan (s : State) (m : Instr) (d : Option Dir) (accept : Nat) (b : L2St) (kept : Bool) : List Act :=
  match m with
  | .cflreq r _ =>
    if r.node == mirrorNode then sealPlan d
    else if r.node == 0x3EE && (s.sec.running.any fun w => !w.install && w.step == 1) then discardPlan d
    else planOf m d accept b kept
  | _ => planOf m d accept b kept

/-- Whether a request makes its requester a holder. -/
def makesHolder : Instr → Bool
  | .rds _ _ _ _ => true
  | .rdx _ _ _ => true
  | .upg _ _ => true
  | .claim _ _ => true
  | _ => false

/-- Whether a request writes the line or grants its ownership (R414). -/
def writesLine : Instr → Bool
  | .rdx _ _ _ => true
  | .upg _ _ => true
  | .claim _ _ => true
  | .wrline _ _ _ => true
  | .wrpart _ _ _ => true
  | .wbreq _ _ => true
  | .atom _ _ _ => true
  | _ => false

/-- Whether a request is one that R395 marks: its sealed bit holds it (R399). -/
def marksLine (m : Instr) (d : Option Dir) : Bool :=
  match m with
  | .rds _ _ sh _ => !sh && d.isNone
  | .rdx _ _ _ => true
  | .upg _ _ => true
  | .claim _ _ => true
  | .wrline _ _ _ => true
  | .wrpart _ _ _ => true
  | .atom _ _ _ => true
  | _ => false

/-- What an offer is answered (R213): AcceptHeld 8, Accept 6 or Decline 7. DESIGN CHOICE (log 51): where the slice holds the
line while ACCEPT_CLEAN is 0 or the quota forbids an allocation, both of the rule's cases apply, and the answer is
AcceptHeld, since nothing is allocated. -/
def State.offerAnswer (s : State) (h line : Nat) (q : BitVec 3) : Nat :=
  if s.sliceHolds h line then 8
  else if bit (s.slice h).ctl 0 && s.sliceReady h && s.quotaOk h q then 6
  else 7

/-- The data of a line as the requester is to see it, with the mark of a snoop timeout (R258). -/
def Txn.line (t : Txn) : LineData :=
  let d := t.data.getD ⟨0, true⟩
  ⟨d.bytes, d.poison || t.poison⟩

/-- What a transaction writes back: the holder's data, or, where a holder that never answered may have held newer bytes, the
home's with the mark (R258). -/
def State.lastLine (s : State) (line : Nat) (t : Txn) : LineData :=
  if t.fresh then t.line else ⟨((s.locate line).map fun p => (s.homeCopy p line).bytes).getD 0, true⟩

/-- The state of the copy that a core gives up, where it stands in an evict-pending buffer (Table 8-4). -/
def State.evictState (s : State) (c line : Nat) : L2St :=
  match (tget s.cores c Core.initial).evict.find? fun b => b.line == line with
  | some b => b.st
  | none => .m

/-- Write the newest data at the home: into the slice where it holds the line, else toward DRAM (R241). True when the home
must wait for the controller. -/
def State.homePut (s : State) (h line : Nat) (d : LineData) : Bool × State :=
  match if s.sliceUp h then sliceFind (s.slice h) line else none with
  | some (k, l) => (false, s.sliceStore h k line d true l.cls)
  | none => (true, s.homeWrite line d)

/-- Perform the acts of a transaction until one waits; true when the plan has ended. -/
def runActs : Nat → Nat → Nat → Nat → Txn → State → Bool × Txn × State
  | 0, _, _, _, t, s => (t.plan.isEmpty, t, s)
  | fuel + 1, line, h, base, t, s =>
    match t.plan with
    | [] => (true, t, s)
    | act :: rest =>
      let r := hdrOf t.req
      let next (t : Txn) (s : State) := runActs fuel line h base { t with plan := rest } s
      let stay (acts : List Act) (t : Txn) (s : State) : Bool × Txn × State :=
        runActs fuel line h base { t with plan := acts ++ rest } s
      match act with
      | .snoop ds =>
        if ds.isEmpty then next t s
        else (false, { t with plan := .await 0 :: rest, owed := ds.map (fun p => (p.2, p.1)),
                              holder := (ds.find? fun p => p.1 == 1 || p.1 == 2).map (·.2) },
          s.sendAll (ds.map fun p => snoopMsg p.1 r p.2 line))
      | .fetch =>
        if t.data.isSome then next t s
        else match tfind? s.hier.wq line with
          | some d => next { t with data := some d } s
          | none =>
            let (d?, s) := s.sliceRead h line
            match d? with
            | some d => next { t with data := some d } s
            | none =>
              let (ok, s) := s.takeTokens base r.cls
              if ok then
                let s := { s with qos := { s.qos with
                  used := tmod s.qos.used (qosKey base r.cls) 0 (· + 64),
                  tstat := tmod s.qos.tstat (4 * r.tid.toNat + base) 0 (· + 64) } }
                (false, { t with plan := .await 3 :: rest }, s.askLayer1 line 1 (.mrd line))
              else (false, { t with plan := .await 5 :: .fetch :: rest },
                { s with qos := { s.qos with waiting := insertNew s.qos.waiting line } })
      | .afterS =>
        match s.dirFind h line with
        | some (_, d) =>
          if t.forwarded then
            let own := match d with | .o w _ => w | .x w => w | .s _ => r.node
            let sh := match d with | .o _ sh => sh | _ => .ptr []
            let d' : Dir := if t.answer == .o then .o own (sh.add r.node) else .s ((sh.add own).add r.node)
            next t (s.dirSet h line d')
          else
            stay [.fetch, .grant (match d with | .s _ => 1 | _ => 2)] t s
        | none => stay [.fetch, .grant 2] t s
      | .afterX =>
        if t.forwarded then next t (((s.markLine base line).dirSet h line (.x r.node)).send (.go r line))
        else stay [.fetch, .grant 3] t s
      | .grant code =>
        let s := if code == 1 then s else s.markLine base line
        let d := t.line
        let dir : Option Dir := (s.dirFind h line).map (·.2)
        let dir' : Dir :=
          if code == 1 then
            match dir with
            | some (.s sh) => .s (sh.add r.node)
            | some (.o w sh) => .o w (sh.add r.node)
            | _ => .s (.ptr [r.node])
          else .x r.node
        let m : Instr := if code == 1 then .datas r line d else if code == 2 then .datae r line d else .datam r line d
        next t ((s.dirSet h line dir').send m)
      | .go => next t (((s.markLine base line).dirSet h line (.x r.node)).send (.go r line))
      | .put =>
        let s := s.markLine base line
        match t.req with
        | .wrline _ _ d =>
          let (w, s) := s.homePut h line ⟨d.bytes, d.poison || t.poison⟩
          if w then (false, { t with plan := .await 4 :: rest }, s) else next t s
        | .wrpart _ _ p =>
          let known : Option LineData := if t.fresh then some t.line else
            match tfind? s.hier.wq line with
            | some d => some d
            | none => none
          match known with
          | some d =>
            let (w, s) := s.homePut h line (mergePart ⟨d.bytes, d.poison || t.poison⟩ p)
            if w then (false, { t with plan := .await 4 :: rest }, s) else next t s
          | none =>
            let (d?, s) := s.sliceRead h line
            match d? with
            | some d =>
              let (_, s) := s.homePut h line (mergePart ⟨d.bytes, d.poison || t.poison⟩ p)
              next t s
            | none => (false, { t with plan := .await 4 :: rest },
                s.askLayer1 line 3 (.mmerge line { p with poison := p.poison || t.poison }))
        | _ => next t s
      | .clean =>
        if t.fresh || t.poison then
          let d := s.lastLine line t
          let s := match if s.sliceUp h then sliceFind (s.slice h) line else none with
            | some (k, l) => s.sliceStore h k line d false l.cls
            | none => s
          (false, { t with plan := .await 4 :: rest }, s.homeWrite line d)
        else
          match if s.sliceUp h then sliceFind (s.slice h) line else none with
          | some (k, l) =>
            if l.dirty then
              let s := s.slotWrite h k l
              let s := match sliceFind (s.slice h) line with
                | some (k, l) => s.setSlice h { s.slice h with lines := tput (s.slice h).lines k { l with dirty := false } }
                | none => s
              (false, { t with plan := .await 4 :: rest }, s)
            else next t s
          | none => next t s
      | .dropSlice => next t (s.sliceDrop h line)
      | .free => next t (s.dirFree h line)
      | .remove => next t (s.dirRemove h line r.node)
      | .ownerShares =>
        match s.dirFind h line with
        | some (_, .o w sh) =>
          let left := if t.answer == .i then sh else sh.add w
          next t (if left.empty then s.dirFree h line else s.dirSet h line (.s left))
        | _ => next t s
      | .place dirty =>
        let d := t.line
        match if s.sliceUp h then sliceFind (s.slice h) line else none with
        | some (k, l) => next t (s.sliceStore h k line d (dirty || l.dirty) l.cls)
        | none =>
          if s.sliceReady h && s.quotaOk h r.cls then next t (s.sliceAlloc h line d dirty r.cls)
          else if dirty then
            (false, { t with plan := .await 4 :: rest }, (s.declined h r.cls).homeWrite line d)
          else next t (s.declined h r.cls)
      | .store =>
        let (w, s) := s.homePut h line (s.lastLine line t)
        if w then (false, { t with plan := .await 4 :: rest }, s) else next t s
      | .anvil =>
        match t.req with
        | .atom _ pa a =>
          let s := s.markLine base line
          let d := t.line
          if d.poison || a.poison then next t (s.send (.atomdata r pa (atomLine a d.bytes (pa % 64)).1 true))
          else
            let (old, l) := atomLine a d.bytes (pa % 64)
            let s := s.send (.atomdata r pa old false)
            match if s.sliceUp h then sliceFind (s.slice h) line else none with
            | some (k, x) => next t (s.sliceStore h k line ⟨l, false⟩ true x.cls)
            | none =>
              if s.sliceReady h && s.quotaOk h r.cls then next t (s.sliceAlloc h line ⟨l, false⟩ true r.cls)
              else
                let x := s.slice h
                let s := (s.declined h r.cls).setSlice h { x with anvil := x.anvil ++ [(line, ⟨l, false⟩)] }
                (false, { t with plan := .await 4 :: rest }, s.homeWrite line ⟨l, false⟩)
        | _ => next t s
      | .passAtom =>
        match t.req with
        | .atom _ pa a => next t ((s.markLine base line).askLayer1 line 4 (.matom r pa a))
        | _ => next t s
      | .reply code =>
        let m : Instr := match code with
          | 2 => .cmp r line
          | 4 => .wbgo r line
          | 5 => .wbcancel r line
          | 6 => .accept r line
          | 7 => .decline r line
          | 8 => .acceptheld r line
          | _ => .curdata r line t.line
        let s := if code == 0x109 && r.node == mirrorNode then s.captureClear base line else s
        next t (s.send m)
      | .await w => if w == 1 && t.acked then next { t with acked := false } s else (false, t, s)

/-- Enough fuel for any plan. -/
def planFuel : Nat := 24

/-- The stale bit of a line's set, set while its bank group does not serve: it is not in RUN, or a row holds it stopped (R414,
R500). -/
def State.noteStale (s : State) (h line : Nat) : State :=
  let d := s.dom (bankDomain h)
  if d.st == .run && !d.stopped then s
  else if d.stale.contains (h, line % 4096) then s
  else s.setDom (bankDomain h) { d with stale := d.stale ++ [(h, line % 4096)] }

/-- A line is busy from the admission of a request until its transaction ends (R235), or while a request for it is still to
come after its grant or its withdrawal (R239). -/
def State.busy (s : State) (line : Nat) : Bool := (s.txnAt line).isSome || !(s.queueOf line).isEmpty

/-- The way whose line a recall takes: the LFSR advances until it reaches a way whose line is not busy (R233). -/
def recallWay (s : State) (b : Nat) : Nat → BitVec 16 → Option (Nat × BitVec 16)
  | 0, _ => none
  | n + 1, lf =>
    let lf := lfsrNext lf
    let k := b + lf.toNat % 16
    match tfind? s.hier.dirs k with
    | some (l, _) => if s.busy l then recallWay s b n lf else some (l, lf)
    | none => recallWay s b n lf

/-- Ways of a line's directory set that are taken: entries, and those that running requests for lines without one will take
(R231, R233). -/
def State.dirTaken (s : State) (h line : Nat) : Nat :=
  ((List.range 16).filter fun w => (tfind? s.hier.dirs (dirBase h line + w)).isSome).length +
  (s.hier.txns.filter fun e => ((s.locate e.1).any fun p => p.home == h) && e.1 % 2048 == line % 2048 && e.1 != line &&
    !e.2.recalls && makesHolder e.2.req && (s.dirFind h e.1).isNone).length

/-- The recall of a victim line runs for the request at the head of a line's queue. -/
def State.recalling (s : State) (line : Nat) : Bool :=
  s.hier.txns.any fun e => e.2.recalls && ((reqInfo e.2.req).map (·.2.1)) == some line

/-- An Atom that an Anvil unit runs (R252). -/
def anvilAtom : Instr → Bool
  | .atom _ _ a => !a.uncached
  | _ => false

/-- The request at the head of a line's queue cannot run yet: it has not arrived or waits for its grant, all 48
transactions or all 16 Anvil buffers of the slice are in use, or a sealed bit holds it (R235, R239, R252, R399). -/
def State.headWaits (s : State) (p : Place) (line : Nat) (q : Queued) (m : Instr) : Bool :=
  let here (e : Nat × Txn) : Bool := (s.locate e.1).any fun r => r.home == p.home
  q.waitGrant || decide (48 ≤ s.txnCount p.home) ||
    (anvilAtom m && decide (16 ≤ (s.hier.txns.filter fun e => here e && anvilAtom e.2.req).length)) ||
    (marksLine m ((s.dirFind p.home line).map (·.2)) && s.sealedBit p.base line)

/-- The order credit of a request returns when it begins to run (R282). -/
def State.creditBack (s : State) (p : Place) (q : Queued) : State :=
  match q.via with
  | some st => { s with hier := { s.hier with order := { s.hier.order with
      used := tmod s.hier.order.used (4 * st + p.base) 0 (· - 1) } } }
  | none => s

/-- The recall that must make room in a full directory set (R233): the victim line, its transaction. -/
def State.startRecall (s : State) (h line : Nat) (m : Instr) : Option (Nat × Txn × State) :=
  (recallWay s (dirBase h line) 256 (s.slice h).lfsr).bind fun r =>
    (s.dirFind h r.1).map fun e =>
      let x := s.slice h
      let ds := match e.2 with
        | .s sh => sh.cores.map fun c => (3, c)
        | .x c => [(5, c)]
        | .o c sh => (5, c) :: (sh.cores.filter (· != c)).map fun c => (3, c)
      (r.1, ⟨m, [.snoop ds, .store, .free], [], none, false, false, .i, false, true, none, false, s.now⟩,
        s.setSlice h { x with lfsr := r.2, recalls := (x.recalls + 1) % 2 ^ 32 })

/-- Whether a giving-up message or Upg comes from a core that the directory no longer lists (R246). -/
def isStale (m : Instr) (dir : Option Dir) : Bool :=
  let un := !(dir.any (·.lists (hdrOf m).node))
  match m with
  | .wbreq _ _ => un
  | .offer _ _ => un
  | .drop _ _ => un
  | .upg _ _ => un
  | _ => false

/-- Start the request at the head of a line's queue, or first the recall it needs: the transaction, with the line it runs
for. -/
def State.startHead (s : State) (line : Nat) : Option (Nat × Txn × State) :=
  match s.txnAt line, s.queueOf line, s.locate line with
  | none, q :: qs, some p =>
    match q.req with
    | none => none
    | some m =>
      let h := p.home
      let dir : Option Dir := (s.dirFind h line).map (·.2)
      if s.headWaits p line q m || s.recalling line then none
      else if makesHolder m && dir.isNone && decide (16 ≤ s.dirTaken h line) then s.startRecall h line m
      else
        let r := hdrOf m
        let acc := s.offerAnswer h line r.cls
        let x := s.slice h
        let s := if isStale m dir then s.setSlice h { x with stale := (x.stale + 1) % 2 ^ 32 } else s
        let s := if writesLine m then s.noteStale h line else s
        let s := match m with
          | .offer _ _ => if acc == 7 && !s.quotaOk h r.cls then s.declined h r.cls else s
          | _ => s
        some (line, ⟨m, s.homePlan m dir acc (s.evictState r.node line)
          ((tget s.cores r.node Core.initial).kept.contains line), [], none, false, false, .i, false, false, none, false, s.now⟩,
          (s.setQueue line qs).creditBack p q)
  | _, _, _ => none

/-- A recall or a seal's flush whose holder gave no newer data has nothing to place. -/
def Txn.trim (t : Txn) : Txn :=
  match t.plan with
  | .store :: rest => if (t.recalls || isSeal t.req) && !t.fresh && !t.poison then { t with plan := rest } else t
  | _ => t

/-- Run the transaction of a line on; when it ends, start what waits. `fuel` bounds the transactions started. -/
def State.pump : Nat → Nat → State → State
  | 0, _, s => s
  | fuel + 1, line, s =>
    match s.txnAt line with
    | some t =>
      match s.locate line with
      | none => s
      | some p =>
        let (done, t', s) := runActs planFuel line p.home p.base t.trim s
        if done then
          let s := s.endTxn line
          let nxt := if t'.recalls then (((reqInfo t'.req).map (·.2.1)).getD line) else line
          State.pump fuel nxt s
        else s.setTxn line (if t'.plan == t.plan then t' else { t' with since := s.now })
    | none =>
      match s.startHead line with
      | some (v, t, s) => State.pump fuel v (s.setTxn v t)
      | none => s

/-- Run a line's home as far as it goes. -/
def State.pumpLine (s : State) (line : Nat) : State := s.pump (2 * (s.queueOf line).length + 4) line

/-- Heads of other lines start that waited for a transaction slot, an Anvil buffer or a directory way (R235, R252). -/
def State.wakeHeads : Nat → State → State
  | 0, s => s
  | fuel + 1, s =>
    State.wakeHeads fuel
      (((s.hier.queues.map (·.1)).filter fun l => (s.txnAt l).isNone).foldl (fun s l => s.pumpLine l) s)

/-- A line's home goes on as far as it can, and with it every line whose head it lets start. -/
def State.kick (s : State) (line : Nat) : State :=
  let s := s.pumpLine line
  s.wakeHeads s.hier.queues.length

/-- A message reached the transaction of a line that waited for `what`: it goes on. -/
def State.resume (s : State) (line what : Nat) (f : Txn → Txn) : State :=
  match s.txnAt line with
  | some t =>
    match t.plan with
    | .await w :: rest =>
      if w == what then (s.setTxn line { f t with plan := rest }).kick line else s
    | _ => s
  | none => s

/-! ### Admission (R235–R240, R337) -/

/-- Whether the home denies a request: an owned line and a node that no core's check covers (R337). -/
def State.denied (s : State) (node line : Nat) : Bool :=
  decide (0x240 ≤ node) && node != 0x3EE && (rangeOwner s.sec.baseRanges line).isSome

/-- A place in a queue belongs to a request: requester, TAG and GEN, or requester and line for a WrLine (R282). -/
def sameReq (q : Queued) (h : Hdr) (wl : Bool) : Bool :=
  q.node == h.node && (if wl then q.tag == none else q.tag == some h.tag && q.gen == h.gen)

/-- A token belongs to a request. -/
def Token.isFor (t : Token) (h : Hdr) (line : Nat) (wl : Bool) : Bool :=
  t.node == h.node && t.line == line && t.wl == wl && (wl || (t.tag == h.tag && t.gen == h.gen))

/-- A place in a queue for a request that has arrived. -/
def Queued.of (h : Hdr) (wl : Bool) (m : Option Instr) (waitGrant : Bool) (via : Option Nat) : Queued :=
  ⟨h.node, if wl then none else some h.tag, h.gen, m, waitGrant, via⟩

/-- Change the first element that a test picks. -/
def modFirst {α : Type} (t : α → Bool) (f : α → α) : List α → List α
  | [] => []
  | x :: xs => if t x then f x :: xs else x :: modFirst t f xs

/-- A request joins its line's queue: the mirror engine's capture read goes ahead of the requests that the line's sealed bit
holds (R399), any other request to the end. -/
def State.enqueue (s : State) (base line : Nat) (q : Queued) : State :=
  s.setQueue line (if q.node == mirrorNode && s.sealedBit base line then q :: s.queueOf line else s.queueOf line ++ [q])

/-- A request that its home or a fence answers with Err is admitted nowhere: its token, or the place its grant kept in the
queue, is withdrawn, and what waited behind it goes on. -/
def State.withdraw (s : State) (h : Hdr) (line : Nat) (wl : Bool) : State :=
  let o := s.hier.order
  let here (q : Queued) : Bool := sameReq q h wl && q.req.isNone
  let s := match s.locate line, (s.queueOf line).find? here with
    | some p, some q => s.creditBack p q
    | _, _ => s
  let s : State := { s with hier := { s.hier with order := { s.hier.order with
    posted := tmap (fun ts => ts.filter fun t => !t.isFor h line wl) o.posted } } }
  (s.setQueue line ((s.queueOf line).filter fun q => !here q)).kick line

/-- A request arrives at its home. -/
def State.homeArrive (s : State) (m : Instr) : State :=
  match reqInfo m with
  | none => s
  | some (h, line, wl) =>
    match s.locate line with
    | none => s
    | some p =>
      let s := s.sliceCheck p.home line
      if s.denied h.node line then (s.withdraw h line wl).send (.err h (64 * line) 9)
      else if s.farOrdered m then
        let here (q : Queued) : Bool := sameReq q h wl && q.req.isNone
        if (s.queueOf line).any here then
          (s.setQueue line (modFirst here (fun q => { q with req := some m }) (s.queueOf line))).kick line
        else
          let posted := ((s.hier.order.posted.map (·.2)).flatten).any fun t => t.isFor h line wl
          let s := if posted then s else s.postToken (tokenOf (stationOf h.node) h line wl)
          { s with hier := { s.hier with order := { s.hier.order with early := s.hier.order.early ++ [m] } } }
      else if decide (2 ≤ s.bases.length) && ((s.dirFind p.home line).any fun d => d.2.foreign p.base) then
        let s := s.postToken (tokenOf p.base h line wl)
        s.enqueue p.base line (.of h wl (some m) true none)
      else (s.enqueue p.base line (.of h wl (some m) false none)).kick line

/-- Order entries that a station may hold at a base die: 1,024 shared equally among the enabled stations (R282). -/
def State.creditShare (s : State) : Nat := 1024 / (s.bases.length + 1)

/-- The token that a station may post at its turn: the oldest, while it holds a credit for the home's base die (R282). -/
def State.mayPost (s : State) (st : Nat) : Option (Token × List Token) :=
  match tget s.hier.order.posted st [] with
  | [] => none
  | t :: ts =>
    match s.locate t.line with
    | some p => if tget s.hier.order.used (4 * st + p.base) 0 < s.creditShare then some (t, ts) else none
    | none => some (t, ts)

/-- The station whose turn it is: the first in cyclic order from the turn that can post a token, which takes a credit
(R240, R282). -/
def State.nextToken (s : State) : Option (Token × State) :=
  let o := s.hier.order
  (((List.range 5).map fun i => (o.turn + i) % 5).findSome? fun st =>
    (s.mayPost st).map fun r => (st, r.1, r.2)).map fun r =>
    (r.2.1, { s with hier := { s.hier with order :=
      { o with
        posted := tput o.posted r.1 r.2.2, turn := (r.1 + 1) % 5,
        used := match s.locate r.2.1.line with
          | some p => tmod o.used (4 * r.1 + p.base) 0 (· + 1)
          | none => o.used } } })

/-- Count an admission at an order-channel grant (HOME_CNT0.ORDERED). -/
def State.countOrdered (s : State) (h : Nat) : State :=
  let x := s.slice h
  s.setSlice h { x with ordered := (x.ordered + 1) % 2 ^ 32 }

/-- The home's station observes a grant: the matching request is admitted, or its place is kept (R239). -/
def State.takeIn (s : State) (t : Token) : State :=
  match s.locate t.line with
  | none => s
  | some p =>
    let h : Hdr := ⟨t.node, t.tag, t.gen, 0, 0⟩
    let q := s.queueOf t.line
    let s := s.countOrdered p.home
    let withdrawn (x : Queued) : Bool := x.waitGrant && sameReq x h t.wl
    if q.any withdrawn then
      (s.setQueue t.line (modFirst withdrawn (fun x => { x with waitGrant := false, via := some t.station }) q)).kick t.line
    else
      match takeFirst (fun m => match reqInfo m with
          | some (h, l, wl) => t.isFor h l wl
          | none => false) s.hier.order.early with
      | some (m, rest) =>
        let s := { s with hier := { s.hier with order := { s.hier.order with early := rest } } }
        (s.enqueue p.base t.line (.of h t.wl (some m) false (some t.station))).kick t.line
      | none => s.enqueue p.base t.line (.of h t.wl none false (some t.station))

/-- A token as the order waveguide carries it, 64 bits (R282). -/
def Token.word (t : Token) : Word :=
  BitVec.ofNat 64 (t.station * 2 ^ 61 + t.wl.toNat * 2 ^ 60 + t.tag % 256 * 2 ^ 52 + t.node % 1024 * 2 ^ 42 +
    t.gen.toNat * 2 ^ 40 + t.line % 2 ^ 35)

/-- A station cannot correct a grant (R283): it counts the frame, stops admitting ordered requests and reports it. -/
def State.grantLost (s : State) (st : Nat) : State :=
  let fb := s.fabBlock (stationFab st)
  let s := s.setFab (stationFab st) { fb with crcFail := satInc 32 fb.crcFail }
  let o := s.hier.order
  if o.lost.contains st then s
  else ({ s with hier := { s.hier with order := { o with lost := o.lost ++ [st] } } } : State).fault (if st == 4 then stationSrc st else srcCode 1 st 0x63) 0x26 none 0

/-- ORDER_GRANT_OBSERVED (R239, R240, R283): the ring arbiter grants one token, in a frame of its own. A station that cannot
correct the grant counts the frame in RING_ERR, stops admitting ordered requests and reports it. -/
def State.grantToken (s : State) (lostAt : Option Nat) : State :=
  match s.nextToken with
  | none => s
  | some (t, s) =>
    let s := { s with hier := { s.hier with order := { s.hier.order with
      frame := ringFrame (t.word.setWidth 592) 0 0 false false } } }
    let s := match lostAt with
      | some n => if n == 4 || s.baseEn n then s.grantLost n else s
      | none => s
    match s.locate t.line with
    | some p => if s.hier.order.lost.contains p.base then s else s.takeIn t
    | none => s

/-! ### Snoop answers at the home -/

/-- What a holder answered: forwarded to the requester, data for the home, the state it keeps, or that it had no copy. -/
structure Answer where
  state : L2St
  data : Option LineData
  present : Bool
  late : Bool
  deriving DecidableEq, Repr

/-- R245, R222: one snoop answer arrives; with the last, the transaction goes on. A holder that never answered counts as
invalid (R258). -/
def State.answered (s : State) (c line : Nat) (a : Answer) : State :=
  match s.txnAt line, s.locate line with
  | some t, some p =>
    match t.owed.find? fun o => o.1 == c with
    | none => s
    | some (_, code) =>
      let s := if a.late then s.dirRemove p.home line c
        else if a.present then s
        else match s.dirFind p.home line with
          | some (_, .s (.vec _)) => s
          | some (_, .o w (.vec _)) => if w == c then s.dirRemove p.home line c else s
          | some _ => s.dirRemove p.home line c
          | none => s
      let t := { t with
        owed := t.owed.filter fun o => o.1 != c,
        forwarded := t.forwarded || (a.present && (code == 1 || code == 2) && !a.late && a.data.isNone),
        answer := if code != 3 then (if a.present then a.state else .i) else t.answer,
        data := match a.data with | some d => some d | none => t.data,
        fresh := t.fresh || a.data.isSome }
      let s := s.setTxn line t
      if t.owed.isEmpty then s.resume line 0 id else s
  | _, _ => s

/-- A snoop answer arrives; one that answers a snoop given up is discarded (R258). -/
def State.snoopAnswered (s : State) (c line : Nat) (a : Answer) : State :=
  if s.hier.lateSnoops.contains (c, line) then
    { s with hier := { s.hier with lateSnoops := s.hier.lateSnoops.erase (c, line) } }
  else s.answered c line a

/-- A snoop of a line, or a holder's answer to one, is under way: the answer can still come. -/
def snoopOf (c line : Nat) : Instr → Bool
  | .snps _ g l => g == c && l == line
  | .snpx _ g l => g == c && l == line
  | .snpinv _ g l => g == c && l == line
  | .snpcur _ g l => g == c && l == line
  | .snpflush _ g l => g == c && l == line
  | .snpclean _ g l => g == c && l == line
  | .acki g l => g == c && l == line
  | .acks g l => g == c && l == line
  | .acke g l => g == c && l == line
  | .acko g l => g == c && l == line
  | .notpresent g l => g == c && l == line
  | .snpdata g l _ _ => g == c && l == line
  | _ => false

/-- A home's wait that began at a time has reached TIMEOUT_NS of class 0 (R258, R274, R278). -/
def State.homeDue (s : State) (since : Nat) : Bool := decide (since + s.timeoutNs 0 ≤ s.now)

/-- HOME_SNOOP_TIMEOUT (R258): the line of an X holder or O owner that never answered is poisoned. -/
def State.snoopTimeout (s : State) (line c : Nat) : State :=
  match s.txnAt line, s.locate line with
  | some t, some p =>
    if !(t.owed.any fun o => o.1 == c) || !s.homeDue t.since then s
    else
      let x := s.slice p.home
      let s := s.setSlice p.home { x with snoopTimeouts := (x.snoopTimeouts + 1) % 2 ^ 32 }
      let s := s.fault (sliceSrc p.home) 0x10 (some (hdrOf t.req).tid) (64 * line)
      let owner := match s.dirFind p.home line with
        | some (_, .x h) => h == c
        | some (_, .o w _) => w == c
        | _ => false
      let coming := s.inflight.any (snoopOf c line) || (s.dom c).held.any (snoopOf c line)
      let s := if coming then { s with hier := { s.hier with lateSnoops := s.hier.lateSnoops ++ [(c, line)] } } else s
      (s.setTxn line { t with poison := t.poison || owner }).answered c line ⟨.i, none, true, true⟩
  | _, _ => s

/-- HOME_WAIT_EXPIRED (R278): lost data is poison, a missing CmpAck ends the transaction. -/
def State.waitExpired (s : State) (line : Nat) : State :=
  match s.txnAt line, s.locate line with
  | some t, some p =>
    let rep (s : State) := s.fault (sliceSrc p.home) 0x11 (some (hdrOf t.req).tid) (64 * line)
    if !s.homeDue t.since then s
    else match t.plan with
    | .await 1 :: _ => (rep s).resume line 1 id
    | .await 2 :: _ => (rep s).resume line 2 fun t => { t with data := some ⟨0, true⟩, fresh := true }
    | .await 3 :: _ => (rep s).resume line 3 fun t => { t with data := some ⟨0, true⟩ }
    | _ => s
  | _, _ => s

/-! ### Layer-1 answers (R275, R293, R416) -/

/-- The header under which a controller answers a home: the transaction's TAG, GEN, tenant and class (R265, R266). -/
def State.homeHdr (s : State) (p : Place) (line : Nat) : Hdr :=
  { ((s.txnAt line).map fun t => hdrOf t.req).getD ⟨0, 0, 0, 0, 0⟩ with node := homeNode p.home }

/-- The last answer to a layer-1 request of a line has come, for the oldest of them that the test on codes picks. -/
def State.layer1Over (s : State) (line : Nat) (f : Nat → Bool) : State :=
  { s with hier := { s.hier with layer1 := s.hier.layer1.eraseP fun r => r.1 == line && f r.2.1 } }

/-- A late layer-1 answer, of a request that timed out, is discarded; any other is taken (R276). -/
def State.layer1Answer (s : State) (line : Nat) (f : State → State) : State :=
  if s.hier.l1Late.contains line then { s with hier := { s.hier with l1Late := s.hier.l1Late.erase line } } else f s

/-- R416: a controller answered Err for the home's read or write of a line: the requester of the transaction sees it;
where none waits, the data is lost and reported. -/
def State.homeErr (s : State) (line : Nat) (code : BitVec 16) : State :=
  match s.locate line with
  | none => s
  | some p =>
    let lost := (tfind? s.hier.wq line).isSome
    let s := s.layer1Over line fun _ => true
    let s := { s with hier := { s.hier with wq := tdel s.hier.wq line } }
    let s := s.setSlice p.home { s.slice p.home with anvil := (s.slice p.home).anvil.filter fun a => a.1 != line }
    match s.txnAt line with
    | some t =>
      let passes := match t.plan, t.req with
        | .await 3 :: _, _ => !t.recalls
        | .await 4 :: _, .wrline _ _ _ => true
        | .await 4 :: _, .wrpart _ _ _ => true
        | .await 4 :: _, .cwbreq _ _ => true
        | .await 4 :: _, .cflreq _ _ => !isSeal t.req
        | .await 4 :: .reply _ :: _, _ => false
        | .await 4 :: [], .atom _ _ a => a.uncached
        | _, _ => false
      match t.plan with
      | .await w :: _ =>
        if w == 3 || w == 4 then
          let s := if passes && !t.recalls then (s.endTxn line).send (.err (hdrOf t.req) (64 * line) code)
            else s.fault (sliceSrc p.home) 0x22 (some (hdrOf t.req).tid) (64 * line)
          if passes && !t.recalls then s.kick line else s.resume line w id
        else if lost then s.fault (sliceSrc p.home) 0x22 none (64 * line) else s
      | _ => if lost then s.fault (sliceSrc p.home) 0x22 none (64 * line) else s
    | none => if lost then s.fault (sliceSrc p.home) 0x22 none (64 * line) else s

/-! ### Haze reads (R248) -/

/-- The answer to a HazeRd: nothing at the home changes. -/
def State.hazeAnswer (s : State) (h : Hdr) (line : Nat) : State :=
  match s.locate line with
  | none => s
  | some p =>
    let free := match s.dirFind p.home line with
      | none => true
      | some (_, .s _) => true
      | some _ => false
    match s.slicePeek p.home line with
    | some d => if !s.busy line && free then s.send (.hazedata h line d) else s.send (.hazeno h line)
    | none => s.send (.hazeno h line)

/-! ### The slice prefetcher (R210) -/

/-- One update of a tracker list by R208: the new list and the lines to request. `key` selects the tracker. -/
def trackStep (ts : Table Tracker) (core : Nat) (hash : BitVec 10) (a dist degree : Nat) (miss : Bool) (size : Nat)
    (victim : Nat) : Table Tracker × List Nat × Bool :=
  match ts.find? fun e => e.2.hash == hash && e.2.core == core with
  | none =>
    if miss then
      match lowest (fun i => (tfind? ts i).isNone) size with
      | some i => (tput ts i ⟨core, hash, a, 0, 0⟩, [], false)
      | none => (tput ts (victim % size) ⟨core, hash, a, 0, 0⟩, [], true)
    else (ts, [], false)
  | some (i, t) =>
    let e : Int := (a : Int) - t.last
    let t' : Tracker :=
      if e == 0 then t
      else if e.natAbs ≤ 32 && e == t.stride then { t with conf := min (t.conf + 1) 3, last := a }
      else { t with stride := e, conf := 0, last := a }
    let ls := if t'.conf ≥ 1 then
        (List.range degree).filterMap fun j =>
          let v : Int := (a : Int) + t'.stride * ((dist + j : Nat) : Int)
          if v ≥ 0 && v.toNat / 64 == a / 64 then some v.toNat else none
      else []
    (tput ts i t', ls, false)

/-- R210: a missing request that carries a hash trains the slice's trackers and may fill lines from DRAM. -/
def State.slicePrefetch (s : State) (h : Hdr) (line : Nat) (hash : Option (BitVec 10)) : State :=
  match hash, s.locate line with
  | some hs, some p =>
    let x := s.slice p.home
    if bit x.ctl 1 && s.sliceUp p.home && !(s.sliceHolds p.home line) then
      let lf := lfsrNext x.lfsr
      let (ts, ls, used) := trackStep x.trackers h.node hs line (fld x.ctl 4 4 + 1) (fld x.ctl 2 2 + 1) true 64 lf.toNat
      let s := s.setSlice p.home { x with trackers := ts, lfsr := if used then lf else x.lfsr }
      ls.foldl (fun s l =>
        match s.locate l with
        | some q =>
          if q.base == p.base && s.runs (stackDomain q.stack) && !(s.sliceHolds q.home l) && s.sliceReady q.home
              && (tfind? s.hier.wq l).isNone then
            if s.quotaOk q.home h.cls then
              let (d, s) := s.dramRead q l
              if d.poison then s else s.sliceAlloc q.home l d false h.cls
            else s.declined q.home h.cls
          else s
        | none => s) s
    else s
  | _, _ => s

end Sys2Proof.Machine
end

