-- ==== Sys2Proof/Machine/Flits.lean ====
section
/-! DEFINITION. The messages of the data hierarchy as flits (R264–R266, R280), and the order in which messages arrive (R19,
R263). -/

namespace Sys2Proof.Machine

/-! ### Flits (R264–R266) -/

/-- What a flit says of its message (Tables 9-2, 9-3, 8-2, 10-1). -/
structure FlitInfo where
  vn : Nat
  opc : Nat
  layer : Nat
  src : Nat
  dst : Nat
  hdr : Hdr
  poison : Bool
  st : Nat
  addr : Option Nat
  payload : BitVec 512
  deriving DecidableEq, Repr

/-- The 2-bit code of a holder's state in SnpData (Table 9-2). -/
def stCode : L2St → Nat
  | .i => 0
  | .s => 1
  | .e => 2
  | .o => 3
  | .m => 2

/-- The 48 payload bytes of a WrPart (Table 8-2). -/
def partPayload (p : Part) : BitVec 512 :=
  BitVec.ofNat 512 (p.data.toNat + 2 ^ 256 * p.mask.toNat + 2 ^ 288 * p.offset.toNat)

/-- The payload bytes of an Atom: operand and compare value in bytes 0–31, operation, size and order after them. -/
def atomPayload (a : AtomOp) : BitVec 512 :=
  BitVec.ofNat 512 (a.operand.toNat + 2 ^ 128 * a.compare.toNat +
    2 ^ 256 * (a.op.toNat + 16 * a.wide.toNat + 32 * a.order.toNat + 128 * a.uncached.toNat))

/-- The requester's node, TAG and GEN in bytes 48–51 of a snoop (R265). -/
def snoopPayload (r : Hdr) : BitVec 512 :=
  BitVec.ofNat 512 (2 ^ 384 * (r.node + 2 ^ 16 * (r.tag % 256) + 2 ^ 24 * r.gen.toNat))

/-- The node of a line's home and of its stack controller. -/
def State.homeOf (s : State) (line : Nat) : Nat := ((s.locate line).map fun p => homeNode p.home).getD 0
def State.ctrlOf (s : State) (line : Nat) : Nat := ((s.locate line).map fun p => 0x3C0 + p.stack).getD 0

/-- The register node that serves an address of device space, the guest port for the guest window (Table 9-1, Table 1-3). -/
def regNode (pa : Nat) : Nat :=
  if isGuestWindow pa then 0x3DB
  else if pa < 0xF000100000000 then 0x3DD
  else if pa < 0xF001000000000 then 0x3DE + (pa - 0xF000100000000) / 2 ^ 32
  else 0x3E2 + (pa - 0xF001000000000) / 2 ^ 32

/-- The node a VN0 request goes to: the line's home, or the register node of an address of device space (R260). -/
def State.targetOf (s : State) (pa : Nat) : Nat := if isDevice pa then regNode pa else s.homeOf (pa / 64)

/-- The sender of an Err: the controller that answers a home, else the target that the request went to (Table 9-4). -/
def State.errSource (s : State) (h : Hdr) (pa : Nat) : Nat :=
  if 0x240 ≤ h.node ∧ h.node < 0x3C0 then s.ctrlOf (pa / 64) else s.targetOf pa

/-- The sender of AtomData: the stack controller where the atomic is uncached, else the home (Table 8-2, R253). -/
def State.atomSource (s : State) (h : Hdr) (pa : Nat) : Nat :=
  match (s.tag h.node h.tag).req with
  | some (.atom _ _ a) => if a.uncached then s.ctrlOf (pa / 64) else s.homeOf (pa / 64)
  | _ => s.homeOf (pa / 64)

/-- The request of an access into the guest window: RdCur, WrLine or WrPart (R249, R376). -/
def guestFlit (h : Hdr) (pa : Nat) : GuestOp → FlitInfo
  | .rd => ⟨0, 5, 0, h.node, 0x3DB, h, false, 0, some (pa / 64 * 64), 0⟩
  | .wr d => ⟨0, 6, 0, h.node, 0x3DB, h, d.poison, 0, some (pa / 64 * 64), d.bytes⟩
  | .wrp p => ⟨0, 7, 0, h.node, 0x3DB, h, p.poison, 0, some (pa / 64 * 64), partPayload p⟩

/-- The header of the transaction that runs for a line. -/
def State.txnHdr (s : State) (line : Nat) : Hdr := ((s.txnAt line).map fun t => hdrOf t.req).getD ⟨0, 0, 0, 0, 0⟩

/-- The holder that a running transaction forwards from (R265). -/
def State.holderOf (s : State) (line : Nat) : Option Nat := (s.txnAt line).bind (·.holder)

/-- The flit of a message of the data hierarchy; none for what the management tree carries, and for an Err that its
initiator gives itself (UNMAPPED and TIMEOUT, Table 9-4). -/
def State.flitOf (s : State) (m : Instr) : Option FlitInfo :=
  let home (l : Nat) := s.homeOf l
  let ctrl (l : Nat) := s.ctrlOf l
  let rq (opc : Nat) (h : Hdr) (l : Nat) (p : BitVec 512) : Option FlitInfo :=
    some ⟨0, opc, 0, h.node, s.targetOf (64 * l), h, false, 0, some (64 * l), p⟩
  let sn (opc : Nat) (r : Hdr) (c l : Nat) : Option FlitInfo :=
    some ⟨1, opc, 0, home l, c, r, false, 0, some (64 * l), snoopPayload r⟩
  let rs (opc : Nat) (h : Hdr) (l : Nat) : Option FlitInfo :=
    some ⟨2, opc, 0, home l, h.node, h, false, 0, none, 0⟩
  let ak (opc : Nat) (c l : Nat) : Option FlitInfo :=
    some ⟨2, opc, 0, c, home l, s.txnHdr l, false, 0, none, 0⟩
  let dt (opc src : Nat) (h : Hdr) (d : LineData) : Option FlitInfo :=
    some ⟨3, opc, 0, src, h.node, h, d.poison, 0, none, d.bytes⟩
  match m with
  | .rds h l _ _ => rq 1 h l 0
  | .rdx h l _ => rq 2 h l 0
  | .upg h l => rq 3 h l 0
  | .claim h l => rq 4 h l 0
  | .rdcur h l => rq 5 h l 0
  | .wrline h l d => some ⟨0, 6, 0, h.node, s.targetOf (64 * l), h, d.poison, 0, some (64 * l), d.bytes⟩
  | .wrpart h l p => (rq 7 h l (partPayload p)).map fun f => { f with poison := p.poison }
  | .atom h pa a => (rq 8 h (pa / 64) (atomPayload a)).map fun f => { f with addr := some pa, poison := a.poison }
  | .guestWindowAccess h off op => some (guestFlit h (0xF100000000000 + off) op)
  | .wbreq h l => rq 9 h l 0
  | .offer h l => rq 10 h l 0
  | .drop h l => rq 11 h l 0
  | .cwbreq h l => rq 12 h l 0
  | .cflreq h l => rq 13 h l 0
  | .hazerd h l => rq 14 h l 0
  | .snps r c l => sn 1 r c l
  | .snpx r c l => sn 2 r c l
  | .snpinv r c l => sn 3 r c l
  | .snpcur r c l => sn 4 r c l
  | .snpflush r c l => sn 5 r c l
  | .snpclean r c l => sn 6 r c l
  | .go h l => rs 1 h l
  | .cmp h l =>
    if 0x240 ≤ h.node ∧ h.node < 0x3C0 then some ⟨2, 2, 0, ctrl l, h.node, h, false, 0, none, 0⟩
    else
      let src := s.targetOf (64 * l)
      let addr := if h.tag == 256 then some (64 * l) else none
      some ⟨2, 2, 0, src, h.node, if h.tag == 256 then { h with tag := 0, gen := 0 } else h, false, 0, addr, 0⟩
  | .cmpack h l => some ⟨2, 3, 0, h.node, home l, h, false, 0, none, 0⟩
  | .wbgo h l => rs 4 h l
  | .wbcancel h l => rs 5 h l
  | .accept h l => rs 6 h l
  | .decline h l => rs 7 h l
  | .acceptheld h l => rs 8 h l
  | .acki c l => ak 9 c l
  | .acks c l => ak 10 c l
  | .acke c l => ak 11 c l
  | .acko c l => ak 12 c l
  | .notpresent c l => ak 13 c l
  | .hazeno h l => rs 14 h l
  | .err h pa code =>
    if code == 1 || code == 5 then none
    else some ⟨2, 15, 0, s.errSource h pa, h.node, h, false, 0, none, code.setWidth 512⟩
  | .datas h l d => dt 1 (home l) h d
  | .datae h l d => dt 2 (home l) h d
  | .datam h l d => dt 3 (home l) h d
  | .fwds h l d => dt 4 ((s.holderOf l).getD (home l)) h d
  | .fwdm h l d => dt 5 ((s.holderOf l).getD (home l)) h d
  | .snpdata c l d st => some ⟨3, 6, 0, c, home l, s.txnHdr l, d.poison, stCode st, none, d.bytes⟩
  | .wbdata h l d => some ⟨3, 7, 0, h.node, home l, h, d.poison, 0, none, d.bytes⟩
  | .offerdata h l d => some ⟨3, 8, 0, h.node, home l, h, d.poison, 0, none, d.bytes⟩
  | .curdata h l d => dt 9 (s.targetOf (64 * l)) h d
  | .hazedata h l d => dt 10 (home l) h d
  | .atomdata h pa o p => some ⟨3, 11, 0, s.atomSource h pa, h.node, h, p, 0, none, o.setWidth 512⟩
  | .mrd l => some ⟨1, 1, 1, home l, ctrl l, s.txnHdr l, false, 0, some (64 * l), 0⟩
  | .mwr l => some ⟨1, 2, 1, home l, ctrl l, s.txnHdr l, false, 0, some (64 * l), 0⟩
  | .mmerge l p => some ⟨1, 3, 1, home l, ctrl l, s.txnHdr l, p.poison, 0, some (64 * l), partPayload p⟩
  | .matom r pa a => some ⟨1, 4, 1, home (pa / 64), ctrl (pa / 64), r, a.poison, 0, some pa, atomPayload a ||| snoopPayload r⟩
  | .mwrgo l => some ⟨2, 1, 1, ctrl l, home l, s.txnHdr l, false, 0, none, 0⟩
  | .mwrdata l d => some ⟨3, 1, 1, home l, ctrl l, s.txnHdr l, d.poison, 0, none, d.bytes⟩
  | .mdata l d => some ⟨3, 2, 1, ctrl l, home l, s.txnHdr l, d.poison, 0, none, d.bytes⟩
  | _ => none

/-- Word 0 of a flit: the address header for a WrLine, else the routed header (Tables 9-2 and 9-3). -/
def FlitInfo.header (f : FlitInfo) : Word :=
  if f.vn == 0 && f.opc == 6 && f.layer == 0 then
    BitVec.ofNat 64 (6 * 2 ^ 58 + f.poison.toNat * 2 ^ 57 + f.hdr.tid.toNat * 2 ^ 45 + f.src * 2 ^ 35 +
      (f.addr.getD 0) / 64 % 2 ^ 35)
  else
    BitVec.ofNat 64 (f.vn * 2 ^ 62 + f.opc * 2 ^ 58 + f.layer * 2 ^ 56 + f.poison.toNat * 2 ^ 55 +
      f.hdr.gen.toNat * 2 ^ 53 + f.hdr.tag % 256 * 2 ^ 45 + f.src * 2 ^ 35 + f.hdr.tid.toNat * 2 ^ 23 + f.st * 2 ^ 21)

/-- Words 1 to 8: payload bytes 0–63, with the address in bytes 56–63 where R265 puts one; a WrLine carries its line. -/
def FlitInfo.body (f : FlitInfo) : BitVec 512 :=
  match f.addr with
  | some a => if f.vn == 0 && f.opc == 6 && f.layer == 0 then f.payload else setFld f.payload 448 64 a
  | none => f.payload

/-- The 72 bytes of a flit, word 0 first. -/
def FlitInfo.bits (f : FlitInfo) : BitVec 576 := BitVec.ofNat 576 (f.header.toNat + 2 ^ 64 * f.body.toNat)

/-- The route word: DEST, CLASS and even parity (R266). -/
def FlitInfo.route (f : FlitInfo) : BitVec 16 :=
  let w := f.dst + 2 ^ 12 * f.hdr.cls.toNat
  BitVec.ofNat 16 (w + 2 ^ 15 * (popcount w 15 % 2))

/-- Whether R265 gives a message an address that a router checks. -/
def FlitInfo.addressed (f : FlitInfo) : Bool :=
  f.addr.isSome && !(f.vn == 0 && f.opc == 6 && f.layer == 0)

/-- The message with POISON set (R267). -/
def poisonMsg : Instr → Instr
  | .wrline h l d => .wrline h l ⟨d.bytes, true⟩
  | .wrpart h l p => .wrpart h l { p with poison := true }
  | .atom h pa a => .atom h pa { a with poison := true }
  | .matom r pa a => .matom r pa { a with poison := true }
  | .guestWindowAccess h o (.wr d) => .guestWindowAccess h o (.wr ⟨d.bytes, true⟩)
  | .guestWindowAccess h o (.wrp p) => .guestWindowAccess h o (.wrp { p with poison := true })
  | .datas h l d => .datas h l ⟨d.bytes, true⟩
  | .datae h l d => .datae h l ⟨d.bytes, true⟩
  | .datam h l d => .datam h l ⟨d.bytes, true⟩
  | .fwds h l d => .fwds h l ⟨d.bytes, true⟩
  | .fwdm h l d => .fwdm h l ⟨d.bytes, true⟩
  | .snpdata c l d st => .snpdata c l ⟨d.bytes, true⟩ st
  | .wbdata h l d => .wbdata h l ⟨d.bytes, true⟩
  | .offerdata h l d => .offerdata h l ⟨d.bytes, true⟩
  | .curdata h l d => .curdata h l ⟨d.bytes, true⟩
  | .hazedata h l d => .hazedata h l ⟨d.bytes, true⟩
  | .atomdata h pa o _ => .atomdata h pa o true
  | .mmerge l p => .mmerge l { p with poison := true }
  | .mwrdata l d => .mwrdata l ⟨d.bytes, true⟩
  | .mdata l d => .mdata l ⟨d.bytes, true⟩
  | m => m

/-! ### Reading a flit (R264–R266, R280) -/

/-- The fields of a flit that has no address header, its route word above it. -/
structure RawFlit where
  vn : Nat
  opc : Nat
  poison : Bool
  gen : BitVec 2
  tag : Nat
  src : Nat
  tid : BitVec 12
  st : Nat
  cls : BitVec 3
  dst : Nat
  body : BitVec 512
  deriving DecidableEq, Repr

def rawFlit (w : BitVec 592) : RawFlit :=
  ⟨fld w 62 2, fld w 58 4, w.getLsbD 55, w.extractLsb' 53 2, fld w 45 8, fld w 35 10, w.extractLsb' 23 12, fld w 21 2,
    w.extractLsb' 588 3, fld w 576 10, w.extractLsb' 64 512⟩

/-- The address in bytes 56 to 63. -/
def RawFlit.addr (f : RawFlit) : Nat := fld f.body 448 52
def RawFlit.line (f : RawFlit) : Nat := f.addr / 64
def RawFlit.data (f : RawFlit) : LineData := ⟨f.body, f.poison⟩

/-- The header under which the sender of a request is answered. -/
def RawFlit.req (f : RawFlit) : Hdr := ⟨f.src, f.tag, f.gen, f.tid, f.cls⟩
/-- The header of a response, which names the request of the node that it reaches. -/
def RawFlit.resp (f : RawFlit) : Hdr := ⟨f.dst, f.tag, f.gen, f.tid, f.cls⟩
/-- The requester that a snoop names (R265). -/
def RawFlit.snooper (f : RawFlit) : Hdr :=
  ⟨fld f.body 384 10, fld f.body 400 8, f.body.extractLsb' 408 2, f.tid, f.cls⟩

/-- The layout of a WrPart and of an Atom, read back. -/
def RawFlit.part (f : RawFlit) : Part :=
  ⟨f.body.setWidth 256, f.body.extractLsb' 256 32, f.body.extractLsb' 288 6, f.poison⟩
def RawFlit.atomOp (f : RawFlit) : AtomOp :=
  { op := f.body.extractLsb' 256 4, wide := f.body.getLsbD 260, order := f.body.extractLsb' 261 2,
    operand := f.body.setWidth 128, compare := f.body.extractLsb' 128 128, uncached := f.body.getLsbD 263,
    poison := f.poison }

/-- The address of the request that a response names by TAG. -/
def State.tagAddr (s : State) (f : RawFlit) : Option Nat := ((s.tag f.dst f.tag).req).map reqAddr

/-- The line of the transaction at the node it reaches that a message names by TAG and GEN, with `src` its requester where
the message comes from the requester itself. -/
def State.tagLine (s : State) (f : RawFlit) (src : Option Nat) : Option Nat :=
  (s.hier.txns.find? fun e =>
    let h := hdrOf e.2.req
    s.homeOf e.1 == f.dst && h.tag == f.tag && h.gen == f.gen && (src.isNone || src == some h.node)).map (·.1)

/-- A VN0 message. -/
def RawFlit.request (f : RawFlit) : Option Instr :=
  let l := f.line
  match f.opc with
  | 1 => some (.rds f.req l false none)
  | 2 => some (.rdx f.req l none)
  | 3 => some (.upg f.req l)
  | 4 => some (.claim f.req l)
  | 5 => some (.rdcur f.req l)
  | 7 => some (.wrpart f.req l f.part)
  | 8 => some (.atom f.req f.addr f.atomOp)
  | 9 => some (.wbreq f.req l)
  | 10 => some (.offer f.req l)
  | 11 => some (.drop f.req l)
  | 12 => some (.cwbreq f.req l)
  | 13 => some (.cflreq f.req l)
  | 14 => some (.hazerd f.req l)
  | _ => none

/-- A WrLine, by its address header (Table 9-3). -/
def wrLineOf (w : BitVec 592) : Instr :=
  .wrline ⟨fld w 35 10, 256, 0, w.extractLsb' 45 12, w.extractLsb' 588 3⟩ (fld w 0 35) ⟨w.extractLsb' 64 512, w.getLsbD 57⟩

/-- A snoop. -/
def RawFlit.snoop (f : RawFlit) : Option Instr :=
  match f.opc with
  | 1 => some (.snps f.snooper f.dst f.line)
  | 2 => some (.snpx f.snooper f.dst f.line)
  | 3 => some (.snpinv f.snooper f.dst f.line)
  | 4 => some (.snpcur f.snooper f.dst f.line)
  | 5 => some (.snpflush f.snooper f.dst f.line)
  | 6 => some (.snpclean f.snooper f.dst f.line)
  | _ => none

/-- A VN2 message. A Cmp that answers a WrLine names its line (R265). -/
def State.response (s : State) (f : RawFlit) : Option Instr :=
  let mine (mk : Hdr → Nat → Instr) : Option Instr := (s.tagAddr f).map fun a => mk f.resp (a / 64)
  let ack (mk : Nat → Nat → Instr) : Option Instr := (s.tagLine f none).map fun l => mk f.src l
  match f.opc with
  | 1 => mine .go
  | 2 =>
    if f.addr != 0 || (f.tag == 0 && s.hier.wrLines.any fun w => w.1 == f.dst && w.2.1 == 0) then
      some (.cmp { f.resp with tag := 256, gen := 0 } f.line)
    else mine .cmp
  | 3 => (s.tagLine f (some f.src)).map fun l => .cmpack f.req l
  | 4 => mine .wbgo
  | 5 => mine .wbcancel
  | 6 => mine .accept
  | 7 => mine .decline
  | 8 => mine .acceptheld
  | 9 => ack .acki
  | 10 => ack .acks
  | 11 => ack .acke
  | 12 => ack .acko
  | 13 => ack .notpresent
  | 14 => mine .hazeno
  | 15 => (s.tagAddr f).map fun a => .err f.resp a (f.body.setWidth 16)
  | _ => none

/-- A VN3 message. -/
def State.dataFlit (s : State) (f : RawFlit) : Option Instr :=
  let mine (mk : Hdr → Nat → LineData → Instr) : Option Instr := (s.tagAddr f).map fun a => mk f.resp (a / 64) f.data
  match f.opc with
  | 1 => mine .datas
  | 2 => mine .datae
  | 3 => mine .datam
  | 4 => mine .fwds
  | 5 => mine .fwdm
  | 6 => (s.tagLine f none).map fun l => .snpdata f.src l f.data ([L2St.i, .s, .e, .o].getD f.st .i)
  | 7 => (s.tagLine f (some f.src)).map fun l => .wbdata f.req l f.data
  | 8 => (s.tagLine f (some f.src)).map fun l => .offerdata f.req l f.data
  | 9 => mine .curdata
  | 10 => mine .hazedata
  | 11 => (s.tagAddr f).map fun a => .atomdata f.resp a (f.body.setWidth 128) f.poison
  | _ => none

/-- The message that a flit and its route word spell, by Tables 8-2, 9-2 and 9-3; none where they spell none. Layer-1
messages stay on their base die and never cross the ring. -/
def State.unflit (s : State) (w : BitVec 592) : Option Instr :=
  let f := rawFlit w
  if f.vn == 0 && f.opc == 6 then some (wrLineOf w)
  else if fld w 56 2 != 0 then none
  else
    match f.vn with
    | 0 => f.request
    | 1 => f.snoop
    | 2 => s.response f
    | _ => s.dataFlit f

/-- The flit of a message with its route word, as a ring frame carries it. -/
def FlitInfo.wire (f : FlitInfo) : BitVec 592 := BitVec.ofNat 592 (f.bits.toNat + 2 ^ 576 * f.route.toNat)

/-! ### The order of arrivals (R19, R263) -/

/-- The way of a message: its virtual network, or 4 for the management tree and 5 for a ring channel, with its sender and its
receiver. -/
structure Route where
  net : Nat
  src : Nat
  dst : Nat
  deriving DecidableEq, Repr

/-- Units of the management tree beside the cores, which go by their numbers: hub units at 1,000, dies at 2,000, stacks at
3,000, domains at 4,000, fault sources at 10,000. -/
def treeMirror : Nat := 1022
def treeRouter : Nat := 1030
def treeWarden : Nat := 1031
def treePower : Nat := 1032
def treeCollector : Nat := 1033

/-- The way of a message of the management tree whose sender and receiver it names or implies. A ROUTER_MESSAGE, a
SEQ_TABLE_REQUEST and a FULL_RESET name no sender (notes/assumptions/53.md). -/
def treeRoute : Instr → Option Route
  | .faultMessage src _ _ _ => some ⟨4, 10000 + src.toNat, treeCollector⟩
  | .interruptDelivery c _ _ => some ⟨4, treeRouter, c⟩
  | .residencyUpdate c _ _ => some ⟨4, c, treeRouter⟩
  | .residencyAnswer c _ _ => some ⟨4, treeRouter, c⟩
  | .blockNotice u _ => some ⟨4, treeRouter, 1000 + u⟩
  | .drainedNotice u _ _ => some ⟨4, 1000 + u, treeRouter⟩
  | .scrubbedNotice u _ => some ⟨4, 1000 + u, treeRouter⟩
  | .tlbiBroadcastTake c i => some ⟨4, i, c⟩
  | .keyUpdate k => some ⟨4, treeWarden, 3000 + k⟩
  | .gateCheck c _ _ _ => some ⟨4, c, treeWarden⟩
  | .saveAreaAcked c => some ⟨4, c, treeWarden⟩
  | .pauseNoticeCore c _ => some ⟨4, treeMirror, c⟩
  | .pauseNoticeEngine u _ => some ⟨4, treeMirror, 1000 + u⟩
  | .routerPauseNotice _ => some ⟨4, treeMirror, treeRouter⟩
  | .routerRecordRequest _ => some ⟨4, treeMirror, treeRouter⟩
  | .pausedNotice u _ => some ⟨4, if u == 2048 then treeRouter else if 1024 ≤ u then u - 24 else u, treeMirror⟩
  | .sealNotice n _ => some ⟨4, treeMirror, 2000 + n⟩
  | .sealedNotice n _ => some ⟨4, 2000 + n, treeMirror⟩
  | .sleepRequest d => some ⟨4, treePower, 4000 + d⟩
  | .sleepAnswer d _ => some ⟨4, 4000 + d, treePower⟩
  | .cacheSectionArrival c d => some ⟨4, treePower, 2000 + 4 * c.toNat + d⟩
  | .ringFrameReceive src dst ch _ => some ⟨5, 5 * src + dst, ch⟩
  | _ => none

/-- The way of a message. -/
def State.routeOf (s : State) (m : Instr) : Option Route :=
  match treeRoute m with
  | some l => some l
  | none => (s.flitOf m).map fun f => ⟨f.vn, f.src, f.dst⟩

/-- A message of the same way, sent earlier, is still under way. -/
def State.overtakes (s : State) (m : Instr) : Bool :=
  match s.routeOf m with
  | none => false
  | some l => (s.inflight.takeWhile (· != m)).any fun e => s.routeOf e == some l

/-- The message's flit is inside the fabric, short of the node it goes to. -/
def State.inFabric (s : State) (m : Instr) : Bool := s.hier.flights.any fun f => f.msg == m && !f.path.isEmpty

/-- The message can arrive now: it has left the fabric, and no earlier one of its way is still under way (R19, R263). -/
def State.mayArrive (s : State) (m : Instr) : Bool := !s.inFabric m && !s.overtakes m

/-- The effect of a message's arrival. A command that names a message before its turn changes nothing. -/
def onArrival (ok : Bool) (m : Instr) (s : State) (f : State → State) : Out :=
  onWf ok (if s.mayArrive m then f (s.arrive m) else s)

end Sys2Proof.Machine
end

