-- ==== Sys2Proof/Machine/CoreBase.lean ====
section
/-! DEFINITION. A core's registers, the windows in which a write takes effect (R116), performance events, predictor flushes,
and exception entry as one shared operation (R104–R108). -/

namespace Sys2Proof.Machine

/-! ### Cores and their registers -/

def State.core (s : State) (g : Nat) : Core := tget s.cores g Core.initial
def State.setCore (s : State) (g : Nat) (c : Core) : State := { s with cores := tput s.cores g c }
def State.modCore (s : State) (g : Nat) (f : Core → Core) : State := s.setCore g (f (s.core g))

def srCacheEn : Nat := 0x140
def srPfCtl : Nat := 0x141
def srTid : Nat := 0x80
def srQos : Nat := 0x81

/-- Reset values of system registers that are not 0 (Tables 4-5 and 11-1, R104). -/
def srReset (n : Nat) : Word :=
  if n = 0x15 then 0x0000FFFFFFFFFFFF
  else if 0x8C ≤ n ∧ n ≤ 0x93 then BitVec.allOnes 64
  else if n = 0x95 ∨ n = 0x96 then BitVec.allOnes 64
  else 0

/-- The last value written to a system register (R117). -/
def Core.reg (c : Core) (n : Nat) : Word := tget c.sr n (srReset n)

def Core.setReg (c : Core) (n : Nat) (v : Word) : Core := { c with sr := tput c.sr n v }

/-- The value a register under open windows has for the free-value index `n`; none: the register's own (R116, R118). -/
def Core.pick (c : Core) (n r : Nat) : Option Word :=
  let ws := c.win.filter fun w => w.reg == r
  (ws[Config.windowPick n r % (ws.length + 1)]?).map (·.old)

/-- A system register as a free-value index sees it. -/
def Core.at (c : Core) (i n : Nat) : Word := (c.pick i n).getD (c.reg n)

/-- A system register as the instruction at P sees it: old or new while a window is open, one choice for the whole of the
instruction (R116). -/
def Core.eff (c : Core) (n : Nat) : Word := c.at c.idx n

/-- SW's fields by the number of their window: 0x400 PL, 0x401 IE, 0x402 SS, 0x403 EX (Table 4-2). -/
def swField (n : Nat) : Nat × Nat := [(0, 2), (3, 1), (4, 1), (5, 1)].getD (n - 0x400) (0, 0)

def swPl (w : Word) : Nat := fld w 0 2
def swEm (w : Word) : Bool := bit w 2
def swIe (w : Word) : Bool := bit w 3
def swSs (w : Word) : Bool := bit w 4
def swEx (w : Word) : Bool := bit w 5
def swPb (w : Word) : Bool := bit w 8

/-- R220: the effective enables. -/
def Core.l2On (c : Core) : Bool := bit (c.eff srCacheEn) 2
def Core.l1dOn (c : Core) : Bool := bit (c.eff srCacheEn) 1 && c.l2On
def Core.l1iOn (c : Core) : Bool := bit (c.eff srCacheEn) 0 && c.l2On

def Core.tid (c : Core) : BitVec 12 := (c.eff srTid).setWidth 12
def Core.cls (c : Core) : BitVec 3 := (c.eff srQos).setWidth 3

/-- SW as the instruction at P sees it. -/
def Core.seenSw (c : Core) : Word :=
  c.win.foldl (fun w x => match c.pick c.idx x.reg with
    | some v => if 0x400 ≤ x.reg then setFld w (swField x.reg).1 (swField x.reg).2 v.toNat else w
    | none => w) c.sw
def Core.eid (c : Core) : Nat := fld (c.reg 0x100) 0 10

/-! ### Performance events (R159–R164) -/

/-- PMSELn's event is counted at the level that `sw` gives (R159, R161); `i` is the event's free-value index. -/
def pmuCounts (c : Core) (ext : Bool) (sw : Word) (i n ev : Nat) : Bool :=
  let sel := c.at i (0xD0 + n)
  fld sel 0 12 == ev && ev != 0 && bit sel (16 + min (swPl sw) 2) && (decide (ev < 0x100) || ext)

/-- Counting goes on: enabled, outside enclave mode, not frozen (R159, R164). -/
def Core.counting (c : Core) (sw : Word) (i : Nat) : Bool :=
  let ctl := c.at i 0xE0
  bit ctl 0 && !swEm sw && !(bit ctl 2 && fld (c.at i 0xE1) 0 16 != 0)

/-- Add to PMCn; a wrap sets PMOVF and, with INT, holds COUNTER_OVERFLOW pending (Table 5-6, R162). DESIGN CHOICE (log 51): a
wrap inside a window of PMOVF sets the bit in the value written last. -/
def Core.addPmc (c : Core) (i n k : Nat) : Core :=
  let v := fld (c.reg (0xC0 + n)) 0 48 + k
  let c := c.setReg (0xC0 + n) (BitVec.ofNat 64 (v % 2 ^ 48))
  if v ≥ 2 ^ 48 then
    let c := c.setReg 0xE1 (setBit (c.reg 0xE1) n true)
    if bit (c.at i (0xD0 + n)) 20 then { c with ovf := setBit c.ovf n true } else c
  else c

/-- Count an event `k` times on every counter that selects it. `i` is the event's own free-value index: inside the windows
of PMSEL, PMCTL, PMC and PMOVF each event counts under the old or the new setting independently (R163). An event that finds
the old value of a PMC adds to that value, which the write has replaced. -/
def Core.event (c : Core) (ext : Bool) (sw : Word) (i ev k : Nat) : Core :=
  (List.range 16).foldl (fun c n =>
    if c.counting sw i && pmuCounts c ext sw i n ev && (c.pick i (0xC0 + n)).isNone then c.addPmc i n k else c) c

/-- Events whose number of occurrences only time fixes (Table 5-10, class Always, FETCH_BLOCKS, LOAD_LONG). -/
def timedEvents : List Nat := [0x003, 0x012, 0x013, 0x014, 0x015, 0x01A, 0x100, 0x101]

/-- Events of class Always or Selectable that wrong-path work may cause. -/
def wrongPathEvents : List Nat := [0x005, 0x006, 0x009, 0x00A, 0x00B, 0x00C, 0x00D, 0x00E, 0x016, 0x018]

/-- What time and wrong-path work add to the counters during one instruction (R160): free counts; FE_STEPS counts the pacer
turns that STEP_COUNT counts (R139). -/
def Core.extra (c : Core) (ext : Bool) (sw : Word) (n : Nat) : Core :=
  (List.range 16).foldl (fun c i =>
    let sel := c.at n (0xD0 + i)
    let ev := fld sel 0 12
    let on := timedEvents.contains ev || ev == 0x00F || ev == 0x011 || (wrongPathEvents.contains ev && bit sel 19)
    if on && c.counting sw n && pmuCounts c ext sw n i ev then c.addPmc n i (Config.extraEvents n ev % 2 ^ 48) else c)
    (c.event ext sw n 0x002 (Config.pacerTurns n))

/-- An event at a core, at the level that `sw` gives, `k` times. -/
def State.event (s : State) (g : Nat) (sw : Word) (ev : Nat) (k : Nat := 1) : State :=
  ({ s with free := s.free + 1 } : State).modCore g fun c => c.event (s.cap 6) sw s.free ev k

/-- An event of class Never: it counts when the instruction at P retires (R160, R162). -/
def State.dueEvent (s : State) (g ev : Nat) : State := s.modCore g fun c => { c with due := c.due ++ [ev] }

/-! ### Predictor and context switches (R103, R153, R209) -/

/-- Both predictor tables and the path history are cleared. -/
def Core.predFlush (c : Core) : Core := { c with pred := ⟨[], [], 0⟩ }

/-- A context switch: the predictor is flushed, PB clears, trackers and the frame-operand map are cleared. -/
def Core.contextSwitch (c : Core) : Core :=
  { c.predFlush with sw := setBit c.sw 8 false, trackers := [], fmap := [] }

/-- Every translation entry goes (R185). -/
def Core.tlbFlush (c : Core) : Core :=
  { c with itlb := [], dtlb := [], l2tlb := [], wcache := [], fmap := [] }

/-! ### Writes and windows (R116–R119) -/

/-- A write takes effect: what other parts of the core see of it (R185, R312, R200, R221, R223). -/
def State.srEffect (s : State) (g : Nat) (w : Win) : State :=
  let c := s.core g
  if (0x40 ≤ w.reg ∧ w.reg ≤ 0x72) then s.setCore g c.tlbFlush
  else if w.reg = srTid then (s.setCore g c.tlbFlush).send (.residencyUpdate g c.tid false)
  else if w.reg = 0x142 then
    s.setCore g { c with lfsrI := seedOf ((c.reg 0x142).setWidth 16), lfsrC := seedOf ((c.reg 0x142 >>> 16).setWidth 16) }
  else if w.reg = 0x143 then s.setCore g { c with lfsr2 := seedOf ((c.reg 0x143).setWidth 16) }
  else if w.reg = srCacheEn then
    let new := c.reg srCacheEn
    let on2 (v : Word) := bit v 2
    let on1 (v : Word) := bit v 1 && bit v 2
    let c := if on1 w.old && !on1 new then { c with fmap := [] } else c
    let left := (on1 w.old && !on1 new && c.l1d.any fun e => e.2.dirty) ||
      (on2 w.old && !on2 new && c.l2.any fun e => e.2.st == .m || e.2.st == .o)
    if left then
      (s.setCore g ({ c with cleaned := [] }.setReg srCacheEn (setBit new 4 true))).fault (s.coreSrc g) 0x06 none 0
    else s.setCore g c
  else s

/-- A register is written with an effect distance of 1: its open windows close (R116). -/
def Core.setNow (c : Core) (n : Nat) (v : Word) : Core := { c with win := c.win.filter fun x => x.reg != n }.setReg n v

/-- A system register is written with an effect distance: the window counts the writing instruction too, so that the `dist`
− 1 instructions after it see either value (R116). A distance of 1 also closes earlier windows of the register. -/
def State.srWrite (s : State) (g n : Nat) (v : Word) (dist : Nat) : State :=
  let c := s.core g
  let w : Win := ⟨n, c.reg n, dist⟩
  if dist ≤ 1 then
    (s.setCore g (c.setNow n v)).srEffect g w
  else s.setCore g ({ c with win := c.win ++ [w] }.setReg n v)

/-- One instruction has executed: windows close once only later instructions remain that see the new value. -/
def State.tick (s : State) (g : Nat) : State :=
  let c := s.core g
  let ws := c.win.map fun w => { w with left := w.left - 1 }
  let s := s.setCore g { c with win := ws.filter fun w => w.left != 0 }
  (ws.filter fun w => w.left == 0).foldl (fun s w => s.srEffect g w) s

/-- Every open window closes (R107, R119). -/
def State.closeWindows (s : State) (g : Nat) : State :=
  let c := s.core g
  c.win.foldl (fun s w => s.srEffect g w) (s.setCore g { c with win := [] })

/-! ### What one instruction sees -/

/-- The context of one instruction: its core, its address, SW and the system registers as it sees them, and the step's
free-value index. -/
structure Ctx where
  g : Nat
  pc : Word
  sw : Word
  sr : Table Word
  n : Nat
  deriving DecidableEq, Repr

def Ctx.reg (x : Ctx) (n : Nat) : Word := tget x.sr n (srReset n)
def Ctx.pl (x : Ctx) : Nat := swPl x.sw
def Ctx.em (x : Ctx) : Bool := swEm x.sw

/-- The context of the instruction at P. -/
def Core.ctx (c : Core) (g : Nat) : Ctx :=
  { g := g, pc := c.p, n := c.idx, sw := c.seenSw,
    sr := c.win.foldl (fun t x => match c.pick c.idx x.reg with
      | some v => if x.reg < 0x400 then tput t x.reg v else t
      | none => t) c.sr }

/-! ### Exceptions (R104–R108, R114, R342) -/

/-- A synchronous exception: its code, EADDR, whether it is the second half of a split access, whether EPC is the next
instruction, and the address of an earlier instruction that it belongs to (a buffered store, Table 4-3). -/
structure Exc where
  code : Nat
  addr : Word := 0
  split : Bool := false
  next : Bool := false
  pc : Option Word := none
  deriving DecidableEq, Repr

/-- Why an instruction did not complete. -/
inductive Stop where
  | exc (e : Exc)
  | wait
  deriving DecidableEq, Repr

/-- An instruction as it runs: it answers a value and a state, or stops. -/
abbrev Exec := EStateM Stop State

/-- Raise an exception. -/
def raise {α : Type} (code : Nat) (addr : Word := 0) (split next : Bool := false) : Exec α :=
  throw (.exc { code := code, addr := addr, split := split, next := next })

/-- The instruction cannot go on now: the core tries it again later. -/
def waitNow {α : Type} : Exec α := throw .wait

/-- Whether EXC_ROUTE sends a code to H (R104). -/
def Core.routed (c : Core) (code : Nat) : Bool := bit (c.eff (0x14 + code / 64)) (code % 64)

/-- The exception registers of a level: the number of its EPC (Table 4-5). -/
def excBase (t : Nat) : Nat := if t == 2 then 0xC else 4

/-- The offset of the handler of a code (R105). -/
def vecOffset (code : Nat) : Word :=
  if 0x40 ≤ code ∧ code < 0x50 then 0x200 else if 0x70 ≤ code ∧ code < 0x80 then 0x100 else 0

/-- The security block keeps over a reset what belongs to its entropy source. -/
def Sec.afterReset (c : Sec) : Sec := { Sec.initial with healthy := c.healthy, drbg := c.drbg, reseeds := c.reseeds }

/-- A request of the DRBG, which a healthy source reseeds after every 2^20 (R344). -/
def Sec.draw (c : Sec) : Sec :=
  { c with drbg := c.drbg + 1, reseeds := c.reseeds + (c.healthy && (c.drbg + 1) % 2 ^ 20 == 0).toNat }

def State.enclave (s : State) (e : Nat) : Enclave := tget s.sec.enclaves e Enclave.initial
def State.setEnclave (s : State) (e : Nat) (x : Enclave) : State :=
  { s with sec := { s.sec with enclaves := tput s.sec.enclaves e x } }

/-- The save area (Table 12-2): two lines. -/
def saveArea (c : Core) (code : Nat) (restart addr : Word) : Line × Line :=
  let w (l : List Word) : Line := BitVec.ofNat 512 (l.foldr (fun x a => x.toNat + 2 ^ 64 * a) 0)
  (w [BitVec.ofNat 64 (0xE5 * 2 ^ 56 + code % 256 * 256 + 1), restart, c.a, c.x, c.y, c.l, c.f, addr],
   w ([0, 1, 2, 3].map (fun i => lane 64 c.va i) ++ [c.sw, 0, 0, 0]))

/-- R342: the core writes the save area, scrubs its registers and takes back the normal world's F. The entry becomes
INTERRUPTED once both writes are acknowledged: a notice waits for them at the core's junction. -/
def State.asyncExit (s : State) (g code : Nat) (restart addr : Word) : State :=
  let c := s.core g
  let en := tget (s.enclave c.eid).entries c.entry ⟨0, 0, 0, 0, .idle⟩
  let ls := saveArea c code restart addr
  let line := en.save / 64
  let wr (s : State) (l : Nat) (d : Line) : State := s.request (.wrline ⟨g, 256, 0, c.tid, c.cls⟩ l ⟨d, false⟩)
  let s := (wr (wr s line ls.1) (line + 1) ls.2).hold g [(256, line), (256, line + 1)] (.saveAreaAcked g)
  let c := (({ c with a := 0, x := 0, y := 0, l := 0, va := 0, fmap := [], f := c.reg 0x102, sw := setBit c.sw 2 false }.setReg
    0x103 (BitVec.ofNat 64 (2 ^ 62 + c.eid * 2 ^ 16 + c.entry))).setReg 0x100 0)
  s.setCore g c

/-- The core is about to execute another instruction: the choices and answers of the last one are gone, and Haze entries
that it left unproven are freed (R157; `discard`: the instruction did not retire). An answer to a read that is no longer
wanted is dropped on arrival. -/
def Core.fresh (c : Core) (i : Nat) : Core :=
  { c with idx := i, proven := false, seen := [], due := [], cur := [], errs := [], devSince := none,
           txns := c.txns.map fun t => if t.want == 5 then { t with want := 6 } else t }

def State.fresh (s : State) (g : Nat) : State :=
  ({ s with free := s.free + 1 } : State).modCore g fun c => c.fresh s.free

/-- A flush frees every Haze entry whose user is not yet proven (R140, R157). -/
def State.hazeFlush (s : State) (g : Nat) : State :=
  let c := s.core g
  let n := (c.haze.filter fun e => !e.promoted).length
  if n == 0 then s
  else (s.event g c.seenSw 0x011 n).modCore g fun c => { c with haze := c.haze.filter fun e => e.promoted }

/-- R105: exception entry at level `t`. Everything younger is discarded (R140). -/
def State.enterExc (s : State) (g t : Nat) (nested : Bool) (sw : Word) (e : Exc) : State :=
  let s := (s.hazeFlush g).fresh g
  let c := s.core g
  let b := excBase t
  let em := swEm c.sw
  let restart := if e.next then c.p + 4 else e.pc.getD c.p
  let cause := swPl sw * 2 ^ 14 + em.toNat * 2 ^ 13 + nested.toNat * 2 ^ 12 + (e.code == 0x43).toNat * 2 ^ 11 +
    e.split.toNat * 2 ^ 10 + e.code
  let c := (((c.setReg b (if em then c.enterAt else restart)).setReg (b + 1) c.sw).setReg (b + 2)
    (BitVec.ofNat 64 cause)).setReg (b + 3) (if em then setFld e.addr 0 12 0 else e.addr)
  let s := s.setCore g c
  let s := if em then s.asyncExit g e.code restart e.addr else s
  let s := s.closeWindows g
  let c := s.core g
  let f := c.f
  let c := { c with f := setFld (c.reg (b + 5)) 0 3 0 }.setReg (b + 5) f
  let changed := swPl c.sw != t
  let sw' := setBit (setBit (setBit (setFld c.sw 0 2 t) 3 false) 4 false) 5 true
  let c := { c with sw := sw', p := setFld (c.reg (b + 4) + vecOffset e.code) 0 2 0, skipBp := false, run := .running }
  let c := if em then c.contextSwitch else if changed then c.predFlush else c
  s.setCore g c

/-- R104, R108: an exception is taken at the level found, nested at H, or stops the core. In enclave mode it waits until
every earlier store is visible (R342). DEDUCED (log 51): SR_TRAP and WFI_TRAP follow EXC_ROUTE like every code (R104), though
R120 and R111 say that they go to H. -/
def State.takeExc (s : State) (g : Nat) (sw : Word) (e : Exc) : State :=
  let c := s.core g
  if swEm c.sw && !c.sb.isEmpty then s
  else
    let t := max (if c.routed e.code then 2 else 1) (swPl sw)
    if swEx sw && t == swPl sw then
      if t == 2 then
        (s.setCore g { c with run := .stopped }).fault (s.coreSrc g) 0x01 none 0
      else s.enterExc g 2 true sw e
    else s.enterExc g t false sw e

/-! ### Retiring -/

/-- An instruction completes with the next address `p'`: it and its events of class Never are counted, windows advance, and
STEP is raised if SW.SS was seen (Table 4-3, R160, R164, R165). After ERET (`eret`) the instruction breakpoints pass over one
instruction (R106). -/
def State.retire (s : State) (g : Nat) (sw : Word) (n : Nat) (p' : Word) (eret : Bool := false) : State :=
  let ext := s.cap 6
  let s := (0x001 :: (s.core g).due).foldl (fun s ev => s.event g sw ev) s
  let s := s.modCore g fun c =>
    let c := c.extra ext sw n
    let c := if swEm sw then c else c.setReg 0xE2 (c.reg 0xE2 + BitVec.ofNat 64 (Config.pacerTurns n))
    { c with p := p', skipBp := eret }
  let s := (s.tick g).fresh g
  if swSs sw then
    if swEm (s.core g).sw && !(s.core g).sb.isEmpty then s.modCore g fun c => { c with stepDue := true }
    else s.takeExc g (s.core g).seenSw { code := 0x0D }
  else s

/-- An error response to a core's access, which is now no longer under way: DATA_ERROR, with the address `pc` of its
instruction (R22, R254, R269, Table 4-3). In enclave mode it waits until every earlier store is visible (R342). -/
def State.dataError (s : State) (g : Nat) (va pc : Word) : State :=
  let c := s.core g
  if !(c.run == .running || c.run == .wfi || c.run == .paused) then s
  else if swEm c.sw && !c.sb.isEmpty then s.setCore g { c with storeErr := c.storeErr <|> some (va, pc) }
  else
    (s.setCore g { c with stall := .none, storeErr := none }).takeExc g c.seenSw { code := 0x07, addr := va, pc := some pc }

/-- The instruction that a core's stall belongs to completes. -/
def State.finishStall (s : State) (g : Nat) : State :=
  let c := s.core g
  (s.setCore g { c with stall := .none }).retire g c.seenSw c.idx (c.p + 4)

/-- A maintenance instruction has one response less to wait for; with the last it completes (R251). -/
def State.unstall (s : State) (g tag : Nat) : State :=
  let c := s.core g
  match c.stall with
  | .maint va l =>
    if l.contains tag then
      let r := l.filter (· != tag)
      if r.isEmpty then s.finishStall g else s.setCore g { c with stall := .maint va r }
    else s
  | _ => s

end Sys2Proof.Machine
end

