-- ==== Sys2Proof/Machine/L2.lean ====
section
/-! DEFINITION. A core's caches as the coherence protocol sees them (Chapters 07 and 08): arrays, grants, snoops, evictions,
store-buffer drains, and the current value of a line. -/

namespace Sys2Proof.Machine

/-! ### Arrays -/

/-- The place of a line in an array of `sets` sets and `ways` ways. -/
def arrFind (t : Table CLine) (sets ways line : Nat) : Option (Nat × CLine) :=
  (List.range ways).findSome? fun w =>
    match tfind? t (line % sets * ways + w) with
    | some l => if l.line == line then some (line % sets * ways + w, l) else none
    | none => none

def Core.inL2 (c : Core) (line : Nat) : Option (Nat × CLine) := arrFind c.l2 1024 16 line
def Core.inL1d (c : Core) (line : Nat) : Option (Nat × CLine) := arrFind c.l1d 128 8 line
def Core.inL1i (c : Core) (line : Nat) : Option (Nat × CLine) := arrFind c.l1i 256 4 line

/-- Write an L1D line's modified bytes into its L2 copy and mark it clean (R211). -/
def Core.merge (c : Core) (line : Nat) : Core :=
  match c.inL1d line, c.inL2 line with
  | some (k, l), some (j, m) =>
    if l.dirty then
      { c with l1d := tput c.l1d k { l with dirty := false },
               l2 := tput c.l2 j { m with bytes := l.bytes, poison := m.poison || l.poison, err := { l.err with tag := m.err.tag } } }
    else c
  | _, _ => c

/-- Frame-map entries of a line are invalid once it leaves L1D (R143). -/
def Core.dropFrames (c : Core) (line : Nat) : Core := { c with fmap := c.fmap.filter fun e => e.2.line != line }

/-- Remove a line from both L1 arrays, merging modified bytes first. -/
def Core.clearL1 (c : Core) (line : Nat) : Core :=
  let c := (c.merge line).dropFrames line
  let c := match c.inL1d line with | some (k, _) => { c with l1d := tdel c.l1d k } | none => c
  match c.inL1i line with | some (k, _) => { c with l1i := tdel c.l1i k } | none => c

/-- Remove a line from both L1 caches, merging modified bytes first (R194, R229). The arrays of a disabled L1 cache stay
unchanged (R221). -/
def Core.leaveL1 (c : Core) (line : Nat) : Core :=
  let c := c.dropFrames line
  let c := if c.l1dOn then
      let c := c.merge line
      match c.inL1d line with | some (k, _) => { c with l1d := tdel c.l1d k } | none => c
    else c
  match if c.l1iOn then c.inL1i line else none with
  | some (k, _) => { c with l1i := tdel c.l1i k }
  | none => c

/-- The L1D's modified bytes of a line are merged, unless the L1D is effectively disabled (R221). -/
def Core.mergeOn (c : Core) (line : Nat) : Core := if c.l1dOn then c.merge line else c

/-- A line of the L2 with the L1D's modified bytes merged. -/
def Core.l2Line (c : Core) (line : Nat) : Option CLine := ((c.mergeOn line).inL2 line).map (·.2)

/-- Choose a way: the lowest invalid, else the LFSR's (R198): place, and the advanced LFSR. -/
def chooseWay (t : Table CLine) (sets ways line : Nat) (lf : BitVec 16) : Nat × BitVec 16 :=
  let b := line % sets * ways
  match lowest (fun w => (tfind? t (b + w)).isNone) ways with
  | some w => (b + w, lf)
  | none => let n := lfsrNext lf; (b + n.toNat % ways, n)

/-- Bring a line of the L2 into L1D; a displaced modified line goes back into L2. -/
def Core.fillL1d (c : Core) (line : Nat) : Core :=
  if !c.l1dOn || (c.inL1d line).isSome then c
  else match c.inL2 line with
    | none => c
    | some (_, m) =>
      let (k, lf) := chooseWay c.l1d 128 8 line c.lfsrC
      let c := match tfind? c.l1d k with
        | some v => (c.merge v.line).dropFrames v.line
        | none => c
      { c with l1d := tput c.l1d k { m with dirty := false, err := .none }, lfsrC := lf }

/-- Bring a line of the L2 into L1I. Bad cells show at once as a parity error (R202). -/
def Core.fillL1i (c : Core) (line : Nat) : Core :=
  if !c.l1iOn || (c.inL1i line).isSome then c
  else match c.inL2 line with
    | none => c
    | some (_, m) =>
      let (k, lf) := chooseWay c.l1i 256 4 line c.lfsrI
      let err : CodeErr := if c.badI.contains k then ⟨1, 0, 0⟩ else .none
      { c with l1i := tput c.l1i k { m with dirty := false, err := err }, lfsrI := lf }

/-- Bring a line of the L2 into the L1 cache that a demand miss fills (R194). -/
def Core.fillL1 (c : Core) (line : Nat) : L1 → Core
  | .none => c
  | .data => c.fillL1d line
  | .instr => c.fillL1i line

/-! ### Giving up lines (R212) -/

/-- A header for a request of core g, with its resident TID and class. -/
def State.coreIssue (s : State) (g : Nat) (mk : Hdr → Instr) : Option (Hdr × State) :=
  s.issue g (s.core g).tid (s.core g).cls mk

/-- How an L2 gives up a line: by its state under R212, with clean lines offered or not, or by Drop whatever its state
(R216). -/
inductive GiveUp where
  | byState (offers : Bool)
  | drop
  deriving DecidableEq, Repr

/-- The request that gives up a line in a state. -/
def GiveUp.msg (w : GiveUp) (st : L2St) (h : Hdr) (line : Nat) : Instr :=
  match w with
  | .drop => .drop h line
  | .byState offers =>
    if st == .m || st == .o then .wbreq h line else if offers then .offer h line else .drop h line

/-- DEDUCED (log 47): a line whose Upg is outstanding stays in the L2: Go needs the requester's own copy (R242). -/
def Core.awaitsGo (c : Core) (line : Nat) : Bool := c.txns.any fun t => t.line == line && t.want == 3

/-- L2 moves a line into an evict-pending buffer and sends WbReq, Offer or Drop (R212, R245); none while all 16 buffers are
full, no tag is free, or the line's Upg is outstanding. -/
def State.evictAs (s : State) (g line : Nat) (how : GiveUp) : Option State :=
  let c := s.core g
  if c.evict.length ≥ 16 || c.awaitsGo line then none
  else
    let c := if how == .drop then c.clearL1 line else c.leaveL1 line
    match c.inL2 line with
    | none => none
    | some (k, l) =>
      (s.coreIssue g fun h => how.msg l.st h line).map fun r =>
        r.2.setCore g { c with l2 := tdel c.l2 k, evict := c.evict ++ [⟨line, l.st, l.bytes, l.poison, r.1.tag⟩] }

/-- R212: clean lines are offered while OFFER_CLEAN is 1. -/
def Core.giveUpWay (c : Core) : GiveUp := .byState (bit (c.eff srCacheEn) 3)

def State.evictLine (s : State) (g line : Nat) : State := (s.evictAs g line (s.core g).giveUpWay).getD s

/-! ### Code errors in a core's arrays (R202–R206) -/

/-- An uncorrectable tag error: the way is invalid, its set is lost, CORE_UNCORRECTABLE waits for the next boundary, and the
fault names the set (R206). -/
def State.tagLost (s : State) (g set : Nat) (f : Core → Core) : State :=
  (s.modCore g fun c => { f c with ueDue := true }).fault (s.coreSrc g) 0x05 none set

/-- The tags of the L1D and L2 sets of a line are checked: correctable errors are corrected in place. -/
def State.checkTags (s : State) (g line : Nat) : State :=
  let c := s.core g
  let inD (e : Nat × CLine) : Bool := e.1 / 8 == line % 128 && e.2.err.tag != 0
  let in2 (e : Nat × CLine) : Bool := e.1 / 16 == line % 1024 && e.2.err.tag != 0
  let fix (p : Nat × CLine → Bool) (t : Table CLine) : Table CLine := t.map fun e =>
    if p e && e.2.err.tag == 1 then (e.1, { e.2 with err := { e.2.err with tag := 0 } }) else e
  if !(c.l1d.any inD || c.l2.any in2) then s
  else
    let c := { c with l1d := fix inD c.l1d, l2 := fix in2 c.l2 }
    let s := s.setCore g c
    let badD := c.l1d.filter inD
    let bad2 := c.l2.filter in2
    let s := badD.foldl (fun s e => s.tagLost g (line % 128) fun c =>
      { (c.dropFrames e.2.line) with l1d := tdel c.l1d e.1, lostD := insertNew c.lostD (line % 128) }) s
    bad2.foldl (fun s e => s.tagLost g (line % 1024) fun c =>
      { (c.dropFrames e.2.line) with
        l2 := tdel c.l2 e.1, lost2 := insertNew c.lost2 (line % 1024),
        l1d := c.l1d.filter (fun x => x.2.line != e.2.line), l1i := c.l1i.filter (fun x => x.2.line != e.2.line) }) s

/-- The data of an L1D line is checked (R203, R204): a clean line with an error leaves, a modified one is rewritten with
right codes, poisoned if two bits of a byte have failed. -/
def State.checkL1d (s : State) (g line : Nat) : State :=
  let c := s.core g
  match c.inL1d line with
  | none => s
  | some (k, l) =>
    if l.err.one == 0 && l.err.two == 0 then s
    else
      let two := l.err.two != 0
      let c := if l.dirty then { c with l1d := tput c.l1d k { l with err := .none, poison := l.poison || two } }
        else { (c.dropFrames line) with l1d := tdel c.l1d k }
      (s.setCore g c).fault (s.coreSrc g) (if two then 0x04 else 0x03) none (64 * line)

/-- The data of an L2 line is checked (R203, R204). A clean line is given up by Drop, so that the home knows (R230); while no
buffer is free it stays for the next access to find. -/
def State.checkL2 (s : State) (g line : Nat) : State :=
  let c := s.core g
  match c.inL2 line with
  | none => s
  | some (k, l) =>
    if l.err.one == 0 && l.err.two == 0 then s
    else
      let two := l.err.two != 0
      let s' := if l.st == .m || l.st == .o then
          some (s.setCore g { c with l2 := tput c.l2 k { l with err := .none, poison := l.poison || two } })
        else s.evictAs g line .drop
      match s' with
      | some t => t.fault (s.coreSrc g) (if two then 0x04 else 0x03) none (64 * line)
      | none => s

/-- A line's arrays are checked before the line is used, for each cache that is looked up (R221). -/
def State.check (s : State) (g line : Nat) : State :=
  let c := s.core g
  if !c.l2On then s
  else
    let s := s.checkTags g line
    let s := if c.l1dOn then s.checkL1d g line else s
    s.checkL2 g line

/-- A parity error of an L1I line (R202). -/
def CLine.parityBad (l : CLine) : Bool := l.err != .none

/-! ### Room for a fill (R198, R212) -/

/-- Ways of a line's L2 set that outstanding requests will take. -/
def Core.promised (c : Core) (line : Nat) : Nat :=
  (c.txns.filter fun t => t.line % 1024 == line % 1024 && decide (t.want ≤ 4) && (c.inL2 t.line).isNone).length

/-- A miss makes sure of a way before its request leaves: an invalid one that no earlier request will take, else the victim
that one advance of the L2 LFSR names, which is given up now (R198). None while the miss must wait: for an evict-pending
buffer or a tag, or for the Go of that victim; the LFSR has then not advanced. -/
def State.makeWay (s : State) (g line : Nat) : Option State :=
  let c := s.core g
  let b := line % 1024 * 16
  let free := ((List.range 16).filter fun w => (tfind? c.l2 (b + w)).isNone).length
  if (c.inL2 line).isSome || c.promised line < free then some s
  else
    let lf := lfsrNext c.lfsr2
    match tfind? c.l2 (b + lf.toNat % 16) with
    | none => none
    | some v => ((s.check g v.line).setCore g { ((s.check g v.line).core g) with lfsr2 := lf }).evictAs g v.line c.giveUpWay

/-- Send a request that will fill a line: its way is made sure of first; none while the miss waits. -/
def State.fillIssue (s : State) (g line want : Nat) (prefetch : Bool) (fill : L1) (mk : Hdr → Instr) : Option (Hdr × State) :=
  (s.makeWay g line).bind fun s => (s.coreIssue g mk).map fun r =>
    (r.1, r.2.modCore g fun c => { c with txns := c.txns ++ [⟨r.1.tag, line, want, none, false, prefetch, fill⟩] })

/-- Place a line in the L2: in its own way, or in the lowest invalid one, which its miss made sure of. -/
def Core.fillL2 (c : Core) (line : Nat) (st : L2St) (d : LineData) : Core :=
  match c.inL2 line with
  | some (k, l) =>
    { (c.leaveL1 line) with l2 := tput c.l2 k { l with st := st, bytes := d.bytes, poison := d.poison, err := .none } }
  | none =>
    let (k, _) := chooseWay c.l2 1024 16 line c.lfsr2
    { c with l2 := tput c.l2 k ⟨line, st, d.bytes, d.poison, false, .none⟩, kept := c.kept.filter (· != line) }

/-- A request of core g for a line is outstanding. -/
def Core.waits (c : Core) (line : Nat) : Bool := c.txns.any fun t => t.line == line && t.want != 6

/-- Prefetches that waited are sent once they can be (R208, R209): in order, until one must wait again. A line that has come
or been asked for meanwhile is passed over. -/
def State.sendPrefetches : Nat → Nat → State → State
  | 0, _, s => s
  | fuel + 1, g, s =>
    match (s.core g).pfWait with
    | [] => s
    | (l, hash) :: rest =>
      let c := s.core g
      if (c.inL2 l).isSome || c.waits l || !c.l2On then
        State.sendPrefetches fuel g (s.setCore g { c with pfWait := rest })
      else
        match s.fillIssue g l 1 true .none fun h => .rds h l true hash with
        | some (_, t) => State.sendPrefetches fuel g (t.modCore g fun c => { c with pfWait := rest })
        | none => s

def State.prefetchOn (s : State) (g : Nat) : State := s.sendPrefetches ((s.core g).pfWait.length) g

/-! ### Stores become visible (R132, R146) -/

/-- A narrow write puts right codes beside the bytes it writes, and leaves the others as they are (R195). -/
def CodeErr.written (e : CodeErr) (mask : BitVec 32) (off : Nat) : CodeErr :=
  let keep := ~~~ (mask.setWidth 64 <<< off)
  { e with one := e.one &&& keep, two := e.two &&& keep }

/-- Bytes written into a line the core owns; the line becomes Modified (R230). -/
def Core.writeOwned (c : Core) (line : Nat) (data : BitVec 256) (mask : BitVec 32) (off : Nat) : Core :=
  let c := c.fillL1d line
  match c.inL2 line with
  | none => c
  | some (k, m) =>
    match if c.l1dOn then c.inL1d line else none with
    | some (j, l) =>
      { c with l1d := tput c.l1d j { l with
                 bytes := mergeBytes l.bytes data mask off, dirty := true, st := .m, err := l.err.written mask off },
               l2 := tput c.l2 k { m with st := .m } }
    | none => { c with l2 := tput c.l2 k { m with
        st := .m, bytes := mergeBytes m.bytes data mask off, err := m.err.written mask off } }

/-- The whole of an owned line becomes 0, its poison mark cleared (R217). -/
def Core.zeroOwned (c : Core) (line : Nat) : Core :=
  let c := match c.inL1d line with
    | some (j, l) => { c with l1d := tput c.l1d j { l with bytes := 0, poison := false, dirty := false, st := .m, err := .none } }
    | none => c
  match c.inL2 line with
  | some (k, m) => { c with l2 := tput c.l2 k { m with bytes := 0, poison := false, st := .m, err := .none } }
  | none => c

def Core.owns (c : Core) (line : Nat) : Bool :=
  match c.inL2 line with
  | some (_, l) => l.st == .m || l.st == .e
  | none => false

/-- The head of the store buffer is written if its line is owned (R132). -/
def Core.drainOwned (c : Core) : Core :=
  match c.sb with
  | e :: es =>
    if !e.uncached && c.l2On && c.owns (e.pa / 64) then
      { (c.writeOwned (e.pa / 64) e.data e.mask (e.pa % 64)) with sb := es }
    else c
  | [] => c

/-- STORE_DRAIN: the oldest entry is written, or asks for what it needs. A request takes the class as QOS_CLASS stands when
it is sent (R266). -/
def State.drain (s : State) (g : Nat) : State :=
  let c := s.core g
  match c.sb with
  | [] => s
  | e :: es =>
    let line := e.pa / 64
    if e.uncached || !c.l2On then
      if e.sent then s
      else
        match s.issue g e.tid c.cls (fun h => .wrpart h line ⟨e.data, e.mask, BitVec.ofNat 6 (e.pa % 64), false⟩) with
        | some (h, s) =>
          s.setCore g { c with sb := { e with sent := true } :: es,
                               txns := c.txns ++ [⟨h.tag, line, 7, none, false, false, .none⟩] }
        | none => s
    else if c.owns line then s.setCore g c.drainOwned
    else if c.waits line then s
    else if (c.inL2 line).isSome then
      match s.issue g e.tid c.cls (fun h => .upg h line) with
      | some (h, s) => s.setCore g { c with txns := c.txns ++ [⟨h.tag, line, 3, none, false, false, .data⟩] }
      | none => s
    else
      match s.makeWay g line with
      | none => s
      | some s =>
        match s.issue g e.tid c.cls (fun h => .rdx h line e.hash) with
        | some (h, s) => s.modCore g fun c => { c with txns := c.txns ++ [⟨h.tag, line, 2, none, false, false, .data⟩] }
        | none => s

/-! ### Acknowledgement of invalidation broadcasts (R187–R190) -/

/-- A core has acknowledged a broadcast; with the last acknowledgement the issuer's instruction completes (R187, R190). -/
def State.bcastAck (s : State) (issuer c : Nat) : State :=
  let i := s.core issuer
  match i.stall with
  | .bcast l =>
    if l.contains c then
      let r := l.filter (· != c)
      if r.isEmpty then s.finishStall issuer else s.setCore issuer { i with stall := .bcast r }
    else s
  | _ => s

/-- A core, or the agent for it, acknowledges a broadcast: the issuer has one acknowledgement less to wait for. -/
def State.bcastEnd (s : State) (c issuer : Nat) : State :=
  (s.modCore c fun k => { k with bcasts := k.bcasts.filter fun b => b.issuer != issuer }).bcastAck issuer c

/-- A taken broadcast is acknowledged once every store-buffer entry of the boundary is visible (R188 steps 3 and 4). -/
def State.bcastGo (s : State) (c : Nat) : State :=
  (((s.core c).bcasts.filter fun b => b.stores == some 0).map (·.issuer)).foldl (fun s i => s.bcastEnd c i) s

/-- A store-buffer entry has become visible: a broadcast that waits for the entries of its boundary counts it (R188). -/
def State.drainedOne (s : State) (g before : Nat) : State :=
  if (s.core g).sb.length < before then
    (s.modCore g fun c => { c with bcasts := c.bcasts.map fun b => { b with stores := b.stores.map (· - 1) } }).bcastGo g
  else s

/-! ### Grants (R242, R243) -/

/-- A store waiting for the line is performed before any snoop for it is answered (R243). -/
def State.afterGrant (s : State) (g line : Nat) : State :=
  let c := s.core g
  match c.sb with
  | e :: _ => if e.pa / 64 == line then (s.setCore g c.drainOwned).drainedOne g c.sb.length else s
  | [] => s

/-- The transaction of a tag at a core. -/
def Core.txn (c : Core) (tag : Nat) : Option CoreTxn := c.txns.find? fun t => t.tag == tag
def Core.dropTxn (c : Core) (tag : Nat) : Core := { c with txns := c.txns.filter fun t => t.tag != tag }
def Core.putTxn (c : Core) (t : CoreTxn) : Core :=
  { c with txns := c.txns.map fun u => if u.tag == t.tag then t else u }

/-- R157: the coherent read of a Haze entry's line has come: the entry is freed, and a load or fetch that took other bytes
from it is replayed. -/
def State.hazeCheck (s : State) (g line : Nat) (d : LineData) : State :=
  let c := s.core g
  match c.haze.find? fun e => e.line == line && e.promoted with
  | none => s
  | some e =>
    let s := s.setCore g { c with haze := c.haze.filter fun e => !(e.line == line && e.promoted) }
    if e.data.any (· != d) then s.event g c.seenSw 0x01A else s

/-- The grant is complete: the line is placed in the L2 and, for a demand miss, in its L1 (R194), CmpAck leaves, the waiting
access is performed (R242, R243, R209). -/
def State.granted (s : State) (h : Hdr) (line : Nat) (t : CoreTxn) (st : L2St) (d : LineData) : State :=
  let g := h.node
  let s := s.modCore g fun c => c.dropTxn t.tag
  let s := (s.finish h).send (.cmpack h line)
  if t.prefetch && d.poison then
    -- nothing is filled: the copy is given up at once
    match s.coreIssue g (fun h => .drop h line) with
    | some (_, s) => s
    | none => s
  else
    let s := s.modCore g fun c => (c.fillL2 line st d).fillL1 line t.fill
    let s := s.hazeCheck g line d
    let s := if t.want == 4 then s.unstall g t.tag else s
    (s.afterGrant g line).prefetchOn g

/-- The requester's own copy (R242). -/
def Core.ownCopy (c : Core) (line : Nat) : Option LineData := (c.l2Line line).map fun l => ⟨l.bytes, l.poison⟩

/-- Go, or forwarded data, has arrived: the transaction completes once both are there (R242). -/
def State.tryGrant (s : State) (h : Hdr) (line : Nat) (t : CoreTxn) : State :=
  let c := s.core h.node
  if t.go then
    if t.want == 4 then s.granted h line t .m ⟨0, false⟩
    else match t.data with
      | some d => s.granted h line t .m d
      | none =>
        match if t.want == 3 then c.ownCopy line else none with
        | some d => s.granted h line t .m d
        | none => s.setCore h.node (c.putTxn t)
  else s.setCore h.node (c.putTxn t)

/-- A grant of a line in a state. -/
def grantMsg (h : Hdr) (line : Nat) (st : L2St) (d : LineData) : Instr :=
  match st with
  | .m => .datam h line d
  | .e => .datae h line d
  | _ => .datas h line d

/-- R276: a late grant is taken into the reserved buffer, acknowledged, and the line is given up as an eviction. The buffer
that the timeout kept reserved holds the line even where all 16 are full; while no tag is free for the eviction, the grant
comes again. -/
def State.lateGrant (s : State) (h : Hdr) (line : Nat) (st : L2St) (d : LineData) : State :=
  let t := (s.lateResponse h).send (.cmpack h line)
  match t.coreIssue h.node fun n => (t.core h.node).giveUpWay.msg st n line with
  | some (n, t) => t.modCore h.node fun c => { c with evict := c.evict ++ [⟨line, st, d.bytes, d.poison, n.tag⟩] }
  | none => s.send (grantMsg h line st d)

/-- A grant with data arrives at its requester: `st` is the state it grants; `whole` when Go is included. A late FwdM waits
in the reserved buffer for its Go. -/
def State.dataGrant (s : State) (h : Hdr) (line : Nat) (st : L2St) (whole : Bool) (d : LineData) : State :=
  let s := s.countRead h.node
  if s.isLate h then
    let t := s.tag h.node h.tag
    if whole || t.lateGo || !t.reserved then s.lateGrant h line st d
    else (s.stat h.node fun x => { x with late := x.late + 1 }).setTag h.node h.tag { t with lateData := some d }
  else
    match (s.core h.node).txn h.tag with
    | none => s
    | some t =>
      if whole then s.granted h line t st d
      else s.tryGrant h line { t with data := some d }

/-- GO arrives. A late Go with its data, forwarded or the requester's own copy, is a late grant (R276); one whose data is
still to come waits for it. -/
def State.goGrant (s : State) (h : Hdr) (line : Nat) : State :=
  if s.isLate h then
    let t := s.tag h.node h.tag
    match t.lateData with
    | some d => s.lateGrant h line .m d
    | none =>
      match (s.core h.node).inL2 line with
      | some (k, l) =>
        (((s.lateResponse h).send (.cmpack h line)).modCore h.node fun c =>
          { c with l2 := tput c.l2 k { l with st := .m } }).evictLine h.node line
      | none =>
        if t.reserved then
          (s.stat h.node fun x => { x with late := x.late + 1 }).setTag h.node h.tag { t with lateGo := true }
        else s.lateResponse h
  else match (s.core h.node).txn h.tag with
    | none => s
    | some t => s.tryGrant h line { t with go := true }

/-! ### Snoops (R245, Table 8-4) -/

/-- What a held state answers to a snoop: the state after it, whether data goes to the requester (1), to the home (2) or
nowhere (0). -/
def snoopRule (code : Nat) (st : L2St) : L2St × Nat :=
  match code, st with
  | 1, .m => (.o, 1)
  | 1, .o => (.o, 1)
  | 1, _ => (.s, 1)
  | 2, _ => (.i, 1)
  | 3, _ => (.i, 0)
  | 4, st => (st, 2)
  | 5, .m => (.i, 2)
  | 5, .o => (.i, 2)
  | 5, _ => (.i, 0)
  | _, .m => (.e, 2)
  | _, .o => (.s, 2)
  | _, st => (st, 0)

def ackMsg (g line : Nat) : L2St → Instr
  | .i => .acki g line
  | .s => .acks g line
  | .e => .acke g line
  | .o => .acko g line
  | .m => .acke g line

/-- The messages of a snoop answer. -/
def snoopAnswer (code : Nat) (req : Hdr) (g line : Nat) (st : L2St) (d : LineData) : List Instr :=
  let r := snoopRule code st
  if r.2 == 1 then [if code == 1 then .fwds req line d else .fwdm req line d, ackMsg g line r.1]
  else if r.2 == 2 then [.snpdata g line d r.1]
  else [ackMsg g line r.1]

/-- R206: the set of the line is lost in a cache where no tag matches it. -/
def Core.setLost (c : Core) (line : Nat) : Bool :=
  (c.lost2.contains (line % 1024) && (c.inL2 line).isNone) || (c.lostD.contains (line % 128) && (c.inL1d line).isNone)

/-- The answer of a set that is lost: poisoned data, to the home, and no copy is left (R206). -/
def State.lostAnswer (s : State) (g line : Nat) : State := s.send (.snpdata g line ⟨0, true⟩ .i)

/-- A snoop reaches core g's L2 (R222, R229, R245, R206). -/
def State.snoopL2 (s : State) (code : Nat) (req : Hdr) (g line : Nat) : State :=
  let s := s.check g line
  let c := s.core g
  if !c.l2On then
    let held := (c.inL2 line).any fun e => e.2.st != .s
    (if held then s.setCore g { c with kept := insertNew c.kept line } else s).send (.notpresent g line)
  else
    let lost := c.setLost line
    match c.inL2 line with
    | some _ =>
      let c := c.mergeOn line
      match c.inL2 line with
      | none => s
      | some (k, l) =>
        if lost then (s.setCore g { (c.leaveL1 line) with l2 := tdel c.l2 k }).lostAnswer g line
        else
          let r := snoopRule code l.st
          let ms := snoopAnswer code req g line l.st ⟨l.bytes, l.poison⟩
          let c := if r.1 == .i then let c := c.leaveL1 line; { c with l2 := tdel c.l2 k }
            else { c with l2 := tput c.l2 k { l with st := r.1 } }
          (s.setCore g c).sendAll ms
    | none =>
      match c.evict.find? fun b => b.line == line && b.st != .i with
      | some b =>
        let r := snoopRule code b.st
        let ms := snoopAnswer code req g line b.st ⟨b.bytes, b.poison⟩
        (s.setCore g { c with evict := c.evict.map fun x => if x.line == line then { x with st := r.1 } else x }).sendAll ms
      | none => if lost then s.lostAnswer g line else s.send (.notpresent g line)

/-! ### Evict-pending buffers -/

/-- The home's last response for a line given up: its buffer and tag are free (R245). -/
def State.freeEvict (s : State) (h : Hdr) (line : Nat) : State :=
  let c := s.core h.node
  match c.evict.find? fun b => b.line == line && b.tag == h.tag with
  | some _ =>
    ((s.setCore h.node { c with evict := c.evict.filter (fun b => !(b.line == line && b.tag == h.tag)),
                                kept := c.kept.filter (· != line) }).finish h).unstall h.node h.tag
  | none => s

/-! ### Bytes of a line, and an engine's writes -/

/-- `n` bytes of normal memory from a physical address within one line. -/
def lineBytes (d : LineData) (off n : Nat) : Nat := fld d.bytes (8 * off) (8 * n)

/-- Send the writes of `bs` at `pa` as an engine does: whole lines by WrLine, the rest by WrPart of at most 32 bytes
(R249). Answers the write ids, for the junction. -/
def State.writeMem (s : State) (node : Nat) (tid : BitVec 12) (cls : BitVec 3) :
    Nat → Nat → List Byte → List (Nat × Nat) → List (Nat × Nat) × State
  | 0, _, _, ids => (ids, s)
  | fuel + 1, pa, bs, ids =>
    if bs.isEmpty then (ids, s)
    else
      let off := pa % 64
      let line := pa / 64
      if off == 0 && bs.length ≥ 64 && !(s.noWrLine node line) then
        let d : LineData := ⟨ofBytes 512 (bs.take 64), false⟩
        let s := s.request (.wrline ⟨node, 256, 0, tid, cls⟩ line d)
        s.writeMem node tid cls fuel (pa + 64) (bs.drop 64) (ids ++ [(256, line)])
      else
        let k := min (min bs.length 32) (64 - off)
        match s.issue node tid cls (fun h => .wrpart h line
            ⟨ofBytes 256 (bs.take k), BitVec.ofNat 32 (2 ^ k - 1), BitVec.ofNat 6 off, false⟩) with
        | some (h, s) => s.writeMem node tid cls fuel (pa + k) (bs.drop k) (ids ++ [(h.tag, line)])
        | none => (ids, s)

/-- Send writes of bytes as an engine. -/
def State.engineWrite (s : State) (node : Nat) (tid : BitVec 12) (cls : BitVec 3) (pa : Nat) (bs : List Byte) :
    List (Nat × Nat) × State :=
  s.writeMem node tid cls (bs.length / 16 + 2) pa bs []

end Sys2Proof.Machine
end

