-- ==== Sys2Proof/Machine/Doors.lean ====
section
/-! DEFINITION. Doors: what answers for a domain that does not run (R416, R417, Table 16-2), and the fences that override
them (R439). -/

namespace Sys2Proof.Machine

/-- The purpose of the outermost running table, 0 when the Sequencer is idle. -/
def State.runningPurpose (s : State) : Nat := (s.seq.run.map (·.req.purpose)).getD 0

/-- No door starts a wake (R416): the package is in Hold or Off, or a package-state table or FULL_RESET runs. -/
def State.noWake (s : State) : Bool :=
  s.power.pkg == 2 || s.power.pkg == 3 || [2, 5, 6, 7].contains s.runningPurpose

/-- The unit of a domain stands under its own fence or its die's. -/
def State.unitFenced (s : State) (d : Nat) : Bool :=
  s.isFenced d || (decide (d < 576) && s.isFenced (1410 + d / 48)) ||
    (decide (672 ≤ d) && decide (d < 684) && s.isFenced (1410 + (d - 672)))

/-- ROLE of a port (Table 13-1). -/
def State.portRole (s : State) (p : Nat) : Nat := s.img secPorts (8 + 4 * p) 1 0

/-- The domain of a port that PORT_ROLES disables: it stays off (R353). -/
def State.portOff (s : State) (d : Nat) : Bool := decide (696 ≤ d) && decide (d < 704) && s.portRole (d - 696) == 0

/-- A wake begins: WAKING from RETAINED, or from OFF where R417 permits it; a core's uncore wakes with it (R415). -/
def State.startWake (s : State) (d : Nat) : State :=
  let x := s.dom d
  let ok := x.st == .retained || (x.st == .off && !(decide (d < 672)) && !s.portOff d)
  let s := if ok then s.setDom d { x with st := .waking, inReset := x.inReset && x.st == .retained } else s
  if ok && decide (d < 576) then
    let u := s.dom (uncoreDomain (d / 48))
    if u.st == .retained || u.st == .off then s.setDom (uncoreDomain (d / 48)) { u with st := .waking } else s
  else s

/-- A wake that a door starts: none while R416 forbids it. -/
def State.doorWake (s : State) (d : Nat) : State := if s.noWake then s else s.startWake d

/-- The doors that hold a message for a retained domain start its wake, once R416 allows one again. -/
def State.heldWakes (s : State) : State :=
  ((s.power.doms.filter fun e => e.2.st == .retained && !e.2.held.isEmpty).map (·.1)).foldl (fun s d => s.doorWake d) s

/-- What a door does with an arrival. -/
inductive DoorAns where
  | serve | retry | off | fenced
  deriving DecidableEq, Repr

/-- The Err code of a door's answer (Table 9-4); 0 when the unit serves. -/
def DoorAns.code : DoorAns → Nat
  | .serve => 0
  | .off => 3
  | .retry => 4
  | .fenced => 6

/-- The door of a domain other than a core or bank group (Table 16-2); `vn1` for a layer-1 request. -/
def State.door (s : State) (d : Nat) (vn1 : Bool) : DoorAns × State :=
  let x := s.dom d
  if s.unitFenced d then (.fenced, s)
  else
    match x.st with
    | .run => if x.inReset then (.off, s) else if x.stopped && !vn1 then (.retry, s) else (.serve, s)
    | .closing => if vn1 then (.serve, s) else (.retry, s)
    | .waking => (.retry, s)
    | _ =>
      if s.noWake || !x.auto || s.portOff d then (.off, s) else (.retry, s.startWake d)

/-- A message is held at a door until its domain runs. -/
def State.holdAt (s : State) (d : Nat) (m : Instr) : State :=
  let x := s.dom d
  s.setDom d { x with held := x.held ++ [m] }

/-- The image enables the die of a core. -/
def State.coreEnabled (s : State) (g : Nat) : Bool := s.computeEn (g / 48) && s.tileOf g != 0xFF

/-- A snoop reaches a core's door (Table 16-2, R256, R257, Table 17-6). -/
def State.snoopArrive (s : State) (code : Nat) (req : Hdr) (g line : Nat) : State :=
  if (s.unitFenced g && (s.dom g).st != .closing) || !s.coreEnabled g then
    if s.hier.lost.contains (g, line) then s.send (.snpdata g line ⟨0, true⟩ .i) else s.send (.notpresent g line)
  else
    let x := s.dom g
    if x.st == .off then s.send (.notpresent g line)
    else if x.st == .retained || x.st == .waking then (s.holdAt g (snoopMsg code req g line)).doorWake g
    else s.snoopL2 code req g line

/-- A core can execute: its domain runs and no fence stops it. -/
def State.coreRuns (s : State) (g : Nat) : Bool :=
  s.coreEnabled g && s.runs g && !s.unitFenced g

end Sys2Proof.Machine
end

