-- ==== Sys2Proof/Machine/Translate.lean ====
section
/-! DEFINITION. Address translation (Chapter 06) with the owner check of R336, and a core's coherent read of one line. -/

namespace Sys2Proof.Machine

/-- A Selectable event of the instruction at P: it counts when it occurs, once for the instruction and an address, however
often the instruction has to wait and try again (R160). -/
def State.once (s : State) (x : Ctx) (ev addr : Nat) : State :=
  if (s.core x.g).seen.contains (ev, addr) then s
  else (s.event x.g x.sw ev).modCore x.g fun c => { c with seen := c.seen ++ [(ev, addr)] }

/-- The stream hash of an instruction's accesses (R208). -/
def streamHash (pc : Word) : BitVec 10 := BitVec.ofNat 10 (fld pc 2 10 ^^^ fld pc 12 10)

/-- The stream hash a request carries (R210, Table 7-2). -/
def Ctx.hint (x : Ctx) (c : Core) : Option (BitVec 10) :=
  if bit (c.eff srPfCtl) 1 && !x.em then some (streamHash x.pc) else none

/-- The L1 line that a read hits, in a cache that is effectively enabled (R220, R221). -/
def Core.l1Line (c : Core) (line : Nat) : L1 → Option CLine
  | .none => none
  | .data => if c.l1dOn then (c.inL1d line).map (·.2) else none
  | .instr => if c.l1iOn then (c.inL1i line).map (·.2) else none

/-- The event of an L1 miss (Table 5-10). -/
def missEvent (c : Core) : L1 → Option Nat
  | .none => none
  | .data => if c.l1dOn then some 0x009 else none
  | .instr => if c.l1iOn then some 0x00A else none

/-- An L1I parity error invalidates the line, and the core fetches it again from L2; when the block fails again within the
same fetch, the fetch is served from L2 and the fault "L1I repeated parity" is sent (R202). -/
def State.checkL1i (s : State) (g line : Nat) : State :=
  let drop (c : Core) : Core := match c.inL1i line with | some (k, _) => { c with l1i := tdel c.l1i k } | none => c
  let bad (s : State) : Bool := ((s.core g).l1Line line .instr).any (·.parityBad)
  if bad s then
    let s := (s.modCore g drop).modCore g fun c => c.fillL1i line
    if bad s then (s.modCore g drop).fault (s.coreSrc g) 0x02 none (64 * line) else s
  else s

/-- What a read of one line answers: the line, or the code of an error response (Table 9-4). -/
abbrev LineAns := LineData ⊕ Nat

/-- An uncached read asks the home by RdCur, and waits for CurData (R196, R250). -/
def askCur (x : Ctx) (line : Nat) : Exec LineAns := do
  let s ← get
  if !(s.core x.g).waits line then
    match s.coreIssue x.g fun h => .rdcur h line with
    | some (h, s) => set (s.modCore x.g fun c => { c with txns := c.txns ++ [⟨h.tag, line, 5, none, false, false, .none⟩] })
    | none => pure ()
  waitNow

/-- A proven miss asks the home by RdS, an instruction fetch for a shared copy (Table 8-3), and waits for the grant. A Haze
entry of the line is proven with it (R157). -/
def askLine (x : Ctx) (line : Nat) (hash : Option (BitVec 10)) (why : L1) : Exec LineAns := do
  let s ← get
  if !(s.core x.g).waits line then
    match s.fillIssue x.g line 1 false why fun h => .rds h line (why == .instr) hash with
    | some (_, s) => set s
    | none => pure ()
  waitNow

/-- The Haze entry of a line is proven (R157). -/
def State.prove (s : State) (x : Ctx) (line : Nat) : State :=
  if (s.core x.g).haze.any fun e => e.line == line && !e.promoted then
    (s.event x.g x.sw 0x010).modCore x.g fun c =>
      { c with haze := c.haze.map fun e => if e.line == line then { e with promoted := true } else e }
  else s

/-- An unproven miss in L1 that the L2 cannot serve takes a Haze entry, sends a Haze read, and waits; it is proven before it
is tried again. With all 32 entries in use it waits for one (R156). -/
def askHaze (x : Ctx) (line : Nat) : Exec LineAns := do
  let s ← get
  let s := s.modCore x.g fun c => { c with proven := true }
  let c := s.core x.g
  set s
  if c.haze.length < 32 && !(c.haze.any fun e => e.line == line) then
    match s.coreIssue x.g fun h => .hazerd h line with
    | some (_, s) =>
      set ((s.event x.g x.sw 0x00F).modCore x.g fun c => { c with haze := c.haze ++ [⟨line, none, false, false⟩] })
    | none => pure ()
  waitNow

/-- A Haze read that the core's own L2 serves: an entry is allocated and filled, and once the instruction is proven the
coherent read finds the same bytes and frees it (R156, R157). -/
def State.hazeL2 (s : State) (x : Ctx) : State :=
  if (s.core x.g).haze.length < 32 then (s.event x.g x.sw 0x00F).event x.g x.sw 0x010 else s

/-- The instruction at P may still be unproven when it makes an access (R155): a free value until it has had to wait. -/
def Core.unproven (c : Core) (line : Nat) : Bool := !c.proven && Config.unproven c.idx line

/-- A hit whose single-bit errors are corrected on the fly: the corrected data, which this access still takes although the
clean line then leaves (R203). -/
def Core.corrected (c : Core) (line : Nat) (why : L1) : Option LineData :=
  let fixed (l : CLine) : Option LineData :=
    if l.err.one != 0 && l.err.two == 0 && decide (l.err.tag < 2) then some ⟨l.bytes, l.poison⟩ else none
  if !c.l2On then none
  else match why, c.l1Line line why with
    | .instr, some _ => none
    | _, some l => fixed l
    | _, none => (c.l2Line line).bind fixed

/-- A core's read of one line, for a load, a fetch or (`.none`) a table walk, which is always proven (R179). An uncached read
goes to the home; a cached one is served by L1, by L2, which fills L1, or waits for its miss (R194, R196, R221). -/
def readLine (x : Ctx) (line : Nat) (uc : Bool) (why : L1) : Exec LineAns := do
  let c := (← get).core x.g
  let fixed := if uc then none else c.corrected line why
  modify fun s => if uc then s else s.check x.g line
  modify fun s => if uc || why != .instr then s else s.checkL1i x.g line
  let s ← get
  let c := s.core x.g
  if !s.isDram (64 * line) then pure (.inr 1)
  else match c.errs.find? fun e => e.1 == line, fixed with
  | some e, _ => pure (.inr e.2)
  | none, some d => pure (.inl d)
  | none, none =>
    if uc || !c.l2On then
      match c.cur.find? fun e => e.1 == line with
      | some e => pure (.inl e.2)
      | none => askCur x line
    else
      match c.l1Line line why with
      | some l => pure (.inl ⟨l.bytes, l.poison⟩)
      | none =>
        modify fun s => match missEvent c why with | some ev => s.once x ev line | none => s
        let unproven := why != .none && c.unproven line
        match c.l2Line line with
        | some l =>
          if l.err.two != 0 then waitNow
          else
            modify fun s =>
              (if unproven then s.hazeL2 x else (s.prove x line).hazeCheck x.g line ⟨l.bytes, l.poison⟩).modCore x.g fun c =>
                c.fillL1 line why
            pure (.inl ⟨l.bytes, l.poison⟩)
        | none =>
          modify fun s => s.once x 0x00B line
          if unproven then askHaze x line
          else
            modify fun s => s.prove x line
            askLine x line (if why == .none then none else x.hint c) why

/-! ### Stage 2 (R171, R172) -/

/-- What an extent, or its absence, gives an intermediate address. -/
structure Ext where
  n : Nat
  pa : Nat
  r : Bool
  w : Bool
  x : Bool
  uc : Bool
  deriving DecidableEq, Repr

def Ctx.s2On (x : Ctx) : Bool := bit (x.reg 0x72) 0
def Ctx.s1On (x : Ctx) : Bool := bit (x.reg 0x71) 0
def Ctx.sua (x : Ctx) : Bool := bit (x.reg 0x71) 1
def Ctx.ibase (x : Ctx) (n : Nat) : Nat := fld (x.reg (0x40 + n)) 12 36
def Ctx.limit (x : Ctx) (n : Nat) : Nat := fld (x.reg (0x50 + n)) 12 36

/-- Extent n covers an intermediate page. -/
def Ctx.covers (x : Ctx) (n page : Nat) : Bool :=
  bit (x.reg (0x60 + n)) 63 && decide (x.ibase n ≤ page) && decide (page ≤ x.limit n)

/-- The extent of an intermediate address; every permission where stage 2 does not apply. -/
def Ctx.extent (x : Ctx) (ia : Nat) : Option Ext :=
  if !x.s2On then some ⟨16, ia, true, true, true, false⟩
  else
    ((List.range 16).find? fun n => x.covers n (ia / 4096 % 2 ^ 36)).map fun n =>
      let p := x.reg (0x60 + n)
      ⟨n, (fld p 12 40 * 4096 + ia + 2 ^ 52 - x.ibase n * 4096) % 2 ^ 52, bit p 60, bit p 61, bit p 62, bit p 59⟩

/-- Whether the whole of a page of 2^bits bytes lies in extent n alone (R184). DESIGN CHOICE (log 51): with S2CTL.EN 0, where
no extent maps anything, a large page is entered at its own size. -/
def Ctx.inOneExtent (x : Ctx) (n ia bits : Nat) : Bool :=
  let lo := ia / 2 ^ bits * 2 ^ bits / 4096
  let hi := lo + 2 ^ bits / 4096 - 1
  !x.s2On || (decide (x.ibase n ≤ lo) && decide (hi ≤ x.limit n) &&
    (List.range n).all fun m => !bit (x.reg (0x60 + m)) 63 || decide (x.limit m < lo) || decide (hi < x.ibase m) ||
      decide (x.limit m < x.ibase m))

/-! ### Table entries (R176, R177) -/

/-- The permission bits gathered along a walk. -/
structure Perm where
  w : Bool
  u : Bool
  x : Bool
  deriving DecidableEq, Repr

/-- A leaf as a walk found it: intermediate page base, page size, permissions and marks. -/
structure Leaf where
  base : Nat
  bits : Nat
  perm : Perm
  uc : Bool
  a : Bool
  d : Bool
  deriving DecidableEq, Repr

/-- An entry that is present and well formed at a level. -/
def entryOk (level : Nat) (e : Word) : Bool :=
  let leaf := level == 1 || bit e 6
  bit e 0 && fld e 48 10 == 0 && !bit e 7 && !(level == 4 && bit e 6) &&
    !(level == 2 && leaf && fld e 12 9 != 0) && !(level == 3 && leaf && fld e 12 18 != 0)

def absentCode : Access → Nat
  | .fetch => 0x20
  | .load => 0x21
  | _ => 0x22

/-- R177: whether stage 1 permits an access. -/
def Ctx.permits (x : Ctx) (acc : Access) (p : Perm) : Bool :=
  let user := x.pl == 0
  match acc with
  | .fetch => p.x && (if user then p.u else !p.u)
  | .load => if user then p.u else !p.u || x.sua
  | _ => (if user then p.u else !p.u || x.sua) && p.w

/-- R172: whether an extent permits an access. -/
def extPermits (acc : Access) (r w x : Bool) : Bool :=
  match acc with
  | .fetch => x
  | .load => r
  | .store => w
  | .atomic => r && w

/-! ### Replacement in the translation arrays (R198, R199) -/

/-- The place a new entry takes among `ways` from `base`, and the advanced core LFSR. -/
def pickWay {α : Type} (t : Table α) (base ways : Nat) (lf : BitVec 16) : Nat × BitVec 16 :=
  match lowest (fun w => (tfind? t (base + w)).isNone) ways with
  | some w => (base + w, lf)
  | none => let n := lfsrNext lf; (base + n.toNat % ways, n)

def TlbEntry.maps (e : TlbEntry) (va : Nat) : Bool := va / 2 ^ e.bits == e.vbase

/-- The set of the L2 TLB that a page of 2^bits bytes goes to (Table 6-9). -/
def l2tlbSet (va bits : Nat) : Nat := va / 2 ^ bits % 256

def Core.l1Fill (c : Core) (fetch : Bool) (e : TlbEntry) : Core :=
  if fetch then
    let (k, lf) := pickWay c.itlb 0 64 c.lfsrC
    { c with itlb := tput c.itlb k e, lfsrC := lf }
  else
    let (k, lf) := pickWay c.dtlb 0 96 c.lfsrC
    { c with dtlb := tput c.dtlb k e, lfsrC := lf }

/-- A completed walk fills an L1 TLB and the L2 TLB. -/
def Core.tlbFill (c : Core) (fetch : Bool) (va : Nat) (e : TlbEntry) : Core :=
  let c := c.l1Fill fetch e
  let (k, lf) := pickWay c.l2tlb (12 * l2tlbSet va e.bits) 12 c.lfsrC
  { c with l2tlb := tput c.l2tlb k e, lfsrC := lf }

/-- The entry that maps a virtual address: from the L1 TLB (true), or from the L2 TLB. -/
def Core.tlbFind (c : Core) (fetch : Bool) (va : Nat) : Option (TlbEntry × Bool) :=
  match (if fetch then c.itlb else c.dtlb).find? fun e => e.2.maps va with
  | some e => some (e.2, true)
  | none => (c.l2tlb.find? fun e => e.2.maps va).map fun e => (e.2, false)

/-- A non-leaf entry enters the walk cache. -/
def Core.walkFill (c : Core) (e : WalkEntry) : Core :=
  if c.wcache.any fun x => x.2.level == e.level && x.2.vtag == e.vtag then c
  else
    let (k, lf) := pickWay c.wcache 0 32 c.lfsrC
    { c with wcache := tput c.wcache k e, lfsrC := lf }

/-- The walk-cache tag of an address for the table of a level. -/
def walkTag (va level : Nat) : Nat := va / 2 ^ (12 + 9 * level)

/-- R183: every entry that maps or leads to the page of an address goes. -/
def Core.purgeVa (c : Core) (va : Nat) : Core :=
  let keep (e : Nat × TlbEntry) : Bool := !e.2.maps va
  { c with itlb := c.itlb.filter keep, dtlb := c.dtlb.filter keep, l2tlb := c.l2tlb.filter keep,
           wcache := c.wcache.filter fun e => e.2.vtag != walkTag va e.2.level }

/-! ### Ownership (R336) -/

/-- The enclave that owns a physical address, by the copies of the compute-die agents. -/
def State.ownerOf (s : State) (pa : Nat) : Option Nat := rangeOwner s.sec.coreRanges (pa / 64)

/-- Whether a core in this context may access an address with this owner. -/
def ownerOk (x : Ctx) (eid : Nat) (acc : Access) (owner : Option Nat) : Bool :=
  match owner, acc with
  | none, .fetch => !x.em
  | none, _ => true
  | some e, _ => x.em && e == eid

/-- The owner under the direct regime, by the owner cache of 16 pages. -/
def State.ownerCached (s : State) (g pa : Nat) : Option Nat × State :=
  let c := s.core g
  match c.owners.find? fun o => o.1 == pa / 4096 with
  | some o => (o.2, s)
  | none =>
    let o := s.ownerOf pa
    (o, s.setCore g { c with owners := c.owners.drop (c.owners.length - 15) ++ [(pa / 4096, o)] })

/-! ### Walks (R174–R184) -/

/-- An access as translation answers it. -/
structure Tr where
  pa : Nat
  uc : Bool
  deriving DecidableEq, Repr

/-- R178, R183: a translation exception, after the entries of the faulting page are removed. -/
def transFault {α : Type} (x : Ctx) (code : Nat) (addr : Word) (va : Nat) : Exec α := do
  modify fun s => s.modCore x.g fun c => c.purgeVa va
  raise code addr

/-- Read the table entry at an intermediate address (R178 step 2, R179). -/
def readEntry (x : Ctx) (va : Word) (acc : Access) (level ia : Nat) : Exec Word := do
  match x.extent ia with
  | none => transFault x 0x28 (BitVec.ofNat 64 ia) va.toNat
  | some e =>
    if !e.r then transFault x 0x29 (BitVec.ofNat 64 ia) va.toNat
    else if isDevice e.pa then transFault x 0x2B va va.toNat
    else
      let s ← get
      if !ownerOk x (s.core x.g).eid .load (s.ownerOf e.pa) then raise 0x51 (BitVec.ofNat 64 (e.pa / 4096 * 4096))
      else
        match ← readLine x (e.pa / 64) e.uc .none with
        | .inr _ => transFault x 0x2A va va.toNat
        | .inl d =>
          if d.poison then transFault x 0x42 va va.toNat
          else
            let w : Word := BitVec.ofNat 64 (lineBytes d (e.pa % 64) 8)
            if entryOk level w then pure w else transFault x (absentCode acc) va va.toNat

/-- Walk from a level's table down to the leaf. -/
def walkFrom (x : Ctx) (va : Word) (acc : Access) : Nat → Nat → Perm → Exec Leaf
  | 0, _, _ => transFault x (absentCode acc) va va.toNat
  | level + 1, table, p => do
    let w ← readEntry x va acc (level + 1) (table + 8 * (va.toNat / 2 ^ (12 + 9 * level) % 512))
    let q : Perm := ⟨p.w && bit w 1, p.u && bit w 2, p.x && bit w 3⟩
    let addr := fld w 12 36 * 4096
    if level == 0 || bit w 6 then
      pure ⟨addr, 12 + 9 * level, q, bit w 8, bit w 4, bit w 5⟩
    else do
      modify fun s => s.modCore x.g fun c => c.walkFill ⟨level, walkTag va.toNat level, addr, q.w, q.u, q.x⟩
      walkFrom x va acc level addr q

/-- The deepest walk-cache entry of an address (R181), else the root. -/
def walkStart (x : Ctx) (c : Core) (va : Nat) (usable : Bool) : Nat × Nat × Perm :=
  let root : Nat × Nat × Perm := (4, fld (x.reg 0x70) 12 36 * 4096, ⟨true, true, true⟩)
  if usable then
    match [1, 2, 3].findSome? fun l => (c.wcache.find? fun e => e.2.level == l && e.2.vtag == walkTag va l) with
    | some e => (e.2.level, e.2.table, ⟨e.2.w, e.2.u, e.2.x⟩)
    | none => root
  else root

/-- No window on a translation register or TID is open, so that the translation entries of the core may be used (R185). -/
def Core.settled (c : Core) : Bool := c.win.all fun w => !(decide (0x40 ≤ w.reg ∧ w.reg ≤ 0x72) || w.reg == srTid)

/-- What the checks after the walk or hit see (R178 steps 3 to 7). -/
def checkLeaf (x : Ctx) (acc : Access) (va : Word) (ia : Nat) (p : Perm) (a d : Bool) (uc : Bool) (e : Option Ext) :
    Exec Tr := do
  if !x.permits acc p then transFault x (absentCode acc + 3) va va.toNat
  else if !a then transFault x 0x26 va va.toNat
  else if !d && (acc == .store || acc == .atomic) then transFault x 0x27 va va.toNat
  else
    match e with
    | none => transFault x 0x28 (BitVec.ofNat 64 ia) va.toNat
    | some e =>
      if !extPermits acc e.r e.w e.x then transFault x 0x29 (BitVec.ofNat 64 ia) va.toNat
      else if acc == .fetch && isDevice e.pa then raise 0x08 va
      else pure ⟨e.pa, uc || e.uc || isDevice e.pa⟩

/-- Stage 1 of an access at U or S: the leaf, by a walk, which fills the translation arrays. -/
def walk (x : Ctx) (acc : Access) (va : Word) : Exec Leaf := do
  let c := (← get).core x.g
  let (lv, table, p) := walkStart x c va.toNat c.settled
  walkFrom x va acc lv table p

/-- Fill the translation arrays from a walk that completed with no exception (R184). -/
def fillFrom (x : Ctx) (acc : Access) (va : Word) (l : Leaf) (e : Ext) : Exec Unit := do
  let s ← get
  let c := s.core x.g
  if c.settled then
    let off := va.toNat % 2 ^ l.bits
    let ia := l.base + off
    let bits := if x.inOneExtent e.n ia l.bits then l.bits else 12
    let ent : TlbEntry := ⟨va.toNat / 2 ^ bits, bits, (e.pa + 2 ^ 52 - va.toNat % 2 ^ bits) % 2 ^ 52,
      ia / 2 ^ bits * 2 ^ bits, l.perm.u, l.perm.w,
      l.perm.x, e.r, e.w, e.x, l.uc || e.uc, l.d, s.ownerOf e.pa⟩
    set (s.setCore x.g (c.tlbFill (acc == .fetch) va.toNat ent))

/-- Translation of one access up to the physical address (R168, R175, R178): the address and, from a TLB entry, the owner
it recorded. -/
def translateRaw (x : Ctx) (acc : Access) (va : Word) : Exec (Tr × Option (Option Nat)) := do
  if x.pl == 2 then
    if fld va 52 12 != 0 then raise (if acc == .fetch then 0x08 else 0x07) va
    else if acc == .fetch && isDevice va.toNat then raise 0x08 va
    else
      let s ← get
      let o := s.ownerCached x.g va.toNat
      set o.2
      pure (⟨va.toNat, isDevice va.toNat⟩, some o.1)
  else if va.signExtend 64 != (va.setWidth 48).signExtend 64 then transFault x 0x2C va va.toNat
  else if !x.s1On then
    let ia := fld va 0 48
    let t ← checkLeaf x acc va ia ⟨true, x.pl == 0, true⟩ true true false (x.extent ia)
    pure (t, none)
  else
    let fetch := acc == .fetch
    let c := (← get).core x.g
    match if c.settled then c.tlbFind fetch va.toNat else none with
    | some (e, l1) =>
      if !l1 then
        modify fun s => (s.once x (if fetch then 0x00D else 0x00C) va.toNat).modCore x.g fun c => c.l1Fill fetch e
      let pa := (e.pbase + va.toNat % 2 ^ e.bits) % 2 ^ 52
      let t ← checkLeaf x acc va (e.ibase + va.toNat % 2 ^ e.bits) ⟨e.w, e.u, e.x⟩ true e.d e.uc (some ⟨16, pa, e.er, e.ew, e.ex, e.uc⟩)
      pure (t, some e.owner)
    | none =>
      -- a miss waits until its instruction is proven before it walks (R155, R179)
      modify fun s => ((s.once x (if fetch then 0x00D else 0x00C) va.toNat).once x 0x00E va.toNat).modCore x.g fun c =>
        { c with proven := true }
      let l ← walk x acc va
      let ia := l.base + va.toNat % 2 ^ l.bits
      let e := x.extent ia
      let t ← checkLeaf x acc va ia l.perm l.a l.d l.uc e
      match e with
      | some e => fillFrom x acc va l e
      | none => pure ()
      pure (t, none)

/-- R178, R336: the translation of one access, with the owner check. -/
def translate (x : Ctx) (acc : Access) (va : Word) : Exec Tr := do
  let (t, o) ← translateRaw x acc va
  let s ← get
  let owner := match o with
    | some o => o
    | none => s.ownerOf t.pa
  if ownerOk x (s.core x.g).eid acc owner then pure t
  else raise 0x51 (BitVec.ofNat 64 (t.pa / 4096 * 4096))

end Sys2Proof.Machine
end

