-- ==== Sys2Proof/Machine/Events.lean ====
section
/-! DEFINITION. Brixmen frames and events as the Steward forms them (R471–R479), the persistent log (R450, R451), and the
requests that reach the Sequencer (R63). -/

namespace Sys2Proof.Machine

/-! ### Frames out of the management port -/

/-- The management key in force (R472), byte 0 in the low bits. -/
def State.mkey (s : State) : List Byte := toBytes (s.mgmt.key.getD Config.mgmtKey) 48

/-- A frame with its TAG (R472). -/
def State.tagged (s : State) (f : List Byte) : List Byte := f ++ hmac384 s.mkey f

/-- The first 40 bytes of a response or event (Table 19-2). -/
def brixHead (kind op len time : Nat) (mtag : Word) (accept : Nat) (result : Word) : List Byte :=
  [0x42, 0x58, 1, BitVec.ofNat 8 kind] ++ leBytes 2 op ++ leBytes 2 len ++ leBytes 8 time ++ toBytes mtag 8 ++
    [BitVec.ofNat 8 accept] ++ List.replicate 7 0 ++ toBytes result 8

/-- PKG_STATE, IMAGE_STATUS and the other words that GET_STATUS and the register window both show are built where their
blocks are; an event carries its payload only. R479: sent to the destination, at most 10,000 in any second. -/
def State.sendEvent (s : State) (op : Nat) (payload : List Byte) : State :=
  let m := s.mgmt
  if m.dest.2 == 0 then s
  else
    let n := m.eseq + 1
    let ts := m.events.filter fun t => s.now < t + 1000000000
    if ts.length ≥ 10000 then { s with mgmt := { m with eseq := n, events := ts } }
    else
      let f := s.tagged (brixHead 3 op payload.length s.now (BitVec.ofNat 64 n) 0 0 ++ payload)
      { s with mgmt := { m with eseq := n, eseqSent := n, events := ts ++ [s.now] },
               out := s.out ++ [.datagram m.dest.1 m.dest.2 f] }

/-- A result word of Brixmen has reached DONE or FAILED: the event RESULT_READY. -/
def State.mgmtEnd (s : State) (c : Chan) : State :=
  ({ s with mgmt := { s.mgmt with res := c, running := none } }).sendEvent 4 (toBytes c.word 8)

/-! ### The persistent log (R451) -/

/-- The slot a new record takes: the lowest empty one, else the acknowledged one written longest ago. -/
def Collector.plogSlot (f : Collector) : Option Nat :=
  match lowest (fun k => (tfind? f.plog k).isNone) 256 with
  | some k => some k
  | none =>
    (f.plog.filter fun e => e.2.acked).foldl (fun a e => match a with
      | none => some e.1
      | some k => if e.2.order < (tget f.plog k ⟨0, 0, false⟩).order then some e.1 else some k) none

/-- Write a record into the persistent log, or count it as dropped. -/
def State.plogWrite (s : State) (r : BitVec 128) : State :=
  let f := s.fc
  match f.plogSlot with
  | some k => { s with fc := { f with plog := tput f.plog k ⟨r, f.pnext, false⟩, pnext := f.pnext + 1 } }
  | none => { s with fc := { f with dropped := satInc 32 f.dropped } }

/-- A fault record (Table 17-1). -/
def faultRecord (src : BitVec 16) (kind : BitVec 8) (tid : Option (BitVec 12)) (level : Nat) (esc : Bool) (addr seq : Nat) :
    BitVec 128 :=
  BitVec.ofNat 128 (src.toNat * 2 ^ 112 + kind.toNat * 2 ^ 104 + tid.isSome.toNat * 2 ^ 103 + level * 2 ^ 100 +
    (tid.getD 0).toNat * 2 ^ 88 + esc.toNat * 2 ^ 87 + addr % 2 ^ 52 * 2 ^ 32 + seq % 2 ^ 32)

/-! ### Requests to the Sequencer (R63) -/

def purposeBringup : Nat := 1
def purposeFullReset : Nat := 2
def purposeDieReset : Nat := 3
def purposeCoreReset : Nat := 4
def purposeHold : Nat := 5
def purposeExitHold : Nat := 6
def purposeOff : Nat := 7
def purposeFailover : Nat := 8
def purposeRehome : Nat := 9

/-- Requests for these purposes take the places at the head of the queue. -/
def headPurpose (p : Nat) : Bool := p == 2 || p == 6 || p == 8

/-- SEQ_QUEUE_LIMIT (R53, R497). -/
def State.queueLimit (s : State) : Nat := s.img secGlobal 0x30 4 16

/-- A request reaches the Sequencer's arbiter: false when the queue is full. The message tells the Sequencer to look. -/
def State.seqAsk (s : State) (r : SeqReq) : Bool × State :=
  let q := s.seq
  if headPurpose r.purpose then
    if q.head.any fun x => x.purpose == r.purpose then (true, s)
    else (true, { s with seq := { q with head := q.head ++ [r] } }.send (.seqTableRequest r.purpose r.param))
  else if q.queue.length < s.queueLimit then
    (true, { s with seq := { q with queue := q.queue ++ [r] } }.send (.seqTableRequest r.purpose r.param))
  else (false, s)

/-- A table of the active image, by its index: PURPOSE, FLAGS, FIRST_ROW, ROWS (Table 2-6). -/
structure TableEntry where
  purpose : Nat
  flags : Nat
  first : Nat
  rows : Nat
  deriving DecidableEq, Repr

def Image.tableCount (im : Image) : Nat := im.sec secSteps 0 2

def Image.tableAt (im : Image) (i : Nat) : TableEntry :=
  let o := 8 + 8 * i
  ⟨im.sec secSteps o 1, im.sec secSteps (o + 1) 1, im.sec secSteps (o + 2) 2, im.sec secSteps (o + 4) 2⟩

/-- The index of the table of a purpose. -/
def Image.tableOf (im : Image) (p : Nat) : Option Nat :=
  (List.range im.tableCount).find? fun i => (im.tableAt i).purpose == p

/-- The table of a purpose is flagged ABORTABLE (Table 2-6). -/
def State.abortable (s : State) (p : Nat) : Bool :=
  match s.seq.active with
  | none => false
  | some im => (im.tableOf p).any fun i => (im.tableAt i).flags % 2 == 1

/-! ### AVSBus masters (R425, R426) -/

/-- The master of a rail and the rail's place in the master's row order (Table 16-8, R426). -/
def avsMaster (r : Nat) : Nat :=
  if r < 12 then r / 3 else if r < 16 then r - 12 else if r == 16 then 0 else if r < 21 then r - 17
  else if r < 23 then r - 20 else 3
def avsSelect (r : Nat) : Nat := ((List.range r).filter fun x => avsMaster x == avsMaster r).length

def State.rail (s : State) (r : Nat) : Rail := tget s.power.rails r Rail.initial
def State.setRail (s : State) (r : Nat) (x : Rail) : State :=
  { s with power := { s.power with rails := tput s.power.rails r x } }
def State.avsQueue (s : State) (m : Nat) : List AvsReq := tget s.power.avs m []
def State.setAvs (s : State) (m : Nat) (q : List AvsReq) : State :=
  { s with power := { s.power with avs := tput s.power.avs m q } }

/-- The master begins its oldest request: the voltage write. -/
def State.avsDrive (s : State) (m : Nat) : State :=
  match s.avsQueue m with
  | [] => s
  | x :: _ => { s with out := s.out ++ [.avsWrite m (avsSelect x.rail) x.mv] }

/-- A request is over: the next one begins. -/
def State.avsNext (s : State) (m : Nat) : State := (s.setAvs m ((s.avsQueue m).drop 1)).avsDrive m

/-- The voltage request of a row that has failed or is stopped is given up with it. -/
def State.dropAvs (s : State) : State :=
  (List.range 4).foldl (fun s m =>
    match s.avsQueue m with
    | x :: q => if x.row then s.avsNext m else s.setAvs m (x :: q.filter fun y => !y.row)
    | [] => s) s

/-- What the running row still waits for, a voltage request or a write that is sent again, is given up. -/
def State.dropBound (s : State) : State :=
  let s := s.dropAvs
  { s with seq := { s.seq with writes := s.seq.writes.filter fun w => !w.2.2.2.2 } }

/-- R64: an abort request makes an ABORTABLE run that has not committed unwind and end FAILED with ABORTED. -/
def State.seqAbort (s : State) : State :=
  match s.seq.run with
  | none => s
  | some r =>
    if s.abortable r.req.purpose && !r.committed && r.unwinding.isNone then
      let s := s.dropBound
      { s with seq := { s.seq with run := some { r with
          unwinding := some r.undo.reverse, failure := codeAborted, failRow := 0, waiting := false, outcome := 0 } } }.send
        (.seqTableRequest r.req.purpose r.req.param)
    else s

end Sys2Proof.Machine
end

