-- ==== Sys2Proof/Machine/MemCtl.lean ====
section
/-! DEFINITION. The stack controllers (Chapter 10): layer-1 requests, scrubbing, row remap, the flip mask and encryption
updates; and the same registers of the slices (R307, R308, R200, R226). -/

namespace Sys2Proof.Machine

/-- A layer-1 request reaches a controller: its door answers, or the stack leaves self-refresh and the request is served
(R416, R439, R500). -/
def State.layer1 (s : State) (line : Nat) (serve : Place → State → State) : State :=
  match s.locate line with
  | none => s
  | some p =>
    let (a, s) := s.door (stackDomain p.stack) true
    match a with
    | .serve =>
      let m := s.mc p.stack
      serve p (s.setMc p.stack { m with selfRefresh := false, grants := m.grants + 1 })
    | a => s.send (.err (s.homeHdr p line) (64 * line) (BitVec.ofNat 16 a.code))

/-- MRD (R296). -/
def execMrd (line : Nat) (s : State) : Out :=
  onArrival (lineOk line) (.mrd line) s fun s =>
    s.layer1 line fun p s =>
      let (d, s) := s.dramRead p line
      s.send (.mdata line d)

/-- MWR (R294): a write-queue entry is reserved. -/
def execMwr (line : Nat) (s : State) : Out :=
  onArrival (lineOk line) (.mwr line) s fun s =>
    s.layer1 line fun p s =>
      let m := s.mc p.stack
      (s.setMc p.stack { m with queue := m.queue ++ [line] }).send (.mwrgo line)

/-- MMERGE (R294, R301). -/
def execMmerge (line : Nat) (p : Part) (s : State) : Out :=
  onArrival (lineOk line) (.mmerge line p) s fun s =>
    s.layer1 line fun q s =>
      let (d, s) := s.dramRead q line
      (s.dramWrite q line (mergePart d p)).send (.cmp (s.homeHdr q line) line)

/-- MATOM (R253, R254, R302): memory stays as it is when the line, or the operand, is poisoned. -/
def execMatom (req : Hdr) (pa : Nat) (a : AtomOp) (s : State) : Out :=
  onArrival (hdrOk req && paOk pa) (.matom req pa a) s fun s =>
    s.layer1 (pa / 64) fun p s =>
      let (d, s) := s.dramRead p (pa / 64)
      let r := atomLine a d.bytes (pa % 64)
      let bad := d.poison || a.poison
      let s := if bad then s else s.dramWrite p (pa / 64) ⟨r.2, false⟩
      (s.send (.atomdata req pa r.1 bad)).send (.cmp (s.homeHdr p (pa / 64)) (pa / 64))

/-- MWRGO (R294): the sender of MWr sends its data. -/
def execMwrgo (line : Nat) (s : State) : Out :=
  onArrival (lineOk line) (.mwrgo line) s fun s =>
    match tfind? s.hier.wq line with
    | some d => s.send (.mwrdata line d)
    | none => s

/-- MWRDATA (R294, R301): the data enters the write queue entry and is stored. -/
def execMwrdata (line : Nat) (d : LineData) (s : State) : Out :=
  onArrival (lineOk line) (.mwrdata line d) s fun s =>
    match s.locate line with
    | none => s
    | some p =>
      let m := s.mc p.stack
      if m.queue.contains line then
        ((s.setMc p.stack { m with queue := m.queue.erase line }).dramWrite p line d).send (.cmp (s.homeHdr p line) line)
      else s

/-- MDATA (R293): the transaction that asked goes on. -/
def execMdata (line : Nat) (d : LineData) (s : State) : Out :=
  onArrival (lineOk line) (.mdata line d) s fun s =>
    s.layer1Answer line fun s =>
    (s.layer1Over line (· == 1)).resume line 3 fun t => { t with data := some d }

/-- A controller's Cmp reaches the home: the line write has entered the write queue (R294). A line that the home writes
again meanwhile stays until the last Cmp. -/
def State.homeCmp (s : State) (line : Nat) : State :=
  match s.locate line with
  | none => s
  | some p =>
    s.layer1Answer line fun s =>
      let s := s.layer1Over line (· != 1)
      if s.hier.layer1.any fun r => r.1 == line && r.2.1 != 1 then s
      else
        let s := { s with hier := { s.hier with wq := tdel s.hier.wq line } }
        let x := s.slice p.home
        let s := s.setSlice p.home { x with anvil := x.anvil.filter fun a => a.1 != line }
        (s.resume line 4 id).kick line

/-- A home sends a layer-1 request again (R416). -/
def State.homeReissue (s : State) (line : Nat) : State :=
  match s.hier.layer1.find? fun r => r.1 == line with
  | some (_, 1, _) => s.send (.mrd line)
  | some (_, 2, _) => s.send (.mwr line)
  | some _ =>
    match s.txnAt line with
    | none => s
    | some t =>
      match t.req with
      | .wrpart _ _ p => s.send (.mmerge line { p with poison := p.poison || t.poison })
      | .atom h pa a => s.send (.matom h pa a)
      | _ => s
  | none => s

/-- DRAM_TOKEN_WAIT_END (R327): the waiting home sends its metered MRd. -/
def execDramTokenWaitEnd (line : Nat) (s : State) : Out :=
  onWf (lineOk line)
    (if s.qos.waiting.contains line then
       ({ s with qos := { s.qos with waiting := s.qos.waiting.erase line } } : State).resume line 5 id
     else s)

/-! ### Scrubbing (R303–R305) -/

/-- The block window of a stack controller. -/
def l3Block (n : Nat) : Nat := 0xF000100000000 + n * 0x100000000 + 0x100000
def mcBlock (k : Nat) : Nat := 0xF000100000000 + k / 3 * 0x100000000 + 0x300000 + 0x100000 * (k % 3)

/-- A write to SCRUB_CMD (R303). -/
def State.scrubCmd (s : State) (k : Nat) (v : Word) : State :=
  let m := s.mc k
  let go := bit v 63
  if go && m.pass.isSome then s.violate (mcBlock k)
  else
    let m := { m with gap := (v >>> 32).setWidth 16, mode := v.setWidth 2 }
    if go then
      let m := { m with res := m.res.accept, cnt1 := 0, cnt3 := 0, cnt2 := 0, cntP := 0, first := 0, last := 0, worst := 0 }
      let base := fld m.scrubBase 0 52
      let len := m.scrubLen.toNat
      if bit v 1 then s.setMc k { m with res := m.res.fail codeFieldInvalid 0 }
      else if len == 0 then s.setMc k { m with res := m.res.done 0 }
      else if base % 64 != 0 || len % 64 != 0 then s.setMc k { m with res := m.res.fail codeAlign 0 }
      else if base + len > 64 * s.dramLines then s.setMc k { m with res := m.res.fail codeLengthRange 0 }
      else s.setMc k { m with pass := some ⟨base / 64, (base + len) / 64, bit v 0, m.gap.toNat, 0, s.now⟩ }
    else if bit v 62 && m.pass.isSome then
      s.setMc k { m with res := m.res.fail codeAborted 0, pass := none }
    else s.setMc k m

/-- The bits in use of SCRUB_CMD (Table 10-5). -/
def scrubBits : Word := maskBits 63 62 ||| maskBits 47 32 ||| 3

/-- SCRUB_GO (R303): a SCRUB_CMD write with GO. -/
def execScrubGo (k : Nat) (v : Word) (s : State) : Out :=
  onWf (stackOk k) (if bit v 63 && s.runs (stackDomain k) then (s.reserved (mcBlock k) scrubBits v).scrubCmd k v else s)

/-- SCRUB_ABORT (R305): a SCRUB_CMD write with ABORT and without GO. -/
def execScrubAbort (k : Nat) (v : Word) (s : State) : Out :=
  onWf (stackOk k) (if bit v 62 && !bit v 63 && s.runs (stackDomain k) then (s.reserved (mcBlock k) scrubBits v).scrubCmd k v else s)

/-- The pass examines one line of its stack (R304). -/
def State.scrubLine (s : State) (k line : Nat) (p : Place) (repair : Bool) : State :=
  let (raw, cl) := s.dramLook p
  let loc := s.dramLoc k p.local_
  let note (s : State) (sym : Option Nat) (f : Mc → Mc) : State :=
    let m := f (s.mc k)
    let w : Word := BitVec.ofNat 64 (2 ^ 63 + 64 * line)
    let worst := max (fld m.worst 62 2) cl.code
    let symbols := fld m.worst 0 36 ||| (match sym with | some i => 2 ^ i | none => 0)
    s.setMc k { m with first := if m.first == 0 then w else m.first, last := w,
                       worst := BitVec.ofNat 64 (worst * 2 ^ 62 + symbols) }
  match cl with
  | .clean => s
  | .corrected i e =>
    let s := if repair then s.storeRaw k loc (correctLine raw (.corrected i e)) 0 else s
    (note s (some i) fun m => { m with cnt1 := m.cnt1 + 1 }).countCorrected k line i false
  | .poisoned => note s none fun m => { m with cnt2 := m.cnt2 + 1 }
  | .uncorrectable =>
    let s := if repair then s.recordPoison k loc line raw
      else (s.setMc k { s.mc k with ue := satInc 28 (s.mc k).ue }).fault (ctrlSrc k) 0x31 none (64 * line)
    note s none fun m => { m with cnt3 := m.cnt3 + 1, cntP := if repair then m.cntP + 1 else m.cntP }

/-- SCRUB_STEP (R304): one indivisible step on the pass's next line; lines placed on other stacks are skipped. -/
def State.scrubStep (s : State) (k : Nat) : State :=
  match (s.mc k).pass with
  | none => s
  | some q =>
    let s := s.setMc k { s.mc k with selfRefresh := false, grants := 0 }
    let s := match s.locate q.next with
      | some p => if p.stack == k then
          let s := s.scrubLine k q.next p q.repair
          s.setMc k { s.mc k with pass := some { q with next := q.next + 1, examined := q.examined + 1, due := s.now + q.gap } }
        else s.setMc k { s.mc k with pass := some { q with next := q.next + 1 } }
      | none => s.setMc k { s.mc k with pass := some { q with next := q.next + 1 } }
    let m := s.mc k
    match m.pass with
    | some q => if q.next == q.stop then s.setMc k { m with pass := none, res := m.res.done q.examined } else s
    | none => s

/-- A layer-1 request of the stack waits for its controller's arbiter (R290, R304). -/
def State.layer1Waits (s : State) (k : Nat) : Bool :=
  s.inflight.any fun i => match i with
    | .mrd line => (s.locate line).any fun p => p.stack == k
    | .mwr line => (s.locate line).any fun p => p.stack == k
    | .mmerge line _ => (s.locate line).any fun p => p.stack == k
    | .matom _ pa _ => (s.locate (pa / 64)).any fun p => p.stack == k
    | _ => false

/-- The arbiter may grant the pass a step: GAP_NS has passed, and no layer-1 request waits or 64 in a row were granted. -/
def State.scrubMay (s : State) (k : Nat) : Bool :=
  ((s.mc k).pass.any fun q => decide (q.due ≤ s.now)) && (!s.layer1Waits k || decide (64 ≤ (s.mc k).grants))

/-- SCRUB_STEP (R304). -/
def execScrubStep (k : Nat) (s : State) : Out :=
  onWf (stackOk k) (if s.runs (stackDomain k) && s.scrubMay k then s.scrubStep k else s)

/-- A running pass ends because its domain stops while keeping its registers (R305). -/
def State.scrubStop (s : State) (k : Nat) : State :=
  let m := s.mc k
  if m.pass.isSome then s.setMc k { m with pass := none, res := m.res.fail codeAborted 1 } else s

/-! ### Remap (R306) -/

/-- A write to REMAPn: the entry switches at once, or once its row has been copied. -/
def State.remapReg (s : State) (k n : Nat) (v : Word) : State :=
  let m := s.mc k
  let old := tget m.remap n 0
  let new : Word := BitVec.ofNat 64 ((bit v 63).toNat * 2 ^ 63 + fld v 0 22)
  let changed := remapV old && remapRow old != remapRow new
  let fresh := bit v 63 && (!remapV old || changed)
  if fresh && bit v 62 then
    s.setMc k { m with
      remap := tput m.remap n (setBit new 63 false),
      copying := (m.copying.filter fun c => c.1 != n) ++ [(n, remapRow new, 0)] }
  else s.setMc k { m with remap := tput m.remap n new, copying := m.copying.filter fun c => c.1 != n }

/-- REMAP_WRITE (R306). -/
def execRemapWrite (k n : Nat) (v : Word) (s : State) : Out :=
  onWf (stackOk k && streamOk n) 
    (if s.runs (stackDomain k) then (s.reserved (mcBlock k) (maskBits 63 62 ||| maskBits 21 0) v).remapReg k n v else s)

/-- The physical line of a stack-local line of a stack (the inverse of R291), if it is populated. -/
def State.lineAt (s : State) (k a : Nat) : Option Nat :=
  let t := if s.img secHome 0 1 0 == 0 then 3 else s.stacks.length
  let start := if s.img secHome 0 1 0 == 0 then (s.bases.findIdx (· == k / 3)) * quarterLines else 0
  ((List.range t).map fun r => start + a * t + r).find? fun l =>
    match s.locate l with
    | some p => p.stack == k && p.local_ == a
    | none => false

/-- The controller copies one line of the row into the spare row (R306). -/
def State.remapCopy (s : State) (k : Nat) : State :=
  let m := s.mc k
  match m.copying with
  | [] => s
  | (n, row, i) :: rest =>
    let a := row * 512 + i
    let loc := s.dramLoc k a
    let line := (s.lineAt k a).getD 0
    let raw := readRaw s.hier.dram loc
    let cl := lineClass (tget s.hier.chk loc 0)
    let dst := spareLine k n + i
    let s := s.setMc k { m with selfRefresh := false }
    let s := match cl with
      | .clean => s.storeRaw k dst raw 0
      | .corrected j e => (s.storeRaw k dst (correctLine raw (.corrected j e)) 0).countCorrected k line j false
      | .poisoned => s.storeRaw k dst raw poisonMark
      | .uncorrectable => s.recordPoison k dst line raw
    let m := s.mc k
    if i + 1 == 512 then
      s.setMc k { m with copying := rest, remap := tmod m.remap n 0 fun w => setBit w 63 true }
    else s.setMc k { m with copying := (n, row, i + 1) :: rest }

/-- REMAP_COPY_STEP (R306). -/
def execRemapCopyStep (k : Nat) (s : State) : Out :=
  onWf (stackOk k) (if s.runs (stackDomain k) then s.remapCopy k else s)

/-! ### Slices: line remap, LFSR, errors -/

/-- SLICE_REMAPn of slice h (R307): a copy newer than DRAM at the locations the entry leaves and takes up goes to DRAM and
the copies are invalidated. -/
def State.sliceRemapReg (s : State) (h n : Nat) (v : Word) : State :=
  let x := s.slice h
  let old := tget x.remap n 0
  let new : Word := v &&& 0x800000000FFF000F
  if old == new then s
  else
    let clear (s : State) (w : Word) : State :=
      if bit w 63 then
        let key := fld w 16 12 * 16 + fld w 0 4
        match tfind? (s.slice h).lines key with
        | some l =>
          let s := s.slotWrite h key l
          s.setSlice h { s.slice h with lines := tdel (s.slice h).lines key }
        | none => s
      else s
    let s := clear (clear s old) new
    s.setSlice h { s.slice h with remap := tput (s.slice h).remap n new }

/-- SLICE_REMAP_WRITE (R307). -/
def execSliceRemapWrite (h n : Nat) (v : Word) (s : State) : Out :=
  onWf (sliceOk h && masterOk n)
    ((s.reserved (l3Block (h / 96)) (maskBits 63 63 ||| maskBits 27 16 ||| maskBits 3 0) v).sliceRemapReg h n v)

/-- FLIP_CTL: WINDOW, MASK_HI and ARM (R308). -/
def State.flipCtl (s : State) (slice : Bool) (i : Nat) (v : Word) : State :=
  let win : BitVec 3 := (v >>> 8).setWidth 3
  let hi : BitVec 8 := v.setWidth 8
  if slice then
    let x := s.slice i
    s.setSlice i { x with flipWin := win, flipHi := hi, armed := x.armed || bit v 16 }
  else
    let m := s.mc i
    s.setMc i { m with flipWin := win, flipHi := hi, armed := m.armed || bit v 16 }

/-- FLIP_ARM (R308): a FLIP_CTL write with ARM. -/
def execFlipArm (slice : Bool) (n : Nat) (v : Word) (s : State) : Out :=
  onWf ((if slice then sliceOk n else stackOk n))
    (if bit v 16 && (slice || s.runs (stackDomain n)) then
       (s.reserved (if slice then l3Block (n / 96) else mcBlock n) (maskBits 17 16 ||| maskBits 10 0) v).flipCtl slice n v
     else s)

/-- A write to MC_ERR (Table 10-3). -/
def State.mcErr (s : State) (k : Nat) (v : Word) : State :=
  if bit v 63 then s.setMc k { s.mc k with ue := 0, ce := 0 } else s

/-- MC_ERR_CLEAR (Table 10-3). -/
def execMcErrClear (k : Nat) (v : Word) (s : State) : Out :=
  onWf (stackOk k) 
    (if s.runs (stackDomain k) then (s.reserved (mcBlock k) (maskBits 63 63 ||| maskBits 55 0) v).mcErr k v else s)

end Sys2Proof.Machine
end

