-- ==== Sys2Proof/Machine/Domains.lean ====
section
/-! DEFINITION. The switched domains (R411–R417, R423): what they hold, their drains, closing and waking, the cuts that the
security block holds (R348–R351), and the eviction of an enclave. -/

namespace Sys2Proof.Machine

/-! ### Which domain is what (Table 16-1) -/

/-- A block window of the hub. -/
def hubBlock (off : Nat) : Nat := 0xF000000000000 + off
def powerBlock : Nat := hubBlock 0x5000000

/-- The hub unit of a hub domain (Table 17-2). -/
def hubUnit (d : Nat) : Nat :=
  if d < 704 then 8 + (d - 696) else if d < 708 then 0x12 + (d - 704) else if d < 710 then 0x10 + (d - 708)
  else if d == 710 then 0x16 else 0x17

/-- The domain of a hub unit 0x08–0x17. -/
def unitDomain (u : Nat) : Nat :=
  if u < 0x10 then 696 + (u - 8) else if u < 0x12 then 708 + (u - 0x10) else if u < 0x16 then 704 + (u - 0x12)
  else if u == 0x16 then 710 else 711

/-- The fabric node of a hub domain (Table 9-1). -/
def hubNode (d : Nat) : Nat :=
  if d < 704 then 0x3CC + (d - 696) else if d < 708 then 0x3D6 + (d - 704) else if d < 710 then 0x3D4 + (d - 708)
  else if d == 710 then 0x3DA else 0x3DB

/-- SOURCE of the unit of a domain (Table 17-2). -/
def State.domSrc (s : State) (d : Nat) : BitVec 16 :=
  if d < 576 then s.coreSrc d
  else if d < 672 then srcCode 1 ((d - 576) / 24) 0x60
  else if d < 684 then srcCode 2 (d - 672) 0x40
  else if d < 696 then srcCode 3 (d - 684) 0
  else if 712 ≤ d then if d < 716 then srcCode 1 (d - 712) 0x60 else srcCode 0 0 0
  else srcCode 0 0 (hubUnit d)

/-- The image enables the die of a domain. -/
def State.domEnabled (s : State) (d : Nat) : Bool :=
  if d < 576 then s.coreEnabled d
  else if d < 672 then s.baseEn ((d - 576) / 24)
  else if d < 684 then s.computeEn (d - 672)
  else if d < 696 then s.baseEn ((d - 684) / 3)
  else if 712 ≤ d ∧ d < 716 then s.baseEn (d - 712)
  else s.seq.active.isSome

/-- The slices of a bank group's domain. -/
def bankSlices (d : Nat) : List Nat := (List.range 4).map fun i => 96 * ((d - 576) / 24) + 4 * ((d - 576) % 24) + i

/-! ### Draining (R23, R24, R257, R414) -/

/-- Lines of the requests a node has out. -/
def State.nodeOwes (s : State) (node : Nat) : List Nat :=
  (s.hier.tags.filterMap fun e => if e.1 / 512 == node then e.2.req.map (reqAddr · / 64) else none) ++
    (s.hier.wrLines.filterMap fun w => if w.1 == node then some w.2.1 else none)

/-- Lines in hand at a home for a controller. -/
def State.writesFor (s : State) (p : Place → Bool) : List Nat :=
  s.hier.wq.filterMap fun e => if (s.locate e.1).any p then some e.1 else none

/-- Lines whose requests run or wait at the homes of a base die. -/
def State.linesAt (s : State) (n : Nat) : List Nat :=
  (s.hier.txns.map (·.1) ++ (s.hier.queues.filter fun e => !e.2.isEmpty).map (·.1) ++ s.hier.wq.map (·.1)).filter fun l =>
    (s.locate l).any fun p => p.base == n

/-- The bank groups and stack controllers of a base die (Table 2-16). -/
def baseParts (n : Nat) : List Nat := (List.range 24).map (576 + 24 * n + ·) ++ (List.range 3).map (684 + 3 * n + ·)

/-- Lines a unit still owes; `off` when its arrays are to be lost. -/
def State.owes (s : State) (d : Nat) (off : Bool) : List Nat :=
  if d < 576 then
    let c := s.core d
    c.sb.map (fun e => e.pa / 64) ++ s.nodeOwes d ++
      (if off then c.l2.map (fun e => e.2.line) else [])
  else if d < 672 then
    ((bankSlices d).map fun h => (s.slice h).lines.filterMap fun e => if e.2.dirty then some e.2.line else none).flatten ++
      s.writesFor fun p => (bankSlices d).contains p.home
  else if d < 684 then []
  else if d < 696 then (s.mc (d - 684)).queue ++ s.writesFor fun p => p.stack == d - 684
  else if 712 ≤ d then if d < 716 then s.linesAt (d - 712) else []
  else s.nodeOwes (hubNode d)

/-- Work a hub unit has started, and messages at its junction. -/
def State.busyUnit (s : State) (d : Nat) : Bool :=
  if d < 576 then (s.core d).stall != .none || s.junction.any fun j => j.node == d
  else if d < 696 then false
  else if 712 ≤ d then
    decide (d < 716) && (s.dom d).st == .closing &&
      (baseParts (d - 712)).any fun x => (s.dom x).st != .off && (s.dom x).st != .retained
  else
    (s.junction.any fun j => j.node == hubNode d) ||
    (if d < 704 then s.qps.any (fun e => e.2.port == d - 696 && e.2.work.isSome) || !(tget s.ports (d - 696) Port.initial).txq.isEmpty
     else if d < 708 then (tget s.lanes (d - 704) Lane.initial).busy
     else if d < 710 then
       (tget s.engines (d - 708) QEng.initial).running.isSome ||
         s.qps.any fun e => e.1 / 32768 == d - 708 && e.2.work.isSome
     else if d == 710 then false
     else !s.guest.open_.isEmpty || !s.guest.host.isEmpty)

def State.drained (s : State) (d : Nat) (off : Bool) : Bool := (s.owes d off).isEmpty && !s.busyUnit d

/-- A core closing to OFF gives up its lines: WbReq for M and O, Drop for others, as evict-pending buffers permit (R257). -/
def State.pushCore (s : State) (g : Nat) : State :=
  ((s.core g).l2.map fun e => e.2.line).foldl
    (fun s l => let s := s.check g l; (s.evictAs g l (.byState false)).getD s) s

/-- A bank group writes its modified lines to DRAM (R414). -/
def State.pushBank (s : State) (d : Nat) : State :=
  (bankSlices d).foldl (fun s h =>
    (s.slice h).lines.foldl (fun s e =>
      if e.2.dirty then
        let s := s.slotWrite h e.1 e.2
        s.setSlice h { s.slice h with lines := tmod (s.slice h).lines e.1 e.2 fun l => { l with dirty := false } }
      else s) s) s

/-- What a drain pushes out of a unit. -/
def State.push (s : State) (d : Nat) (off : Bool) : State :=
  if d < 576 then if off then s.pushCore d else s
  else if d < 672 then s.pushBank d
  else s

/-! ### Units at their reset values -/

/-- A stack that loses its refresh loses its content (Table 16-3, R501). -/
def State.loseStack (s : State) (k : Nat) : State :=
  let lo := k * 2 ^ 37
  let hi := (k + 1) * 2 ^ 37
  let here (a : Nat) : Bool := (decide (lo ≤ a) && decide (a < hi)) ||
    (decide (64 * spareLine k 0 ≤ a) && decide (a < 64 * spareLine (k + 1) 0))
  { s with hier := { s.hier with
      dram := s.hier.dram.filter (fun c => !here c.1),
      chk := s.hier.chk.filter (fun e => !here (64 * e.1)) } }

/-- The fabric node of a core's or hub unit's domain. -/
def unitNode (d : Nat) : Nat := if d < 576 then d else hubNode d

/-- A unit loses its state: its node's block on WrLines ends (R277), and the agent for a core acknowledges the invalidation
broadcasts that the core had not (R189). -/
def State.leaveUnit (s : State) (d : Nat) : State :=
  let s := if d < 576 then ((s.core d).bcasts.map (·.issuer)).foldl (fun s i => s.bcastEnd d i) s else s
  if d < 576 || (696 ≤ d && d < 712) then
    { s with hier := { s.hier with wrBlocked := s.hier.wrBlocked.filter fun b => b.1 != unitNode d } }
  else s

/-- A core at its reset values, not yet running (R121, R169, R312): TID 0 is reported to the router. DESIGN CHOICE (log 51):
P takes RESET_ENTRY with bits [1:0] cleared, as P is a multiple of 4 (R70), while the register keeps them. -/
def State.resetCore (s : State) (g : Nat) : State :=
  let s := s.leaveUnit g
  let s := s.setCore g { Core.initial with p := setFld (tget s.resetEntry g 0x10000) 0 2 0 }
  s.send (.residencyUpdate g 0 false)

/-- The uncore of a base die at its reset values: slice registers, directories, what its homes held, its station (R496). -/
def State.clearUncore (s : State) (n : Nat) : State :=
  let h := s.hier
  let here (l : Nat) : Bool := (s.locate l).any fun p => p.base == n
  let pair (e : Nat × Pair) : Nat × Pair :=
    if e.1 / 5 == n || e.1 % 5 == n then (e.1, { Pair.initial with active := e.2.active, gone := e.2.gone, removed := e.2.removed })
    else e
  { s with hier := { h with
      slices := h.slices.map fun e => if e.1 / 96 == n then (e.1, { Slice.initial with lines := e.2.lines }) else e,
      dirs := h.dirs.filter fun e => e.1 / 2 ^ 15 / 96 != n,
      txns := h.txns.filter fun e => !here e.1, queues := h.queues.filter fun e => !here e.1,
      wq := h.wq.filter fun e => !here e.1, layer1 := h.layer1.filter fun e => !here e.1,
      l1Late := h.l1Late.filter fun l => !here l,
      order := { h.order with posted := tdel h.order.posted n, lost := h.order.lost.filter (· != n) },
      fab := tdel h.fab (1 + n), pairs := h.pairs.map pair } }

/-- The hub logic outside VAON at its reset values (R496). -/
def State.clearHub (s : State) : State :=
  { s with
    router := Router.initial, qos := Qos.initial,
    sec := s.sec.afterReset,
    fc := { Collector.initial with plog := s.fc.plog, pnext := s.fc.pnext, dropped := s.fc.dropped, rres := s.fc.rres },
    hier := { s.hier with fab := tdel s.hier.fab 0, order := { s.hier.order with posted := tdel s.hier.order.posted 4 } } }

/-- A unit without power keeps nothing (R412); a stack in self-refresh keeps its content (R447, R501). -/
def State.clearUnit (s : State) (d : Nat) : State :=
  let s := s.leaveUnit d
  if d < 576 then s.setCore d Core.initial
  else if d < 672 then (bankSlices d).foldl (fun s h => s.setSlice h { s.slice h with lines := [], lfsr := s.slice h |>.seed }) s
  else if d < 684 then s
  else if d < 696 then
    let kept := (s.mc (d - 684)).selfRefresh
    let s := s.setMc (d - 684) { Mc.initial with selfRefresh := kept }
    if kept then s else s.loseStack (d - 684)
  else if d < 704 then { s with ports := tdel s.ports (d - 696) }
  else if d < 708 then { s with lanes := tdel s.lanes (d - 704) }
  else if d < 710 then
    { s with engines := tdel s.engines (d - 708), qps := s.qps.filter (fun e => e.1 / 32768 != d - 708) }
  else if d == 710 then { s with mirror := { s.mirror with slots := [], cmd := 0, res := Chan.none } }
  else if 712 ≤ d then if d < 716 then s.clearUncore (d - 712) else s.clearHub
  else { s with guest := { Guest.initial with present := s.guest.present } }

/-! ### Closing and waking (R413–R417) -/

/-- A domain begins to close (R413). -/
def State.beginClose (s : State) (d : Nat) (retain : Bool) : State :=
  (s.setDom d { s.dom d with st := .closing, retain := retain, drainSince := some s.now }).push d (!retain)

/-- What waited at a door is passed on. -/
def State.flushDoor (s : State) (d : Nat) : State :=
  let x := s.dom d
  (s.setDom d { x with held := [] }).goOn x.held

/-- Lines that a bank group held while it did not serve and that DRAM may have newer are invalid (R414). -/
def State.dropStale (s : State) (d : Nat) : State :=
  let x := s.dom d
  let s := x.stale.foldl (fun s e =>
    s.setSlice e.1 { s.slice e.1 with lines := (s.slice e.1).lines.filter fun l => l.2.line % 4096 != e.2 }) s
  s.setDom d { x with stale := [] }

/-- The door is shut and the switch opens: RETAINED or OFF. -/
def State.endClose (s : State) (d : Nat) : State :=
  let x := s.dom d
  if x.retain then
    let s := if 684 ≤ d ∧ d < 696 then
        let s := s.scrubStop (d - 684)
        s.setMc (d - 684) { s.mc (d - 684) with selfRefresh := true }
      else s
    s.setDom d { x with st := .retained, drainSince := none, stopped := false }
  else
    let s := (s.clearUnit d).setDom d { x with st := .off, drainSince := none, stopped := false, stale := [] }
    if 712 ≤ d then s.flushDoor d else s

/-- A domain reaches RUN: stale sets go, self-refresh ends, what was held is passed on (R414, R417). -/
def State.endWake (s : State) (d : Nat) : State :=
  let x := s.dom d
  let s := if 576 ≤ d ∧ d < 672 then s.dropStale d
    else if 684 ≤ d ∧ d < 696 then s.setMc (d - 684) { s.mc (d - 684) with selfRefresh := false }
    else s
  (s.setDom d { s.dom d with st := .run, stale := [], stopped := false }).flushDoor d

/-! ### Enclave use and eviction (R348–R351) -/

/-- Whether a range of memory has a line on a stack (R291, R292): a range is at least 64 lines, and any 64 consecutive lines
of one placement reach every stack of it. -/
def State.rangeOn (s : State) (base len k : Nat) : Bool :=
  len != 0 && s.stacks.contains k &&
    (if s.img secHome 0 1 0 == 0 then
       let q := (s.bases.findIdx? fun n => n == k / 3).getD 0
       decide (base / 64 < (q + 1) * quarterLines) && decide (q * quarterLines < (base + len) / 64)
     else true)

/-- The state of an enclave counts as use of the stacks of its ranges (R348). -/
def EncState.uses : EncState → Bool
  | .build => true
  | .ready => true
  | .broken => true
  | _ => false

def State.enclaveOn (s : State) (e k : Nat) : Bool := (s.enclave e).ranges.any fun r => s.rangeOn r.1 r.2 k

/-- R348: a domain is in enclave use. -/
def State.inEnclaveUse (s : State) (d : Nat) : Bool :=
  if d < 576 then swEm (s.core d).sw && (s.core d).run != .off
  else if 684 ≤ d ∧ d < 696 then s.sec.enclaves.any fun e => e.2.st.uses && s.enclaveOn e.1 (d - 684)
  else false

/-- A saved state is discarded. -/
def idleIfInterrupted (n : Entry) : Entry :=
  match n.run with
  | .interrupted => { n with run := .idle }
  | _ => n

/-- R351: an enclave becomes EVICTED: its key slots are zeroed, cores running it are forced out, saved states go. -/
def State.evictEnclave (s : State) (e : Nat) : State :=
  let x := s.enclave e
  if x.st == .evicted then s
  else
  let s := s.setEnclave e { x with
    st := .evicted,
    entries := tmap idleIfInterrupted x.entries }
  let s := { s with
    hier := { s.hier with mcs := tmap (fun m => { m with keys := tdel m.keys e }) s.hier.mcs },
    cores := tmap (fun c => if swEm c.sw && c.eid == e then { c with forced := true } else c) s.cores }
  s.fault (srcCode 0 0 5) 0x52 none e

/-! ### Results of requests (R63) -/

/-- The outcome of a request reaches whoever asked for it: PKG_RESULT, RESET_RESULT or Brixmen. `v` is VALUE on DONE. -/
def State.reportReq (s : State) (r : SeqReq) (ok : Bool) (v code detail : Nat) : State :=
  let fin (c : Chan) : Chan := if ok then c.done v else c.fail code detail
  if r.by_ == 2 then if s.mgmt.running.isSome then s.mgmtEnd (fin s.mgmt.res) else s
  else if r.by_ == 1 then
    if headPurpose r.purpose || r.purpose == 3 || r.purpose == 4 then
      if s.fc.rres.status == 1 then { s with fc := { s.fc with rres := fin s.fc.rres } } else s
    else if s.power.res.status == 1 then { s with power := { s.power with res := fin s.power.res } } else s
  else s

def codeQueueFull : Nat := 0x10D

/-- A request is queued, or refused with QUEUE_FULL. -/
def State.queueReq (s : State) (r : SeqReq) : State :=
  let (ok, s) := s.seqAsk r
  if ok then s else s.reportReq r false 0 codeQueueFull 0

/-! ### Held cuts (R349) -/

/-- A cut as the security block holds it: a DOM_CTL request 2 or 3, or a Sequencer request. -/
def cutOf (r : SeqReq) : Nat := 16 + r.purpose + 256 * r.param + 2 ^ 24 * r.by_
def cutReq (c : Nat) : SeqReq := ⟨(c - 16) % 256, (c - 16) / 256 % 2 ^ 16, c / 2 ^ 24⟩

/-- A cut that need wait no longer is carried out. -/
def State.doCut (s : State) (d cut : Nat) : State :=
  if cut < 16 then if (s.dom d).st == .run then s.beginClose d (cut == 2) else s
  else s.queueReq (cutReq cut)

/-- A cut arrives: held while its domain is in enclave use, else carried out. -/
def State.cut (s : State) (d c : Nat) : State :=
  if s.inEnclaveUse d then { s with sec := { s.sec with cuts := s.sec.cuts ++ [(d, c, s.now)] } } else s.doCut d c

/-- A Sequencer request that cuts several domains: it waits for every one in enclave use. -/
def State.cutAll (s : State) (ds : List Nat) (r : SeqReq) : State :=
  let used := ds.filter s.inEnclaveUse
  if used.isEmpty then s.queueReq r
  else
    let c : List (Nat × Nat × Nat) := used.map fun d => (d, cutOf r, s.now)
    { s with sec := { s.sec with cuts := s.sec.cuts ++ c } }

/-- Cuts whose domain is no longer in enclave use proceed. -/
def State.releaseCuts (s : State) : State :=
  let free := s.sec.cuts.filter fun c => !s.inEnclaveUse c.1
  let left := s.sec.cuts.filter fun c => s.inEnclaveUse c.1
  let s := { s with sec := { s.sec with cuts := left } }
  let s := (free.filter fun c => c.2.1 < 16).foldl (fun s c => s.doCut c.1 c.2.1) s
  let codes := ((free.filter fun c => 16 ≤ c.2.1 && !left.any fun x => x.2.1 == c.2.1).map fun c => c.2.1).eraseDups
  codes.foldl (fun s c => s.doCut 0 c) s

/-- CUT_HOLD (R349). -/
def execCutHold (domain cut : Nat) (s : State) : Out := onWf (domainOk domain) (s.cut domain cut)

/-- ENCLAVE_GRACE_EXPIRY (R350): a cut is still held at the end of the grace period. -/
def execEnclaveGraceExpiry (domain : Nat) (s : State) : Out :=
  onWf (domainOk domain)
    (if s.sec.cuts.any fun c => c.1 == domain && decide (c.2.2 + s.enclaveGrace ≤ s.now) then
       if domain < 576 then
         let c := s.core domain
         let e := c.eid
         let c := { c with
           a := 0, x := 0, y := 0, l := 0, f := 0, va := 0, p := 0, sw := 0, sb := [],
           fmap := [], run := .stopped, stall := .none }
         let s := s.setCore domain ((c.predFlush.setReg 0x100 0).setReg 0x101 0)
         (s.evictEnclave e).releaseCuts
       else
         let es := (s.sec.enclaves.filter fun e => e.2.st.uses && s.enclaveOn e.1 (domain - 684)).map (·.1)
         (es.foldl (fun s e => s.evictEnclave e) s).releaseCuts
     else s)

end Sys2Proof.Machine
end

