-- ==== Sys2Proof/Machine/Router.lean ====
section
/-! DEFINITION. The interrupt router (Chapter 11): residency, delivery, posting, and the deliveries that reach cores. -/

namespace Sys2Proof.Machine

def routerSrc : BitVec 16 := srcCode 0 0 3
def routerBlock : Nat := hubBlock 0x200000
def routerNode : Nat := 0x3DC

/-! ### Tenant entries (Table 11-4, R330) -/

/-- A tenant entry as TENANT_DEFAULTS gives it at a reset. -/
def State.defaultTenant (s : State) : Tenant :=
  { Tenant.initial with cls := BitVec.ofNat 3 (s.img secTenant 0 1 0), en := s.img secTenant 1 1 0 == 1 }

def State.tenant (s : State) (t : BitVec 12) : Tenant := tget s.router.tenants t.toNat s.defaultTenant
def State.setTenant (s : State) (t : BitVec 12) (x : Tenant) : State :=
  { s with router := { s.router with tenants := tput s.router.tenants t.toNat x } }

/-- The class that an engine's request for a tenant carries (R324). -/
def State.tenantCls (s : State) (t : BitVec 12) : BitVec 3 := (s.tenant t).cls

/-- Field j of TE_TARGET0 and TE_TARGET1: V and CORE of group g. -/
def Tenant.group (x : Tenant) (g : Nat) : Bool × Nat :=
  let w := if g < 4 then x.target0 else x.target1
  (bit w (16 * (g % 4) + 15), fld w (16 * (g % 4)) 10)

/-- PIT_BASE.BASE and PIT_BASE.EN of the router. -/
def State.pitBase (s : State) : Nat := fld s.router.pitBase 21 31 * 2 ^ 21
def State.pitEn (s : State) : Bool := bit s.router.pitBase 0

/-- The TID that the router last learned of a core (R312). -/
def State.residentOf (s : State) (c : Nat) : BitVec 12 := tget s.router.resident c 0

/-- The lowest core that the router records with a TID resident. -/
def State.residentCore (s : State) (t : BitVec 12) : Option Nat :=
  lowest (fun c => s.coreEnabled c && s.residentOf c == t) 576

/-! ### Posting (R320) -/

/-- The summary bit and the doorbell latch that end a post. -/
def State.ringDoorbell (s : State) (t : BitVec 12) : State :=
  let s := { s with router := { s.router with summary := insertNew s.router.summary t.toNat } }
  let c := (s.tenant t).doorbell.toNat
  if c < 576 && s.coreEnabled c then s.modCore c fun x => { x with doorbell := true } else s

/-- A post has failed at an address: LOST, a fault message, the summary bit and the doorbell. -/
def State.postLost (s : State) (t : BitVec 12) (pa : Nat) : State :=
  let s := s.setTenant t { s.tenant t with lost := true }
  (s.fault routerSrc 0x43 (some t) pa).ringDoorbell t

/-- Residency updates of TSWITCH whose posts have all ended are answered (R322): the class and the group mask. -/
def State.answerSwitches (s : State) : State :=
  let ready := s.router.switching.filter fun w => !(s.router.posts.any fun p => p.tid == w.2)
  let s := { s with router := { s.router with switching := s.router.switching.filter fun w => !(ready.contains w) } }
  ready.foldl (fun s w =>
    let x := s.tenant w.2
    let mask := (List.range 8).foldl (fun m g => if x.group g == (true, w.1) then m + 2 ^ g else m) 0
    let mask := if s.router.quiesce.any fun q => q.tid == w.2 then 0 else mask
    s.send (.residencyAnswer w.1 x.cls (BitVec.ofNat 8 mask))) s

/-- The router writes 0x01 to the vector's byte; a post it cannot send yet returns to its input. -/
def State.post (s : State) (t : BitVec 12) (v : BitVec 9) : State :=
  let pa := s.pitBase + 512 * t.toNat + v.toNat
  if !s.pitEn then s.postLost t pa
  else
    match s.issue routerNode t (s.tenantCls t) fun h => .wrpart h (pa / 64) ⟨1, 1, BitVec.ofNat 6 pa, false⟩ with
    | some (h, s) => { s with router := { s.router with posts := s.router.posts ++ [⟨t, v, pa / 64, h.tag⟩] } }
    | none => s.send (.routerMessage t v)

/-- The Cmp, or the error response, of the write with a tag of node 0x3DC has come. -/
def State.postEnd (s : State) (tag : Nat) (ok : Bool) : State :=
  match takeFirst (fun p => p.tag == tag) s.router.posts with
  | none => s
  | some (p, rest) =>
    let s := { s with router := { s.router with posts := rest } }
    let s := if ok then
        let s := s.ringDoorbell p.tid
        { s with router := { s.router with posted := s.router.posted + 1 } }
      else s.postLost p.tid (64 * p.line + p.vector.toNat % 64)
    s.answerSwitches

/-! ### Delivery (R318, R319) -/

/-- R318: the router takes one message. -/
def State.route (s : State) (t : BitVec 12) (v : BitVec 9) : State :=
  let x := s.tenant t
  if !x.en then { s with router := { s.router with discarded := s.router.discarded + 1 } }
  else
    let g := x.group (v.toNat / 64)
    if g.1 && decide (g.2 < 576) && s.residentOf g.2 == t then
      { s with router := { s.router with direct := s.router.direct + 1 } }.send (.interruptDelivery g.2 t v)
    else s.post t v

/-- ROUTER_MESSAGE (R318, R453): a message for a paused tenant is held. -/
def execRouterMessage (tid : BitVec 12) (vector : BitVec 9) (s : State) : Out :=
  onArrival true (.routerMessage tid vector) s fun s =>
    if s.router.paused.contains tid then
      { s with router := { s.router with held := s.router.held ++ [(tid, vector)] } }
    else s.route tid vector

/-- A delivery returns to the router, which posts it (R319). -/
def State.returnDelivery (s : State) (t : BitVec 12) (v : BitVec 9) : State :=
  { s with router := { s.router with returned := s.router.returned + 1 } }.post t v

/-- Set bit v of VEC_PEND. -/
def Core.pend (c : Core) (v : Nat) : Core :=
  let n := 0x84 + v / 64
  c.setReg n (setBit (c.reg n) (v % 64) true)

/-- R319, R323: a delivery is compared with the core's TID; while a write of TID has a window open, either value may be
the one that is compared. -/
def State.compareDelivery (s : State) (c : Nat) (t : BitVec 12) (v : BitVec 9) : State :=
  let x := s.core c
  let id : BitVec 12 := ((x.pick s.free srTid).getD (x.reg srTid)).setWidth 12
  let s := { s with free := s.free + 1 }
  let live := x.run == .running || x.run == .wfi || x.run == .paused
  if live && id == t then s.setCore c (x.pend v.toNat) else s.returnDelivery t v

/-- A delivery reaches a core or its door (R319, Table 16-2, Table 17-6). -/
def State.deliver (s : State) (c : Nat) (t : BitVec 12) (v : BitVec 9) : State :=
  let d := s.dom c
  if s.unitFenced c || !s.coreEnabled c || d.st == .off then s.returnDelivery t v
  else if d.st == .run then
    match (s.core c).stall with
    | .tpush _ _ => s.modCore c fun x => { x with heldDel := x.heldDel ++ [(t, v)] }
    | .tswitch _ _ _ => s.modCore c fun x => { x with heldDel := x.heldDel ++ [(t, v)] }
    | _ => s.compareDelivery c t v
  else
    let s := s.holdAt c (.interruptDelivery c t v)
    if d.st == .closing then s else s.doorWake c

/-- INTERRUPT_DELIVERY (R319). -/
def execInterruptDelivery (c : Nat) (tid : BitVec 12) (vector : BitVec 9) (s : State) : Out :=
  onArrival (coreOk c) (.interruptDelivery c tid vector) s fun s => s.deliver c tid vector

/-- RESIDENCY_UPDATE (R312, R322): the record of the core changes; TSWITCH is answered once no post of the new tenant is
outstanding. -/
def execResidencyUpdate (c : Nat) (tid : BitVec 12) (tswitch : Bool) (s : State) : Out :=
  onArrival (coreOk c) (.residencyUpdate c tid tswitch) s fun s =>
    let s := { s with router := { s.router with resident := tput s.router.resident c tid } }
    if tswitch then
      { s with router := { s.router with switching := s.router.switching ++ [(c, tid)] } }.answerSwitches
    else s

/-- At RESUME the router handles what it held for a tenant, in grant order (R453). -/
def State.routerResume (s : State) (t : BitVec 12) : State :=
  let mine := s.router.held.filter fun m => m.1 == t
  let s := { s with router := { s.router with
    paused := s.router.paused.filter (· != t), held := s.router.held.filter fun m => m.1 != t } }
  mine.foldl (fun s m => s.route m.1 m.2) s

/-! ### Registers (Tables 11-3 and 11-4) -/

def b2n (b : Bool) : Nat := b.toNat

/-- TE_CTL of a tenant. -/
def Tenant.word (x : Tenant) : Word :=
  BitVec.ofNat 64 (b2n x.en * 2 ^ 63 + b2n x.quiesced * 2 ^ 62 + b2n x.quiescing * 2 ^ 61 + b2n x.lost * 2 ^ 60 +
    x.cls.toNat * 2 ^ 40 + x.doorbell.toNat * 2 ^ 16)

/-- The fields of TE_CTL that software writes (R324, R333). -/
def Tenant.write (x : Tenant) (v : Word) : Tenant :=
  { x with
    en := bit v 63, quiesced := x.quiesced && !bit v 63, lost := x.lost && !bit v 60,
    cls := BitVec.ofNat 3 (fld v 40 3), doorbell := BitVec.ofNat 10 (fld v 16 10) }

/-- V and CORE of four groups: the writable bits of TE_TARGET. -/
def targetMask : Word := 0x83FF83FF83FF83FF

/-- PEND_SUMMARYn. -/
def State.summaryWord (s : State) (n : Nat) : Word :=
  BitVec.ofNat 64 (s.router.summary.foldl (fun a t => if t / 64 == n then a + 2 ^ (t % 64) else a) 0)

/-- Read a 64-bit register of the router block at an offset; none where there is no register. -/
def State.routerRead (s : State) (off : Nat) : Option Word :=
  let r := s.router
  if off == 0x10 then some r.pitBase
  else if off == 0x18 then some (BitVec.ofNat 64 r.qtid.toNat)
  else if off == 0x20 then some r.qres.word
  else if off == 0x28 then some r.direct
  else if off == 0x30 then some r.posted
  else if off == 0x38 then some r.returned
  else if off == 0x40 then some r.discarded
  else if 0x100 ≤ off ∧ off < 0x300 then some (s.summaryWord ((off - 0x100) / 8))
  else if 0x10000 ≤ off ∧ off < 0x30000 then
    let x := s.tenant (BitVec.ofNat 12 ((off - 0x10000) / 32))
    match (off - 0x10000) % 32 with
    | 0 => some x.word
    | 8 => some x.target0
    | 16 => some x.target1
    | _ => none
  else none

end Sys2Proof.Machine
end

