-- ==== Sys2Proof/Machine/Dma.lean ====
section
/-! DEFINITION. Reads and writes of memory by the engines without caches (R249, R266, R269): requests by tag, their answers,
and the stretches that a long transfer is cut into. -/

namespace Sys2Proof.Machine

/-- `n` bytes at a physical address, cut where lines end. -/
def lineChunks : Nat → Nat → Nat → List (Nat × Nat)
  | 0, _, _ => []
  | fuel + 1, pa, n =>
    if n == 0 then [] else
      let k := min n (64 - pa % 64)
      (pa, k) :: lineChunks fuel (pa + k) (n - k)

def chunksOf (pa n : Nat) : List (Nat × Nat) := lineChunks (n / 64 + 2) pa n

/-! ### Reads -/

/-- A reader without a request out sends its next RdCur, if its node has a free tag. -/
def State.askReader (s : State) (r : Reader) : Reader × State :=
  match r.tag, r.todo with
  | none, (pa, _) :: _ =>
    match s.issue r.node r.tid r.cls fun h => .rdcur h (pa / 64) with
    | some (h, s) => ({ r with tag := some h.tag }, s)
    | none => (r, s)
  | _, _ => (r, s)

def askAll : List Reader → State → List Reader × State
  | [], s => ([], s)
  | r :: l, s =>
    let a := s.askReader r
    let b := askAll l a.2
    (a.1 :: b.1, b.2)

/-- Every reader that can send its next request does. -/
def State.pumpReaders (s : State) : State :=
  let a := askAll s.readers s
  { a.2 with readers := a.1 }

/-- Begin to read stretches of memory. -/
def State.startRead (s : State) (node : Nat) (tid : BitVec 12) (cls : BitVec 3) (why : ReadFor) (todo : List (Nat × Nat)) :
    State :=
  let r : Reader := ⟨node, tid, cls, why, todo, [], none⟩
  { s with readers := s.readers ++ [r] }.pumpReaders

/-- How a reader stands after an answer: it goes on, it has everything, or its read failed with a code (0 for poison). -/
inductive ReadEnd where
  | none
  | done (r : Reader)
  | bad (r : Reader) (code pa : Nat)
  deriving DecidableEq, Repr

/-- Take the reader that waits for a tag of a node. -/
def State.takeReader (s : State) (node tag : Nat) : Option (Reader × State) :=
  (takeFirst (fun r => r.node == node && r.tag == some tag) s.readers).map fun x => (x.1, { s with readers := x.2 })

/-- CurData for a reader: poison ends it, else its bytes are kept and the next chunk is asked for (R302). -/
def State.readerData (s : State) (node tag : Nat) (d : LineData) : ReadEnd × State :=
  match s.takeReader node tag with
  | none => (.none, s)
  | some (r, s) =>
    match r.todo with
    | [] => (.none, s)
    | (pa, n) :: rest =>
      if d.poison then (.bad r 0 pa, s.pumpReaders)
      else
        let bs := (List.range n).map fun i => byteOf d.bytes (pa % 64 + i)
        let r := { r with todo := rest, got := r.got ++ bs }
        if rest.isEmpty then (.done r, s.pumpReaders)
        else (.none, { s with readers := s.readers ++ [{ r with tag := none }] }.pumpReaders)

/-- An error response for a reader ends it. -/
def State.readerErr (s : State) (node tag code : Nat) : ReadEnd × State :=
  match s.takeReader node tag with
  | none => (.none, s)
  | some (r, s) => (.bad r code ((r.todo.head?).map (·.1) |>.getD 0), s.pumpReaders)

/-! ### Writes -/

/-- Send what can be sent of stretches: whole lines by WrLine, the rest by WrPart of at most 32 bytes, as long as the node
has free tags. Answers the ids of what was sent and what is left. -/
def State.sendPieces (s : State) (node : Nat) (tid : BitVec 12) (cls : BitVec 3) :
    Nat → List (Nat × List Byte) → List (Nat × Nat) → List (Nat × Nat) × List (Nat × List Byte) × State
  | 0, todo, ids => (ids, todo, s)
  | fuel + 1, todo, ids =>
    match todo with
    | [] => (ids, [], s)
    | (pa, bs) :: rest =>
      if bs.isEmpty then s.sendPieces node tid cls fuel rest ids
      else
        let off := pa % 64
        let line := pa / 64
        if off == 0 && bs.length ≥ 64 && !(s.noWrLine node line) then
          let s := s.request (.wrline ⟨node, 256, 0, tid, cls⟩ line ⟨ofBytes 512 (bs.take 64), false⟩)
          s.sendPieces node tid cls fuel ((pa + 64, bs.drop 64) :: rest) (ids ++ [(256, line)])
        else
          let k := min (min bs.length 32) (64 - off)
          match s.issue node tid cls fun h => .wrpart h line
              ⟨ofBytes 256 (bs.take k), BitVec.ofNat 32 (2 ^ k - 1), BitVec.ofNat 6 off, false⟩ with
          | some (h, s) => s.sendPieces node tid cls fuel ((pa + k, bs.drop k) :: rest) (ids ++ [(h.tag, line)])
          | none => (ids, todo, s)

def piecesFuel (todo : List (Nat × List Byte)) : Nat := todo.foldl (fun a p => a + p.2.length + 2) 1

/-- A writer sends what it still has to send. -/
def State.pushWriter (s : State) (w : Writer) : Writer × State :=
  let (ids, left, s) := s.sendPieces w.node w.tid w.cls (piecesFuel w.todo) w.todo []
  ({ w with waits := w.waits ++ ids, todo := left }, s)

def pushAll : List Writer → State → List Writer × State
  | [], s => ([], s)
  | w :: l, s =>
    let a := s.pushWriter w
    let b := pushAll l a.2
    (a.1 :: b.1, b.2)

/-- Every writer that can send more does. -/
def State.pumpWriters (s : State) : State :=
  let a := pushAll s.writers s
  { a.2 with writers := a.1 }

/-- Begin to write stretches of memory. -/
def State.startWrite (s : State) (node : Nat) (tid : BitVec 12) (cls : BitVec 3) (why : WriteFor)
    (todo : List (Nat × List Byte)) : State :=
  let (w, s) := s.pushWriter ⟨node, tid, cls, [], todo, why, none⟩
  { s with writers := s.writers ++ [w] }

/-- A write of a node has been acknowledged, or has failed with (code, address): the writers it completes. -/
def State.writeEnded (s : State) (node : Nat) (id : Nat × Nat) (bad : Option (Nat × Nat)) : List Writer × State :=
  let upd (w : Writer) : Writer :=
    if w.node == node && w.waits.contains id then
      { w with waits := w.waits.filter (· != id), failed := w.failed <|> bad }
    else w
  let ws := s.writers.map upd
  let ended (w : Writer) : Bool := w.waits.isEmpty && w.todo.isEmpty
  (ws.filter ended, { s with writers := ws.filter fun w => !ended w }.pumpWriters)

/-- Writers that had nothing to write end at once. -/
def State.idleWriters (s : State) : List Writer × State :=
  let ended (w : Writer) : Bool := w.waits.isEmpty && w.todo.isEmpty
  (s.writers.filter ended, { s with writers := s.writers.filter fun w => !ended w })

end Sys2Proof.Machine
end

