-- ==== Sys2Proof/Machine/Ecdsa.lean ====
section
/-! DEFINITION. ECDSA over P-384 (R48, R346): signatures of images and of attestation reports. -/

namespace Sys2Proof.Machine

/-- The field prime, the group order and the coefficient b of P-384 (FIPS 186). -/
def p384 : Nat := 2 ^ 384 - 2 ^ 128 - 2 ^ 96 + 2 ^ 32 - 1
def n384 : Nat :=
  0xffffffffffffffffffffffffffffffffffffffffffffffffc7634d81f4372ddf581a0db248b0a77aecec196accc52973
def b384 : Nat :=
  0xb3312fa7e23ee7e4988e056be3f82d19181d9c6efe8141120314088f5013875ac656398d8a2ed19d2a85c8edd3ec2aef

/-- A power modulo m, by the low `k` bits of the exponent. -/
def powMod (m : Nat) : Nat → Nat → Nat → Nat
  | 0, _, _ => 1
  | k + 1, b, e =>
    let r := powMod m k (b * b % m) (e / 2)
    if e % 2 == 1 then b * r % m else r

/-- The inverse modulo a prime. -/
def invMod (m a : Nat) : Nat := powMod m 384 (a % m) (m - 2)

/-- A point of the curve: none is the point at infinity. -/
abbrev Pt := Option (Nat × Nat)

def subMod (m a b : Nat) : Nat := (a % m + m - b % m) % m

/-- The base point. -/
def g384 : Pt :=
  some (0xaa87ca22be8b05378eb1c71ef320ad746e1d3b628ba79b9859f741e082542a385502f25dbf55296c3a545e3872760ab7,
    0x3617de4a96262c6f5d9e98bf9292dc29f8f41dbd289a147ce9da3113b5f0b8c00a60b1ce1d7e819d7a431d7c90ea0e5f)

/-- The sum of two points. -/
def ptAdd (a b : Pt) : Pt :=
  match a, b with
  | none, q => q
  | q, none => q
  | some (x1, y1), some (x2, y2) =>
    let p := p384
    if x1 == x2 && (y1 + y2) % p == 0 then none
    else
      let l := if x1 == x2 then (3 * x1 * x1 + (p - 3)) % p * invMod p (2 * y1) % p
        else subMod p y2 y1 * invMod p (subMod p x2 x1) % p
      let x3 := subMod p (l * l) (x1 + x2)
      some (x3, subMod p (l * subMod p x1 x3) y1)

/-- A multiple of a point, by the low `k` bits of the factor. -/
def ptMul : Nat → Nat → Pt → Pt
  | 0, _, _ => none
  | k + 1, n, q =>
    let r := ptMul k (n / 2) (ptAdd q q)
    if n % 2 == 1 then ptAdd q r else r

/-- A public key in uncompressed SEC 1 form, 97 bytes. -/
def ptBytes : Pt → List Byte
  | none => [0]
  | some (x, y) => 4 :: (beBytes 48 x ++ beBytes 48 y)

/-- The two points of the curve with an x coordinate. -/
def liftX (x : Nat) : List Pt :=
  let p := p384
  let y2 := (x * x % p * x + (p - 3) * x + b384) % p
  let y := powMod p 384 y2 ((p + 1) / 4)
  if x < p && y * y % p == y2 then [some (x, y), some (x, (p - y) % p)] else []

/-- The keys under which (r, s) is a signature of the hash z. -/
def recoverKeys (z r s : Nat) : List Pt :=
  let n := n384
  if r == 0 || s == 0 || n ≤ r || n ≤ s then []
  else
    ((liftX r ++ liftX (r + n)).map fun q =>
      let w := invMod n r
      ptAdd (ptMul 384 (s * w % n) q) (ptMul 384 (subMod n 0 (z % n * w % n)) g384)).filter fun q => q.isSome

/-- R48: (r, s) signs `msg` under the key whose SHA-384 is `keyId`. -/
def ecdsaBy (keyId : List Byte) (msg : List Byte) (r s : Nat) : Bool :=
  (recoverKeys (beNat (sha384 msg)) r s).any fun q => sha384 (ptBytes q) == keyId

/-- The signature of `msg` by the private key d with the per-signature secret k: SIG_R and SIG_S, 48 bytes each. -/
def ecdsaSign (d k : Nat) (msg : List Byte) : List Byte :=
  let n := n384
  let r := match ptMul 384 (k % n) g384 with
    | some (x, _) => x % n
    | none => 0
  let s := invMod n k * ((beNat (sha384 msg) + r * d) % n) % n
  beBytes 48 r ++ beBytes 48 s

end Sys2Proof.Machine
end

