-- ==== Sys2Proof/Machine/Warden.lean ====
section
/-! DEFINITION. The security block and the Warden (Chapter 12): ranges and keys, the six commands, the Warden's restart. -/

namespace Sys2Proof.Machine

def secSrc : BitVec 16 := srcCode 0 0 5
def secBlock : Nat := hubBlock 0x4000000
def secNode : Nat := 0x3EE

/-- The failure code of a command whose memory access was answered Err (R269, Table 1-7). -/
def memFail (code : Nat) : Nat := if code == 1 then codeTargetUnmapped else codePoisoned

/-! ### Ranges (R335–R338) -/

def inRange (r : Nat × Nat) (pa : Nat) : Bool := decide (r.1 ≤ pa) && decide (pa < r.1 + r.2)
def inRanges (rs : List (Nat × Nat)) (pa : Nat) : Bool := rs.any fun r => inRange r pa
def overlap (a b : Nat × Nat) : Bool := decide (a.1 < b.1 + b.2) && decide (b.1 < a.1 + a.2)

/-- Every byte of a stretch lies in the ranges: each 64-byte line of it does. -/
def allOwned (rs : List (Nat × Nat)) (pa n : Nat) : Bool :=
  (List.range ((pa + n - 1) / 64 - pa / 64 + 1)).all fun i => inRanges rs (64 * (pa / 64 + i))

/-- A line of a stretch is owned by an enclave. -/
def State.anyOwned (s : State) (pa n : Nat) : Bool :=
  (List.range ((pa + n - 1) / 64 - pa / 64 + 1)).any fun i => (rangeOwner s.sec.baseRanges (pa / 64 + i)).isSome

/-- Every range that any enclave holds or is being given. -/
def State.allRanges (s : State) : List (Nat × Nat) :=
  (s.sec.enclaves.map fun e => e.2.ranges).flatten ++ ((s.sec.running.map (·.ranges)).getD [])

/-- R335: base and length are multiples of 4 KiB, in populated DRAM, and overlap no other range. -/
def State.rangeFits (s : State) (r : Nat × Nat) : Bool :=
  r.1 % 4096 == 0 && r.2 % 4096 == 0 && decide ((r.1 + r.2) ≤ 64 * s.dramLines) && !(s.allRanges.any (overlap r))

def pairwiseApart : List (Nat × Nat) → Bool
  | [] => true
  | r :: l => !(l.any (overlap r)) && pairwiseApart l

/-- A stack that is fenced or belongs to a lost base die cannot be reached (R467). -/
def State.stackGone (s : State) (k : Nat) : Bool := s.isFenced (stackDomain k) || s.isFenced (1400 + k / 3)

def State.rangesGone (s : State) (rs : List (Nat × Nat)) : Bool :=
  rs.any fun r => (List.range 12).any fun k => s.stackGone k && s.rangeOn r.1 r.2 k

/-- Lines of the ranges. -/
def rangeLines (rs : List (Nat × Nat)) : List Nat :=
  (rs.map fun r => (List.range (r.2 / 64)).map fun i => r.1 / 64 + i).flatten

/-- A line of a stack that can be reached. -/
def State.reachable (s : State) (line : Nat) : Bool := (s.locate line).any fun p => !s.stackGone p.stack

/-- Lines of the ranges that a slice holds or a directory lists. -/
def State.copiesIn (s : State) (rs : List (Nat × Nat)) : List Nat :=
  ((s.hier.slices.map fun h => h.2.lines.map fun e => e.2.line).flatten ++ s.hier.dirs.map (·.2.1)).eraseDups.filter fun l =>
    inRanges rs (64 * l) && s.reachable l

/-- No transaction of a line of the ranges is under way. -/
def State.rangeQuiet (s : State) (rs : List (Nat × Nat)) : Bool :=
  let hit (l : Nat) : Bool := inRanges rs (64 * l)
  !(s.hier.txns.any fun t => hit t.1) && !(s.hier.wq.any fun w => hit w.1) && !(s.hier.queues.any fun q => !q.2.isEmpty && hit q.1) &&
    !(s.cores.any fun c => c.2.txns.any (fun t => hit t.line) || c.2.evict.any fun b => hit b.line) &&
    !(s.hier.tags.any fun t => (t.2.req.bind reqInfo).any fun r => hit r.2.1)

/-- The security block asks a line's home for its flush, unless it has, or lacks a tag (R338). -/
def State.flushLine (s : State) (line : Nat) : State :=
  if s.writers.any fun w => w.why == .rangeFlush && w.waits.any (·.2 == line) then s
  else
    match s.issue secNode 0 0 fun h => .cflreq h line with
    | some (h, s) => { s with writers := s.writers ++ [⟨secNode, 0, 0, [(h.tag, line)], [], .rangeFlush, none⟩] }
    | none => s

/-- The cores drop what maps a range: TLB and owner-cache entries, and frame-operand map entries of its lines (R338). -/
def Core.dropRange (rs : List (Nat × Nat)) (c : Core) : Core :=
  let maps (e : TlbEntry) : Bool := rs.any fun r => overlap r (e.pbase, 2 ^ e.bits)
  { c with
    itlb := c.itlb.filter fun e => !maps e.2, dtlb := c.dtlb.filter fun e => !maps e.2,
    l2tlb := c.l2tlb.filter fun e => !maps e.2, owners := c.owners.filter fun o => !inRanges rs (4096 * o.1),
    fmap := c.fmap.filter fun e => !inRanges rs (64 * e.2.line) }

/-- No core holds a store into the ranges that is not yet visible. -/
def State.rangeStored (s : State) (rs : List (Nat × Nat)) : Bool := !(s.cores.any fun c => c.2.sb.any fun e => inRanges rs e.pa)

/-- A step of installing or removing is done everywhere: every agent and controller acknowledges it. -/
def State.stepAcked (s : State) : State := s.send .rangeStepAck

/-- Every line of the ranges that can be reached is written with zeros by WrLine; the step ends with the last Cmp (R338). -/
def State.zeroRanges (s : State) (rs : List (Nat × Nat)) : State :=
  let todo := ((rangeLines rs).filter s.reachable).map fun l => (64 * l, List.replicate 64 (0 : Byte))
  if todo.isEmpty then s.stepAcked else s.startWrite secNode 0 0 .rangeZero todo

def State.setRun (s : State) (r : Option WardenRun) : State := { s with sec := { s.sec with running := r } }

/-- Tell every enabled controller to take keys and ranges. -/
def State.updateKeys (s : State) : State := s.sendAll (s.stacks.map fun k => .keyUpdate k)

/-- A command of the Warden ends. -/
def State.wardenEnd (s : State) (f : Chan → Chan) : State :=
  if s.sec.res.status == 1 then { s with sec := { s.sec with res := f s.sec.res } } else s

/-- Begin a step of the running request. -/
def State.beginStep (s : State) (r : WardenRun) (n : Nat) : State :=
  let s := s.setRun (some { r with step := n })
  let tag (r : Nat × Nat) (e : Nat) : Nat × Nat × Nat := (e, r.1, r.2)
  let mine := r.ranges.map fun x => tag x r.eid
  match r.install, n with
  | true, 1 => { s with
      sec := { s.sec with coreRanges := s.sec.coreRanges ++ mine },
      cores := tmap (Core.dropRange r.ranges) s.cores }.stepAcked
  | true, 2 => { s with sec := { s.sec with baseRanges := s.sec.baseRanges ++ mine } }.stepAcked
  | true, 4 =>
    let s := { s with sec := s.sec.draw }
    (s.setRun (some { r with step := 4, key := Config.drbg (s.sec.drbg - 1) })).updateKeys
  | true, 5 => s.zeroRanges r.ranges
  | false, 2 => s.updateKeys
  | false, 3 => s.zeroRanges r.ranges
  | false, 4 => { s with sec := { s.sec with baseRanges := s.sec.baseRanges.filter fun x => x.1 != r.eid } }.stepAcked
  | false, 5 => { s with
      sec := { s.sec with coreRanges := s.sec.coreRanges.filter fun x => x.1 != r.eid },
      cores := tmap (Core.dropRange r.ranges) s.cores }.stepAcked
  | _, _ => s.stepAcked

def codeDieLost : Nat := 0x171

/-- CREATE or DESTROY has ended all its steps. -/
def State.endRun (s : State) (r : WardenRun) : State :=
  let s := s.setRun none
  let st : EncState := if r.orphan then .broken else .build
  let s := if r.install then s.setEnclave r.eid ⟨st, r.ranges, [], 0⟩ else s.setEnclave r.eid Enclave.initial
  (if r.orphan then s
   else s.wardenEnd fun c => if r.gone then c.fail codeDieLost 0 else c.done r.ranges.length).releaseCuts

/-- The lines of the ranges are flushed, and with the last the next step begins. -/
def State.flushRanges (s : State) (r : WardenRun) (n : Nat) : State :=
  let ls := s.copiesIn r.ranges
  if ls.isEmpty && s.rangeQuiet r.ranges then s.beginStep r n else (ls.foldl State.flushLine s).stepAcked

/-- The running step has been acknowledged everywhere: its work is finished and the next one begins (R338). A CREATE that
has lost a stack under its ranges removes what it had installed (R467). -/
def State.stepOn (s : State) (r : WardenRun) : State :=
  if r.install && s.rangesGone r.ranges then s.beginStep { r with install := false, gone := true } 1
  else
    match r.install, r.step with
    | true, 1 => if s.rangeStored r.ranges then s.beginStep r 2 else s.stepAcked
    | true, 3 => s.flushRanges r 4
    | true, 5 => s.endRun r
    | false, 1 => s.flushRanges r 2
    | false, 5 => if s.rangeStored r.ranges then s.endRun r else s.stepAcked
    | _, n => s.beginStep r (n + 1)

/-- KEY_UPDATE (R309, R310): a controller loads the fresh key and the range, or zeroes the slot and removes the range, and
acknowledges; with the last controller the step ends. -/
def execKeyUpdate (stack : Nat) (s : State) : Out :=
  onArrival (stackOk stack) (.keyUpdate stack) s fun s =>
    match s.sec.running with
    | none => s
    | some r =>
      if (r.install && r.step == 4) || (!r.install && r.step == 2) then
        let m := s.mc stack
        let others := m.ranges.filter fun x => x.1 != r.eid
        let s := s.setMc stack (if r.install
          then { m with keys := tput m.keys r.eid r.key, ranges := others ++ r.ranges.map fun x => (r.eid, x.1, x.2) }
          else { m with keys := tdel m.keys r.eid, ranges := others })
        if s.inflight.any (fun i => match i with
          | .keyUpdate _ => true
          | _ => false) then s else s.stepAcked
      else s

/-! ### Commands (R345) -/

/-- A request record's fields. -/
def recLe (b : List Byte) (o n : Nat) : Nat := leNat ((b.drop o).take n)

def codeBadState : Nat := 0x120
def codeRangeInvalid : Nat := 0x121
def codeEntryInvalid : Nat := 0x122
def codeEnclaveBusy : Nat := 0x123
def codeWardenRestarted : Nat := 0x124
def codeWardenDown : Nat := 0x125
def codeEntropy : Nat := 0x126

/-- R37 to R39 of a stretch of memory: it stays below 2^52. -/
def fits52 (pa n : Nat) : Bool := decide (pa + n ≤ 2 ^ 52)

def State.wardenFail (s : State) (code : Nat) : State := s.wardenEnd fun c => c.fail code 0
def State.wardenDone (s : State) (v : Nat) : State := s.wardenEnd fun c => c.done v

/-- The Warden reads bytes with RdCur; what it does with them is in `why`. -/
def State.wardenRead (s : State) (pa n : Nat) (why : ReadFor) : State :=
  if !fits52 pa n then s.wardenFail codeLengthRange
  else s.startRead secNode 0 0 why (chunksOf pa n)

/-- A read of the Warden has failed with an Err code, 0 for poison (R467 for a lost stack). -/
def State.wardenBad (s : State) (code : Nat) : State :=
  s.wardenFail (if code == 0 then codePoisoned else if code == 6 then codeDieLost else memFail code)

/-- Write bytes from node 0x3EE; the command ends with VALUE `v` once every write is acknowledged. -/
def State.wardenWrite (s : State) (pa : Nat) (b : List Byte) (v : Nat) : State :=
  s.startWrite secNode 0 0 (.warden v) [(pa, b)]

/-- CREATE: the (base, length) records with a length other than 0. -/
def State.create (s : State) (e : Nat) (b : List Byte) : State :=
  let count := recLe b 8 1
  if (s.enclave e).st != .free || s.sec.running.any (fun r => r.eid == e) then s.wardenFail codeBadState
  else if count == 0 then s.wardenDone 0
  else if !s.sec.healthy then s.wardenFail codeEntropy
  else s.wardenRead (recLe b 16 8) (16 * count) (.wardenRanges e)

/-- CREATE with its list of ranges. -/
def State.createRanges (s : State) (e : Nat) (l : List Byte) : State :=
  let rs := ((List.range (l.length / 16)).map fun i => (recLe l (16 * i) 8, recLe l (16 * i + 8) 8)).filter fun r => r.2 != 0
  if rs.length > 8 || !(rs.all s.rangeFits) || !pairwiseApart rs then s.wardenFail codeRangeInvalid
  else if s.rangesGone rs then s.wardenFail codeDieLost
  else s.beginStep ⟨true, e, rs, 0, 0, false, false⟩ 1

/-- R346: the measurement takes in an event. -/
def extend (m : BitVec 384) (event : List Byte) : BitVec 384 := ofBytes 384 (sha384 (toBytes m 48 ++ event))

/-- The base of the enclave's first range. -/
def Enclave.base (x : Enclave) : Nat := ((x.ranges.head?).map (·.1)).getD 0

/-- ADD_PAGE. -/
def State.addPage (s : State) (e : Nat) (b : List Byte) : State :=
  let src := recLe b 8 8
  let dst := recLe b 16 8
  let x := s.enclave e
  if x.st != .build then s.wardenFail codeBadState
  else if !fits52 src 4096 || !fits52 dst 4096 then s.wardenFail codeLengthRange
  else if s.anyOwned src 4096 || !allOwned x.ranges dst 4096 then s.wardenFail codeRangeInvalid
  else if s.rangesGone [(src, 4096), (dst, 4096)] then s.wardenFail codeDieLost
  else s.wardenRead src 4096 (.wardenPage e dst ((b.getD 24 0).getLsbD 0))

/-- ADD_PAGE with the page it copies. -/
def State.pageRead (s : State) (e dst : Nat) (measure : Bool) (page : List Byte) : State :=
  let x := s.enclave e
  let s := if measure then
      s.setEnclave e { x with meas := extend x.meas ([1, 0, 0, 0, 0, 0, 0, 0] ++ leBytes 8 (dst - x.base) ++ page) }
    else s
  s.wardenWrite dst page 4096

/-- ADD_ENTRY. -/
def State.addEntry (s : State) (e : Nat) (b : List Byte) : State :=
  let x := s.enclave e
  let i := recLe b 8 1
  let gate := recLe b 10 2
  let target := recLe b 16 8
  let frame := recLe b 24 8
  let save := recLe b 32 8
  if x.st != .build then s.wardenFail codeBadState
  else if 16 ≤ i || (tfind? x.entries i).isSome || save % 64 != 0 || !allOwned x.ranges save 128 || target % 4 != 0 then
    s.wardenFail codeEntryInvalid
  else
    let ev := [2, BitVec.ofNat 8 i] ++ leBytes 2 gate ++ [0, 0, 0, 0] ++ leBytes 8 target ++ leBytes 8 frame ++
      leBytes 8 (save - x.base)
    (s.setEnclave e { x with
      entries := tput x.entries i ⟨BitVec.ofNat 16 gate, BitVec.ofNat 64 target, BitVec.ofNat 64 frame, save, .idle⟩,
      meas := extend x.meas ev }).wardenDone i

/-- SEAL. -/
def State.sealEnclave (s : State) (e : Nat) : State :=
  let x := s.enclave e
  if x.st != .build then s.wardenFail codeBadState else ((s.setEnclave e { x with st := .ready }).wardenDone 0).releaseCuts

/-- The signed part of an attestation report (Table 12-7). -/
def State.reportBody (s : State) (e : Nat) (data : List Byte) : List Byte :=
  [1, 0, 0, 0] ++ leBytes 2 e ++ [0, 0] ++ toBytes Config.wardenVersion 4 ++
    leBytes 4 ((s.seq.active.map fun im => im.le 0x20 4).getD 0) ++ toBytes (s.enclave e).meas 48 ++ data ++
    toBytes Config.packageId 16 ++ List.replicate 16 0

/-- ATTEST. -/
def State.attestEnclave (s : State) (e : Nat) (b : List Byte) : State :=
  let src := recLe b 8 8
  let dst := recLe b 16 8
  if (s.enclave e).st != .ready then s.wardenFail codeBadState
  else if !fits52 src 64 || !fits52 dst 256 then s.wardenFail codeLengthRange
  else if s.anyOwned dst 256 then s.wardenFail codeRangeInvalid
  else if s.rangesGone [(src, 64), (dst, 256)] then s.wardenFail codeDieLost
  else s.wardenRead src 64 (.wardenReport e dst)

/-- ATTEST with its report data. -/
def State.reportRead (s : State) (e dst : Nat) (data : List Byte) : State :=
  let body := s.reportBody e data
  let sig := ecdsaSign Config.attestKey.toNat (Config.attestNonce s.free).toNat body
  { s with free := s.free + 1 }.wardenWrite dst (body ++ sig) 256

/-- DESTROY. -/
def State.destroyEnclave (s : State) (e : Nat) : State :=
  let x := s.enclave e
  let busy := x.entries.any fun n => match n.2.run with
    | .running _ => true
    | _ => false
  if x.st == .free then s.wardenFail codeBadState
  else if busy then s.wardenFail codeEnclaveBusy
  else s.beginStep ⟨false, e, x.ranges, 0, 0, false, false⟩ 1

/-- R345: the request at WARDEN_CMD.REQ is read. -/
def State.wardenRun (s : State) : State := s.wardenRead (64 * s.sec.req) 64 .wardenReq

/-- A request record is run (R345, Table 12-5). -/
def State.wardenRecord (s : State) (b : List Byte) : State :=
  let e := recLe b 4 2
  if recLe b 2 2 != 0 || recLe b 6 2 != 0 || 1024 ≤ e then s.wardenFail codeFieldInvalid
  else
    match recLe b 0 2 with
    | 1 => s.create e b
    | 2 => s.addPage e b
    | 3 => s.addEntry e b
    | 4 => s.sealEnclave e
    | 5 => s.attestEnclave e b
    | 6 => s.destroyEnclave e
    | _ => s.wardenFail codeFieldInvalid

/-- GO of WARDEN_CMD with a request line (R345, R347): ignored while a request runs, failed while the Warden is down. A
DESTROY that outlived a restart of the Warden is finished first. -/
def State.wardenGo (s : State) (req : Nat) : State :=
  let s := { s with sec := { s.sec with req := req % 2 ^ 46 } }
  if s.sec.res.status == 1 then s.violate secBlock
  else
    let s := { s with sec := { s.sec with res := s.sec.res.accept } }
    if !s.sec.up then s.wardenFail codeWardenDown
    else if s.sec.running.isSome then s
    else s.wardenRun

/-- The running step has ended everywhere (R338). A request that waited for an orphaned DESTROY begins once that has ended. -/
def State.stepEnds (s : State) : State :=
  match s.sec.running with
  | none => s
  | some r =>
    let s := s.stepOn r
    if r.orphan && s.sec.running.isNone && s.sec.res.status == 1 && s.sec.up then s.wardenRun else s

/-- RANGE_STEP_ACK (R338): every agent and controller has acknowledged the running step. -/
def execRangeStepAck (s : State) : Out := onArrival true .rangeStepAck s fun s => s.stepEnds

/-- WARDEN_CREATE (R345). Each row of Table 12-5 is a GO whose request record, once it has been read, names the command. -/
def execWardenCreate (req : Nat) (s : State) : Out := .next (s.wardenGo req)
/-- ADD_PAGE (R345, R346). -/
def execAddPage (req : Nat) (s : State) : Out := .next (s.wardenGo req)
/-- ADD_ENTRY (R339, R345, R346). -/
def execAddEntry (req : Nat) (s : State) : Out := .next (s.wardenGo req)
/-- SEAL (R345). -/
def execSealRow (req : Nat) (s : State) : Out := .next (s.wardenGo req)
/-- ATTEST (R345, R346). -/
def execAttest (req : Nat) (s : State) : Out := .next (s.wardenGo req)
/-- WARDEN_DESTROY (R338, R345). -/
def execWardenDestroy (req : Nat) (s : State) : Out := .next (s.wardenGo req)

/-! ### The Warden's health and the entropy source (R344, R347) -/

def WriteFor.isWarden : WriteFor → Bool
  | .warden _ => true
  | _ => false

def breakBuild (x : Enclave) : Enclave := if x.st == .build then { x with st := .broken } else x

/-- WARDEN_RESTART (R347): UP falls, the running request fails, enclaves in BUILD become BROKEN; a DESTROY in its steps, or
the steps a CREATE has reached, are carried on by the security block (R469). -/
def execWardenRestart (s : State) : Out :=
  .next (
    let c := s.sec
    let n := c.restarts + 1
    let res := if c.res.status == 1 then c.res.fail codeWardenRestarted 0 else c.res
    let s := { s with
      sec := { c with
        up := false, restarts := n, res := res, enclaves := tmap breakBuild c.enclaves,
        running := c.running.map fun (r : WardenRun) => { r with orphan := true } },
      writers := s.writers.filter (fun w => !w.why.isWarden), readers := s.readers.filter fun r => r.node != secNode }
    s.fault secSrc 0x51 none n.toNat)

/-- WARDEN_RESTART_COMPLETE (R347). -/
def execWardenRestartComplete (s : State) : Out := .next { s with sec := { s.sec with up := true } }

/-- ENTROPY_FAILURE (R344). -/
def execEntropyFailure (s : State) : Out :=
  .next ({ s with sec := { s.sec with healthy := false } }.fault secSrc 0x50 none 0)

/-- ENTROPY_HEALTH_RESTORED (R344). -/
def execEntropyHealthRestored (s : State) : Out := .next { s with sec := { s.sec with healthy := true } }

/-! ### Memory lost under enclaves (R467) -/

/-- Every enclave with a range byte on a stack that can no longer be reached is evicted at once. -/
def State.evictLost (s : State) : State :=
  let es := (s.sec.enclaves.filter fun e => e.2.st.uses && s.rangesGone e.2.ranges).map (·.1)
  es.foldl (fun s e => s.evictEnclave e) s

/-! ### Registers (Table 12-4) -/

/-- ENC_STATE of an enclave. -/
def Enclave.word (x : Enclave) : Word :=
  let running := (x.entries.filter fun n => match n.2.run with
    | .running _ => true
    | _ => false).length
  let st := match x.st with
    | .free => 0
    | .build => 1
    | .ready => 2
    | .evicted => 3
    | .broken => 4
  BitVec.ofNat 64 (running * 2 ^ 16 + x.entries.length * 2 ^ 8 + x.ranges.length * 2 ^ 4 + st)

/-- Read a register of the security block. -/
def State.secRead (s : State) (off : Nat) : Option Word :=
  let c := s.sec
  if off == 0x10 then some (BitVec.ofNat 64 (c.req * 64))
  else if off == 0x18 then some c.res.word
  else if off == 0x20 then some (BitVec.ofNat 64 (c.restarts.toNat * 2 ^ 32 + c.up.toNat))
  else if 0x10000 ≤ off ∧ off < 0x12000 then some (s.enclave ((off - 0x10000) / 8)).word
  else none

end Sys2Proof.Machine
end

