-- ==== Sys2Proof/Machine/QEngine.lean ====
section
/-! DEFINITION. The queue engines and raw queue pairs (R355–R363, R366–R370): commands, doorbells, descriptors, completions,
halts, frames handed to the ports. -/

namespace Sys2Proof.Machine

/-! ### Places -/

def engineNode (e : Nat) : Nat := 0x3D4 + e
def portNode (p : Nat) : Nat := 0x3CC + p
def portSrc (p : Nat) : BitVec 16 := srcCode 0 0 (8 + p)
def engineBlock (e : Nat) : Nat := hubBlock (0x1800000 + e * 0x100000)
def portBlock (p : Nat) : Nat := hubBlock (0x1000000 + p * 0x100000)

def State.port (s : State) (p : Nat) : Port := tget s.ports p Port.initial
def State.setPort (s : State) (p : Nat) (x : Port) : State := { s with ports := tput s.ports p x }
def State.eng (s : State) (e : Nat) : QEng := tget s.engines e QEng.initial
def State.setEng (s : State) (e : Nat) (x : QEng) : State := { s with engines := tput s.engines e x }
def State.qp? (s : State) (n : Nat) : Option Qp := tfind? s.qps n
def State.setQp (s : State) (n : Nat) (q : Qp) : State := { s with qps := tput s.qps n q }

/-- MODE of a port (Table 13-1). -/
def State.portSplit (s : State) (p : Nat) : Bool := s.img secPorts (9 + 4 * p) 1 0 == 1
/-- A link that the port's mode has. -/
def State.hasLink (s : State) (p l : Nat) : Bool := l == 0 || (l == 1 && s.portSplit p)

/-- A port whose domain runs. -/
def State.portRuns (s : State) (p : Nat) : Bool := s.runs (696 + p)

/-- A link that carries frames: its port runs, its mode has it, it is ready, its clock stands. -/
def State.linkRuns (s : State) (p l : Nat) : Bool :=
  s.portRuns p && s.hasLink p l && bit (s.port p).ready l && !s.board.clocks.contains 1

/-- The MAC address of a link (R353). -/
def State.macOf (s : State) (p l : Nat) : Nat :=
  let b := s.img secPorts 0 6 0
  ((if b == 0 then Config.macBase.toNat else b) + 2 * p + l) % 2 ^ 48

/-- A port counter rises. -/
def State.portCount (s : State) (p : Nat) (f : Port → Port) : State := s.setPort p (f (s.port p))

/-- The engine of a queue pair and its port take new work. -/
def State.qpRuns (s : State) (n : Nat) (q : Qp) : Bool := s.runs (708 + n / 32768) && s.runs (696 + q.port)

/-! ### Windows (R357) -/

/-- Window w covers an intermediate page. -/
def winCovers (w : Word × Word × Word) (page : Nat) : Bool :=
  bit w.2.2 63 && decide (fld w.1 12 36 ≤ page) && decide (page ≤ fld w.2.1 12 36)

/-- The window that an intermediate address uses: its number, and the physical address it gives. -/
def Qp.window (q : Qp) (ia : Nat) : Option (Nat × Nat) :=
  if 2 ^ 48 ≤ ia then none
  else
    (q.windows.findIdx? fun w => winCovers w (ia / 4096)).map fun i =>
      let w := q.windows.getD i (0, 0, 0)
      (i, (fld w.2.2 12 40 * 4096 + ia + 2 ^ 52 - fld w.1 12 36 * 4096) % 2 ^ 52)

/-- Permissions by bit of PBASE: R 60, W 61, RR 58, RW 57. -/
def Qp.allows (q : Qp) (i : Nat) (bits : List Nat) : Bool := bits.all fun b => bit (q.windows.getD i (0, 0, 0)).2.2 b

/-- Physical chunks of a buffer, if every one of them passes R357. -/
def Qp.chunks (q : Qp) (bits : List Nat) (ia n : Nat) : Option (List (Nat × Nat)) :=
  (chunksOf ia n).mapM fun c =>
    match q.window c.1 with
    | some (i, pa) => if q.allows i bits && !isDevice pa then some (pa, c.2) else none
    | none => none

/-- A ring lies wholly in one window with a permission. -/
def Qp.ringOk (q : Qp) (base len b : Nat) : Bool :=
  match q.window base with
  | some (i, _) => q.allows i [b] && (List.range (len / 4096 + 2)).all fun k =>
      (q.window (min (base + 4096 * k) (base + len - 1))).any fun w => w.1 == i
  | none => false

/-- The bytes of a buffer with their physical addresses, for a write. -/
def spread (cs : List (Nat × Nat)) (b : List Byte) : List (Nat × List Byte) :=
  match cs with
  | [] => []
  | (pa, n) :: l => (pa, b.take n) :: spread l (b.drop n)

/-! ### Completions (R360, Tables 13-6 and 13-7) -/

/-- What a completion record says besides PHASE. -/
structure Comp where
  status : Nat
  kind : Nat
  flags : Nat := 0
  len : Nat := 0
  cookie : Word := 0
  ts : Nat := 0
  index : Nat := 0
  vlan : Nat := 0
  imm : BitVec 32 := 0
  deriving DecidableEq, Repr

def Comp.bits (c : Comp) : BitVec 256 :=
  BitVec.ofNat 256 (c.status * 2 ^ 8 + c.kind * 2 ^ 16 + c.flags * 2 ^ 24 + c.len % 2 ^ 32 * 2 ^ 32 +
    c.cookie.toNat * 2 ^ 64 + c.ts % 2 ^ 64 * 2 ^ 128 + c.index % 2 ^ 16 * 2 ^ 192 + c.vlan % 2 ^ 16 * 2 ^ 208 +
    c.imm.toNat * 2 ^ 224)

/-- A completion record is written, with its PHASE; nothing is written once the completion queue has halted. -/
def State.completeBits (s : State) (n : Nat) (r : BitVec 256) (int : Bool) : State :=
  match s.qp? n with
  | none => s
  | some q =>
    if q.cqHalt then s
    else
      let phase := if q.prod / 2 ^ q.cqLog % 2 == 0 then 1 else 0
      let ia := q.cq + 32 * (q.prod % 2 ^ q.cqLog)
      let r := r ||| BitVec.ofNat 256 phase
      let s := s.setQp n { q with prod := (q.prod + 1) % 2 ^ 17 }
      s.startWrite (engineNode (n / 32768)) q.tid (s.tenantCls q.tid) (.completion n int)
        (spread ((q.chunks [61] ia 32).getD []) (toBytes r 32))

def State.complete (s : State) (n : Nat) (c : Comp) (int : Bool) : State := s.completeBits n c.bits int

def stOk : Nat := 0
def stAborted : Nat := 1
def stPoisoned : Nat := 2
def stReadError : Nat := 3
def stWriteError : Nat := 4
def stLength : Nat := 5
def stWindow : Nat := 6
def stTruncated : Nat := 7
def stField : Nat := 8
def stRetry : Nat := 9
def stRemoteAccess : Nat := 0xA
def stRemoteOp : Nat := 0xB
def stFlushed : Nat := 0xC
def stSkipped : Nat := 0xD

/-! ### Descriptors (Table 13-5, R359) -/

def descOf (b : List Byte) : Desc :=
  let flags := b.getD 1 0
  { op := leAt b 0 1, flags := flags, mss := leAt b 2 2, len := leAt b 4 4, addr := BitVec.ofNat 64 (leAt b 8 8),
    cookie := BitVec.ofNat 64 (leAt b 16 8), raddr := BitVec.ofNat 64 (leAt b 24 8), rkey := BitVec.ofNat 32 (leAt b 32 4),
    imm := BitVec.ofNat 32 (leAt b 36 4), l3 := leAt b 40 1, l4 := leAt b 41 1, vlan := BitVec.ofNat 16 (leAt b 42 2),
    reserved := flags.toNat / 64 != 0 || leAt b 44 20 != 0 }

def Desc.int (d : Desc) : Bool := d.flags.getLsbD 0
def Desc.ts (d : Desc) : Bool := d.flags.getLsbD 1
def Desc.tso (d : Desc) : Bool := d.flags.getLsbD 4

/-- The status that ends a descriptor before any of its work (R359), if one does; OK for a LEN of 0. -/
def Desc.early (d : Desc) (isRc send : Bool) : Option Nat :=
  let opOk := if send then d.op == 1 || (isRc && 2 ≤ d.op && d.op ≤ 5) else d.op == 0x10
  let tso := send && !isRc && d.tso
  let mssOk := if tso then 64 ≤ d.mss && d.mss ≤ 9000 else d.mss == 0
  if !opOk || d.reserved || !mssOk then some stField
  else if d.len == 0 then some stOk
  else if send && !isRc then
    if tso then if d.len > 262144 then some stLength else none
    else if d.len < 14 || d.len > 9596 then some stLength else none
  else if d.len > 2 ^ 31 then some stLength else none

/-! ### Reading descriptors -/

/-- A descriptor read of a queue is under way. -/
def State.readingDesc (s : State) (n : Nat) (send : Bool) : Bool :=
  s.readers.any fun r => match r.why with
    | .desc m d => m == n && d == send
    | .flush m d _ => m == n && d == send
    | _ => false

/-- A write of a queue pair that must end before its next receive work is under way. -/
def State.rxBusy (s : State) (n : Nat) : Bool :=
  s.writers.any fun w => match w.why with
    | .buffer m _ _ => m == n
    | .rcData m _ => m == n
    | _ => false

/-- A read for the payload of a queue pair is under way. -/
def State.payloadBusy (s : State) (n : Nat) : Bool :=
  s.readers.any fun r => match r.why with
    | .gather m => m == n
    | .respond m => m == n
    | _ => false

/-- Ask for the descriptor at the head of a queue. -/
def State.readDesc (s : State) (n : Nat) (q : Qp) (send : Bool) (why : ReadFor) : State :=
  let ia := if send then q.sq + 64 * (q.sHead % 2 ^ q.sqLog) else q.rq + 64 * (q.rHead % 2 ^ q.rqLog)
  s.startRead (engineNode (n / 32768)) q.tid (s.tenantCls q.tid) why ((q.chunks [60] ia 64).getD [])

/-- The status with which a queue's waiting descriptors are ended, when they are (R356, R364, R369). -/
def Qp.ending (q : Qp) (send : Bool) : Option Nat :=
  if (if send then q.sSt else q.rSt) == 2 then some stFlushed
  else if q.blocked || q.dying then some stAborted
  else none

/-- The send queue goes on with its next descriptor if it can. -/
def State.kickSend (s : State) (n : Nat) : State :=
  match s.qp? n with
  | none => s
  | some q =>
    if q.sHead == q.sTail || q.work.isSome || s.readingDesc n true || !s.qpRuns n q || q.cqHalt then s
    else
      match q.ending true with
      | some st => s.readDesc n q true (.flush n true st)
      | none =>
        if q.sSt != 0 || q.paused || q.rc.any fun r => r.readWait.isSome then s else s.readDesc n q true (.desc n true)

/-- The index of the next descriptor moves on. -/
def Qp.step (q : Qp) (send : Bool) : Qp :=
  if send then { q with sHead := (q.sHead + 1) % 65536 } else { q with rHead := (q.rHead + 1) % 65536 }

def Qp.head (q : Qp) (send : Bool) : Nat := if send then q.sHead else q.rHead

/-- A descriptor is ended with a status and nothing else. -/
def State.endDesc (s : State) (n : Nat) (send : Bool) (st : Nat) (cookie : Word) (index : Nat) (int : Bool) : State :=
  s.complete n { status := st, kind := if send then 0 else 1, cookie := cookie, index := index } int

/-- The receive queue of a queue pair may go on with a descriptor. -/
def State.recvFree (s : State) (n : Nat) (q : Qp) : Bool :=
  !(q.rHead == q.rTail || s.readingDesc n false || !s.qpRuns n q || q.cqHalt || s.rxBusy n)

/-- The RECV descriptor that is held unstarted is ended, when the rest of its queue are to be (R356, R364, R369). -/
def State.endHeld (s : State) (n : Nat) (q : Qp) : State :=
  match q.ending false, q.rxHeld with
  | some st, some (index, d) =>
    let q := { q.step false with rxHeld := none }
    let s := s.setQp n (if st == stAborted then { q with aborted := q.aborted + 1 } else q)
    s.endDesc n false st d.cookie index d.int
  | _, _ => s

/-- The oldest waiting frame of a raw queue pair goes into the buffer of a RECV descriptor (R361, R363). -/
def State.rawTake (s : State) (n : Nat) (q : Qp) (index : Nat) (d : Desc) : State :=
  match q.rxq with
  | [] => s
  | (f, stamp) :: rest =>
    let s := s.setQp n { q with rxq := rest }
    let tag := (ethOf f).tag
    let b := if q.rxCsum then stripTag f else f
    let k := min b.length d.len
    match q.chunks [61] d.addr.toNat k with
    | none => s.endDesc n false stWindow d.cookie index d.int
    | some cs =>
      let good := if q.rxCsum then rxSums f else (false, false)
      let cut := d.len < b.length
      let c : Comp :=
        { status := if cut then stTruncated else stOk, kind := 1,
          flags := good.1.toNat + 2 * good.2.toNat + (if q.rxCsum && tag.isSome then 4 else 0) + (if q.rxTs then 16 else 0),
          len := b.length, cookie := d.cookie, ts := if q.rxTs then stamp else 0, index := index,
          vlan := if q.rxCsum then tag.getD 0 else 0 }
      s.startWrite (portNode q.port) q.tid (s.tenantCls q.tid) (.buffer n c.bits d.int) (spread cs (b.take k))

/-- A waiting frame of a raw queue pair starts the RECV descriptor that is held. -/
def State.takeHeld (s : State) (n : Nat) (q : Qp) : State :=
  match q.ending false, q.rxHeld with
  | none, some (index, d) =>
    if q.isRc || q.rSt != 0 || q.paused || q.rxq.isEmpty then s
    else s.rawTake n { q.step false with rxHeld := none } index d
  | _, _ => s

/-- The next RECV descriptor is read as soon as it is posted and none is held: one of LEN 0, or a bad one, ends at once
(R37, R359). -/
def State.askRecv (s : State) (n : Nat) : State :=
  match s.qp? n with
  | none => s
  | some q =>
    if !s.recvFree n q || q.rxHeld.isSome then s
    else
      match q.ending false with
      | some st => s.readDesc n q false (.flush n false st)
      | none => if q.rSt != 0 || q.paused then s else s.readDesc n q false (.desc n false)

/-- The receive queue goes on: the descriptor that is held is ended or started, and then the next is read. -/
def State.kickRecv (s : State) (n : Nat) : State :=
  match s.qp? n with
  | none => s
  | some q => if !s.recvFree n q then s else ((s.endHeld n q).takeHeld n q).askRecv n

/-! ### Halts (R366) -/

/-- A read of a channel has failed at an address: code 0 is poison. `d` is the descriptor, when it could be read. -/
def State.haltChannel (s : State) (n : Nat) (send : Bool) (code pa index : Nat) (d : Option Desc) : State :=
  match s.qp? n with
  | none => s
  | some q =>
    let q := if send then { q with sSt := 1, sHead := index, sDesc := d, work := none }
      else { q with rSt := 1, rHead := index, rDesc := d, rxHeld := none }
    let s := s.setQp n q
    let st := if code == 0 then stPoisoned else stReadError
    let s := s.complete n { status := st, kind := 2, flags := if send then 0 else 128,
                            cookie := (d.map (·.cookie)).getD 0, index := index } true
    s.fault (portSrc q.port) 0x40 (some q.tid) pa

/-! ### Frames to the ports (R359, R361, R368, R405) -/

/-- A mirrored tenant whose frames are held: its slot is PROTECTED on the active member. -/
def State.guardedSlot (s : State) (t : BitVec 12) : Option (Nat × Slot) :=
  s.mirror.slots.find? fun e => e.2.active && e.2.tid == t && e.2.st == .guarded

/-- A frame is handed to its port; for a mirrored tenant its copy is made first. -/
def State.emitFrame (s : State) (n : Nat) (q : Qp) (b : List Byte) (final stamp : Bool) : State :=
  let x := s.port q.port
  let s := s.setPort q.port { x with txq := x.txq ++ [⟨some n, q.link, 0, b, final, stamp⟩] }
  if (s.guardedSlot q.tid).isSome then s.send (.heldFrameCopy n) else s

/-- A raw frame as its descriptor asks: checksums, padding, the inserted tag. -/
def rawFrame (d : Desc) (b : List Byte) : List Byte :=
  let b := if d.flags.getLsbD 2 then putL3 b d.l3 else b
  let b := if d.flags.getLsbD 3 then putL4 b d.l3 d.l4 else b
  padFrame (if d.flags.getLsbD 5 then insertTag b d.vlan.toNat else b)

/-- Ask for bytes [lo, lo + k) of the running descriptor's buffer. -/
def State.gather (s : State) (n : Nat) (q : Qp) (d : Desc) (lo k : Nat) : State :=
  s.startRead (portNode q.port) q.tid (s.tenantCls q.tid) (.gather n) ((q.chunks [60] (d.addr.toNat + lo) k).getD [])

/-- The bytes asked for first: the whole frame, or what shows the length of the headers that TSO repeats. -/
def Desc.firstPart (d : Desc) : Nat := if d.tso then min d.len (d.l4 + 20) else d.len

/-- A send descriptor that has no early end starts: its windows are checked, its bytes asked for. -/
def State.startSend (s : State) (n index : Nat) (q : Qp) (d : Desc) : State :=
  match q.chunks [60] d.addr.toNat d.len with
  | none => (s.endDesc n true stWindow d.cookie index d.int).kickSend n
  | some _ => (s.setQp n { q with work := some ⟨d, index, 0, [], false⟩ }).gather n q d 0 d.firstPart

/-- Bytes of a raw send descriptor have come: a frame or a TSO segment is handed on. -/
def State.rawGathered (s : State) (n : Nat) (q : Qp) (w : Work) (b : List Byte) : State :=
  let d := w.desc
  if !d.tso then
    (s.setQp n { q with work := some { w with off := d.len, handed := true } }).emitFrame n q (rawFrame d b) true d.ts
  else if w.hdr.isEmpty then
    let h := min d.len (tsoHeader b d.l4)
    (s.setQp n { q with work := some { w with hdr := b } }).gather n q d 0 (h + min d.mss (d.len - h))
  else
    let first := w.off == 0
    let h := if first then min d.len (tsoHeader b d.l4) else w.hdr.length
    let hdr := if first then b.take h else w.hdr
    let pay := if first then b.drop h else b
    let start := if first then h else w.off
    let stop := start + pay.length
    let last := d.len ≤ stop
    let f := tsoSegment hdr pay d.l3 d.l4 ((start - h) / max 1 d.mss) (start - h) last
    let f := padFrame (if d.flags.getLsbD 5 then insertTag f d.vlan.toNat else f)
    let s := (s.setQp n { q with work := some { w with hdr := hdr, off := stop, handed := last } }).emitFrame n q f last
      (last && d.ts)
    if last then s else s.gather n q d stop (min d.mss (d.len - stop))

/-- The last frame of a raw descriptor has left, or its held copy lies in the log: the send completes (R360, R405). -/
def State.sendDone (s : State) (n : Nat) (stamp : Option Nat) : State :=
  match s.qp? n with
  | none => s
  | some q =>
    match q.work with
    | none => s
    | some w =>
      let d := w.desc
      let s := s.setQp n { q with work := none }
      let s := s.complete n { status := stOk, kind := 0, flags := if stamp.isSome then 16 else 0, len := d.len,
                              cookie := d.cookie, ts := stamp.getD 0, index := w.index } d.int
      s.kickSend n

/-! ### Raw receive (R362, R363) -/

/-- A frame for a raw queue pair is taken, or dropped for want of a RECV descriptor. -/
def State.rawReceive (s : State) (n : Nat) (q : Qp) (b : List Byte) (stamp : Nat) : State :=
  let free := (q.rTail + 65536 - q.rHead) % 65536
  if q.rSt != 0 || free ≤ q.rxq.length then s.portCount q.port fun x => { x with noBuf := x.noBuf + 1 }
  else (s.setQp n { q with rxq := q.rxq ++ [(b, stamp)] }).kickRecv n

/-- A RECV descriptor has come for a raw queue pair: it ends at once, or the oldest waiting frame takes it, or it is held. -/
def State.rawRecvDesc (s : State) (n index : Nat) (q : Qp) (d : Desc) : State :=
  match d.early false false with
  | some st => (s.endDesc n false st d.cookie index d.int).kickRecv n
  | none => (s.setQp n { q with rHead := index, rxHeld := some (index, d) }).kickRecv n

/-- A received frame's buffer writes have ended: its completion follows (R360, R363). -/
def State.bufferDone (s : State) (n : Nat) (r : BitVec 256) (int failed : Bool) : State :=
  let r := if failed then setFld r 8 8 stWriteError else r
  (s.completeBits n r int).kickRecv n

/-- A completion write has ended: the interrupt, also after the fault report of a failed one (R22), and then the halt of the
queue pair (R360, R366). -/
def State.completionDone (s : State) (n : Nat) (int failed : Bool) : State :=
  match s.qp? n with
  | none => s
  | some q =>
    let s := if failed then s.setQp n { q with cqHalt := true, sSt := max q.sSt 1, rSt := max q.rSt 1 } else s
    if int then s.send (.routerMessage q.tid q.vector) else s

/-! ### The end of a queue pair (R356, R369) -/

/-- Nothing of a queue pair is under way and no descriptor waits. -/
def State.qpIdle (s : State) (n : Nat) (q : Qp) : Bool :=
  q.work.isNone && !s.readingDesc n true && !s.readingDesc n false && !s.payloadBusy n && !s.rxBusy n &&
    (q.cqHalt || (q.sHead == q.sTail && q.rHead == q.rTail)) &&
    !(s.writers.any fun w => match w.why with
      | .completion m _ => m == n
      | .heldCopy m => m == n
      | _ => false) &&
    !((s.port q.port).txq.any fun f => f.qpn == some n)

/-- The context is freed and every steering entry that names the queue pair loses V. -/
def State.freeQp (s : State) (n : Nat) : State :=
  let clear (x : Port) : Port :=
    let named := (x.steerQp.filter fun e => fld e.2 0 16 == n).map (·.1)
    { x with steer := named.foldl (fun t i => tput t i (setBit (tget t i 0) 63 false)) x.steer }
  { s with
    qps := tdel s.qps n, ports := tmap clear s.ports,
    readers := s.readers.filter fun r => match r.why with
      | .desc m _ => m != n
      | .flush m _ _ => m != n
      | .gather m => m != n
      | .respond m => m != n
      | _ => true }

/-- A command of an engine ends. -/
def State.engEnd (s : State) (e : Nat) (f : Chan → Chan) : State :=
  let x := s.eng e
  s.setEng e { x with res := f x.res, running := none }

/-- A DESTROY whose descriptors have all ended frees its queue pair. -/
def State.tryDestroy (s : State) (n : Nat) : State :=
  match s.qp? n with
  | none => s
  | some q =>
    if q.dying && s.qpIdle n q && (s.eng (n / 32768)).running == some (2, n) then
      (s.freeQp n).engEnd (n / 32768) fun c => c.done q.aborted
    else s

/-- A descriptor read only to be ended has come, or failed. -/
def State.flushed (s : State) (n : Nat) (send : Bool) (st : Nat) (b : Option (List Byte)) : State :=
  match s.qp? n with
  | none => s
  | some q =>
    let d := b.map descOf
    let index := q.head send
    let q := q.step send
    let s := s.setQp n (if st == stAborted then { q with aborted := q.aborted + 1 } else q)
    let s := s.endDesc n send st ((d.map (·.cookie)).getD 0) index (d.any (·.int))
    ((s.kickSend n).kickRecv n).tryDestroy n

/-! ### Commands (R356, R367) -/

def codeQpBusy : Nat := 0x130
def codeTenantBlocked : Nat := 0x131
def codePortRole : Nat := 0x132
def codeQpAbsent : Nat := 0x133
def codeNotHalted : Nat := 0x134

/-- The fields that every create record fixes to 0, and the ranges of the others (Table 13-4). -/
def recordOk (b : List Byte) (isRc split : Bool) : Bool :=
  let z (o n : Nat) : Bool := leAt b o n == 0
  let log (o : Nat) : Bool := 4 ≤ leAt b o 1 && leAt b o 1 ≤ 15
  leAt b 0 1 ≤ 1 && leAt b 1 1 < 16 && (split || leAt b 1 1 < 8) && leAt b 2 2 < 4096 && leAt b 4 2 < 512 &&
    leAt b 6 1 < 4 && z 7 1 && leAt b 8 8 % 64 == 0 && leAt b 16 8 % 64 == 0 && leAt b 24 8 % 64 == 0 &&
    log 0x20 && log 0x21 && max (leAt b 0x20 1) (leAt b 0x21 1) < leAt b 0x22 1 && leAt b 0x22 1 ≤ 16 &&
    (if isRc then leAt b 0x23 1 != 0 && leAt b 0x24 4 < 2 ^ 24 && leAt b 0x28 4 < 2 ^ 24 && 1 ≤ leAt b 0x2C 1 &&
        leAt b 0x2C 1 ≤ 20 && leAt b 0x2D 1 < 8
      else z 0x23 1 && z 0x24 4) && z 0x56 10

/-- The queue pair that a create record describes. -/
def qpOf (b : List Byte) : Qp :=
  let isRc := leAt b 0 1 == 1
  let psn : BitVec 24 := BitVec.ofNat 24 (leAt b 0x28 4)
  { isRc := isRc, port := leAt b 1 1 % 8, link := leAt b 1 1 / 8 % 2, tid := BitVec.ofNat 12 (leAt b 2 2),
    vector := BitVec.ofNat 9 (leAt b 4 2), rxTs := (b.getD 6 0).getLsbD 0, rxCsum := (b.getD 6 0).getLsbD 1,
    sq := leAt b 8 8, rq := leAt b 16 8, cq := leAt b 24 8, sqLog := leAt b 0x20 1, rqLog := leAt b 0x21 1,
    cqLog := leAt b 0x22 1, violLimit := leAt b 0x23 1, destQpn := BitVec.ofNat 24 (leAt b 0x24 4),
    ackTimeout := leAt b 0x2C 1, retry := leAt b 0x2D 1, vlan := BitVec.ofNat 16 (leAt b 0x2E 2),
    peerIp := (b.drop 0x30).take 16, localIp := (b.drop 0x40).take 16, peerMac := (b.drop 0x50).take 6,
    windows := (List.range 4).map fun w =>
      (BitVec.ofNat 64 (leAt b (0x60 + 24 * w) 8), BitVec.ofNat 64 (leAt b (0x68 + 24 * w) 8),
        BitVec.ofNat 64 (leAt b (0x70 + 24 * w) 8)),
    sHead := 0, sTail := 0, rHead := 0, rTail := 0, prod := 0, cHead := 0, sSt := 0, rSt := 0, cqHalt := false,
    sDesc := none, rDesc := none, work := none, rxq := [], rxHeld := none, blocked := false, paused := false, dying := false, aborted := 0,
    rc := if isRc then some ⟨psn, psn, 0, [], leAt b 0x2D 1, none, none, none, none, 800000, none, none, 0, false, false⟩ else none }

/-- CREATE: the record has come (R356). -/
def State.qpCreated (s : State) (e : Nat) (b : List Byte) : State :=
  match (s.eng e).running with
  | none => s
  | some (_, n) =>
    let fail (c : Nat) : State := s.engEnd e fun x => x.fail c 0
    let q := qpOf b
    if (s.qp? n).isSome then fail codeQpBusy
    else if !(s.tenant q.tid).en || (s.tenant q.tid).quiescing then fail codeTenantBlocked
    else if q.port / 4 != e || s.portRole q.port != 1 || s.isFenced (696 + q.port) then fail codePortRole
    else if !recordOk b q.isRc (s.portSplit q.port) || !q.ringOk q.sq (64 * 2 ^ q.sqLog) 60 ||
        !q.ringOk q.rq (64 * 2 ^ q.rqLog) 60 || !q.ringOk q.cq (32 * 2 ^ q.cqLog) 61 then fail codeFieldInvalid
    else
      let q := { q with rc := q.rc.map fun (r : Rc) => { r with rate := if s.portSplit q.port then 400000 else 800000 } }
      (s.setQp n q).engEnd e fun x => x.done n

/-- REARM (R367). -/
def State.qpRearmed (s : State) (e n : Nat) (send skip : Bool) : State :=
  match s.qp? n with
  | none => s.engEnd e fun c => c.fail codeQpAbsent 0
  | some q =>
    if q.blocked || !(s.tenant q.tid).en then s.engEnd e fun c => c.fail codeTenantBlocked 0
    else if (if send then q.sSt else q.rSt) != 1 then s.engEnd e fun c => c.fail codeNotHalted 0
    else if q.cqHalt then s.engEnd e fun c => c.fail codeNotPermitted 0
    else
      let index := q.head send
      let d := if send then q.sDesc else q.rDesc
      let q := if send then { q with sSt := 0, sDesc := none } else { q with rSt := 0, rDesc := none }
      let q := if skip then q.step send else q
      let s := s.setQp n q
      let s := if skip then s.endDesc n send stSkipped ((d.map (·.cookie)).getD 0) index (d.any (·.int)) else s
      ((s.engEnd e fun c => c.done (q.head send)).kickSend n).kickRecv n

/-- A write of QP_CMD (Table 13-3). -/
def State.qpCmd (s : State) (e : Nat) (v : Word) : State :=
  let x := s.eng e
  let s := s.setEng e { x with cmd := v &&& 0x700000000003FFFF }
  if !bit v 63 then s
  else if x.running.isSome then s.violate (engineBlock e)
  else
    let n := fld v 0 16
    let op := fld v 60 3
    let s := s.setEng e { s.eng e with res := x.res.accept, running := some (op, n) }
    if n / 32768 != e || op == 0 || 4 < op then s.engEnd e fun c => c.fail codeFieldInvalid 0
    else if op == 1 then
      s.startRead (engineNode e) 0 0 (.create e) (chunksOf (fld x.addr 6 46 * 64) 192)
    else
      match s.qp? n with
      | none => s.engEnd e fun c => c.fail codeQpAbsent 0
      | some q =>
        if op == 2 then (((s.setQp n { q with dying := true }).kickSend n).kickRecv n).tryDestroy n
        else if op == 3 then s.qpRearmed e n (!bit v 16) (bit v 17)
        else s.engEnd e fun c => c.done (q.sSt + 4 * q.rSt + 16 * q.cqHalt.toNat)

/-- A row of QP_CMD: a word with GO and the row's OP, written to an engine that runs. -/
def State.qpRow (s : State) (e op : Nat) (v : Word) : State :=
  if bit v 63 && fld v 60 3 == op && s.runs (708 + e) then
    (s.reserved (engineBlock e) (maskBits 63 60 ||| maskBits 17 0) v).qpCmd e v
  else s

/-- QP_CREATE (R356). -/
def execQpCreate (e : Nat) (v : Word) (s : State) : Out := onWf (engineOk e) (s.qpRow e 1 v)
/-- QP_DESTROY (R356). -/
def execQpDestroy (e : Nat) (v : Word) (s : State) : Out := onWf (engineOk e) (s.qpRow e 2 v)
/-- QP_REARM (R367). -/
def execQpRearm (e : Nat) (v : Word) (s : State) : Out := onWf (engineOk e) (s.qpRow e 3 v)
/-- QP_QUERY (R356). -/
def execQpQuery (e : Nat) (v : Word) (s : State) : Out := onWf (engineOk e) (s.qpRow e 4 v)

/-- R358, R369: a doorbell write. -/
def State.ring (s : State) (e : Nat) (tid : BitVec 12) (idx : Nat) (v : Word) : State :=
  let n := 32768 * e + idx
  let i := fld v 0 16
  let what := fld v 16 2
  match s.qp? n with
  | none => s.violate (engineBlock e)
  | some q =>
    if q.tid != tid || what == 3 then s.violate (engineBlock e)
    else if q.blocked then s
    else if what == 0 then
      if (i + 65536 - q.sHead) % 65536 ≤ 2 ^ q.sqLog then (s.setQp n { q with sTail := i }).kickSend n
      else s.violate (engineBlock e)
    else if what == 1 then
      if (i + 65536 - q.rHead) % 65536 ≤ 2 ^ q.rqLog then (s.setQp n { q with rTail := i }).kickRecv n
      else s.violate (engineBlock e)
    else if (q.prod % 65536 + 65536 - i) % 65536 ≤ 2 ^ q.cqLog then s.setQp n { q with cHead := i }
    else s.violate (engineBlock e)

/-- DOORBELL (R358). -/
def execDoorbell (e : Nat) (tid : BitVec 12) (idx : Nat) (v : Word) (s : State) : Out :=
  onWf (engineOk e && decide (idx < 32768)) 
    (if s.runs (708 + e) then (s.reserved (engineBlock e) (maskBits 17 0) v).ring e tid idx v else s)

end Sys2Proof.Machine
end

