-- ==== Sys2Proof/Machine/Rc.lean ====
section
/-! DEFINITION. Reliable-connection queue pairs (R364, R365, R381). What the manual takes from the InfiniBand Architecture
Specification is PRESUMED (notes/assumptions/6.md). -/

namespace Sys2Proof.Machine

def pathMtu : Nat := 4096

/-! ### Partner violations (R380, Table 13-10) -/

/-- Write an entry of a partner-violation log. -/
def Pv.note (x : Pv) (now kind who detail : Nat) : Pv :=
  { total := satInc 32 x.total, next := (x.next + 1) % 16,
    log := tput x.log x.next (BitVec.ofNat 64 now, BitVec.ofNat 64 (kind * 2 ^ 56 + who % 2 ^ 16 * 2 ^ 40 + detail % 2 ^ 32)) }

/-! ### Packets out -/

/-- The frame of an RC packet. -/
def State.rcFrame (s : State) (n : Nat) (q : Qp) (opcode : Nat) (ackReq : Bool) (psn : BitVec 24) (hdr pay : List Byte) :
    List Byte :=
  let pad := (4 - pay.length % 4) % 4
  roceFrame q.peerMac (beBytes 6 (s.macOf q.port q.link)) q.vlan.toNat q.localIp q.peerIp (Config.rcHop n) (Config.rcPort n)
    (bthBytes opcode pad q.destQpn ackReq psn (hdr ++ pay ++ List.replicate pad 0))

/-- An ACK or NAK: AETH syndrome and MSN. -/
def State.rcReply (s : State) (n : Nat) (q : Qp) (rc : Rc) (syndrome : Nat) (psn : BitVec 24) : State :=
  s.emitFrame n q (s.rcFrame n q 0x11 false psn (BitVec.ofNat 8 syndrome :: beBytes 3 rc.msn.toNat) []) false false

def synAck : Nat := 0x1F
def synRnr : Nat := 0x20 + Config.rnrTimer.toNat
def synPsn : Nat := 0x60
def synInvalid : Nat := 0x61
def synAccess : Nat := 0x62
def synOp : Nat := 0x63

def State.modRc (s : State) (n : Nat) (f : Rc → Rc) : State :=
  match s.qp? n with
  | none => s
  | some q => s.setQp n { q with rc := q.rc.map f }

/-! ### Error (R364, R381) -/

/-- The queue pair enters error: the first unfinished message ends with a status, the others as FLUSHED. -/
def State.rcError (s : State) (n st : Nat) : State :=
  match s.qp? n with
  | none => s
  | some q =>
    match q.rc with
    | none => s
    | some rc =>
      let out : List (Nat × Desc) := rc.unacked.filterMap (·.done) ++ (q.work.map fun w => (w.index, w.desc)).toList
      let recv : List (Nat × Desc) := (rc.inbound.bind (·.desc)).toList
      let s := s.setQp n { q with
        sSt := 2, rSt := 2, work := none, rxq := [],
        rc := some { rc with unacked := [], since := none, inbound := none, reading := none, readWait := none } }
      let s := (out.zipIdx).foldl (fun s e =>
        s.endDesc n true (if e.2 == 0 then st else stFlushed) e.1.2.cookie e.1.1 e.1.2.int) s
      let s := recv.foldl (fun s e => s.endDesc n false stFlushed e.2.cookie e.1 e.2.int) s
      (s.kickSend n).kickRecv n

/-- A violation of the peer is logged; beyond VIOL_LIMIT the queue pair enters error. -/
def State.rcViolation (s : State) (n : Nat) (q : Qp) (kind : Nat) (psn : BitVec 24) : State :=
  let s := s.portCount q.port fun x => { x with pv := x.pv.note s.now kind n psn.toNat }
  let s := s.modRc n fun r => { r with viols := r.viols + 1 }
  if (s.qp? n).any fun q => q.rc.any fun r => q.violLimit < r.viols then s.rcError n stFlushed else s

/-! ### The requester -/

/-- The operation codes of a message: first, middle, last, last with immediate, only, only with immediate. -/
def rcOpcode (write imm first last : Bool) : Nat :=
  (if write then 6 else 0) + (if first && last then (if imm then 5 else 4) else if first then 0 else if last then (if imm then 3 else 2) else 1)

/-- Remember a packet until the peer acknowledges it, and hand it to the port. -/
def State.rcSend (s : State) (n : Nat) (q : Qp) (rc : Rc) (opcode : Nat) (last : Bool) (hdr pay : List Byte) (psns : Nat)
    (done : Option (Nat × Desc)) : State :=
  let f := s.rcFrame n q opcode last rc.psn hdr pay
  let q := { q with rc := some { rc with
    psn := rc.psn + BitVec.ofNat 24 psns, unacked := rc.unacked ++ [⟨rc.psn, f, done⟩],
    since := rc.since <|> some s.now } }
  (s.setQp n q).emitFrame n q f false false

/-- A send descriptor of an RC queue pair starts. -/
def State.rcStart (s : State) (n index : Nat) (q : Qp) (rc : Rc) (d : Desc) : State :=
  let read := d.op == 5
  match q.chunks [if read then 61 else 60] d.addr.toNat d.len with
  | none => (s.endDesc n true stWindow d.cookie index d.int).kickSend n
  | some _ =>
    if read then
      let hdr := beBytes 8 d.raddr.toNat ++ beBytes 4 d.rkey.toNat ++ beBytes 4 d.len
      let rc := { rc with readWait := some (index, d, 0) }
      s.rcSend n q rc 0x0C true hdr [] ((d.len + 4095) / 4096) (some (index, d))
    else (s.setQp n { q with work := some ⟨d, index, 0, [], false⟩ }).gather n q d 0 (min d.len pathMtu)

/-- The bytes of one packet have come. -/
def State.rcGathered (s : State) (n : Nat) (q : Qp) (rc : Rc) (w : Work) (b : List Byte) : State :=
  let d := w.desc
  let write := d.op == 3 || d.op == 4
  let imm := d.op == 2 || d.op == 4
  let first := w.off == 0
  let stop := w.off + b.length
  let last := d.len ≤ stop
  let hdr := (if write && first then beBytes 8 d.raddr.toNat ++ beBytes 4 d.rkey.toNat ++ beBytes 4 d.len else []) ++
    (if imm && last then beBytes 4 d.imm.toNat else [])
  let q := { q with work := if last then none else some { w with off := stop } }
  let s := s.rcSend n q rc (rcOpcode write imm first last) last hdr b 1 (if last then some (w.index, d) else none)
  if last then s.kickSend n
  else
    match s.qp? n with
    | some q => s.gather n q d stop (min pathMtu (d.len - stop))
    | none => s

/-- u is at or before p in the 24-bit order. -/
def psnLe (u p : BitVec 24) : Bool := (p - u).toNat < 2 ^ 23

/-- The peer has acknowledged every packet up to a PSN: messages complete in order; a READ completes only with its data. -/
def State.rcAcked (s : State) (n : Nat) (psn : BitVec 24) : State :=
  match s.qp? n with
  | none => s
  | some q =>
    match q.rc with
    | none => s
    | some rc =>
      let isRead (u : RcPkt) : Bool := u.done.any fun d => d.2.op == 5
      let ended := rc.unacked.takeWhile fun u => psnLe u.psn psn && !isRead u
      let left := rc.unacked.drop ended.length
      let s := s.setQp n { q with rc := some { rc with
        unacked := left, retries := if ended.isEmpty then rc.retries else q.retry,
        since := if left.isEmpty then none else if ended.isEmpty then rc.since else some s.now } }
      (ended.filterMap (·.done)).foldl (fun s e =>
        s.complete n { status := stOk, kind := 0, len := e.2.len, cookie := e.2.cookie, index := e.1 } e.2.int) s

/-- Go-back-N: every unacknowledged packet leaves again. -/
def State.rcResend (s : State) (n : Nat) : State :=
  match s.qp? n with
  | none => s
  | some q =>
    match q.rc with
    | none => s
    | some rc =>
      let s := s.modRc n fun r => { r with since := some s.now }
      rc.unacked.foldl (fun s u => s.emitFrame n q u.bytes false false) s

/-- The acknowledge timer has reached ACK_TIMEOUT: 4,096 ns × 2^n (Table 13-4). -/
def Rc.ackDue (rc : Rc) (q : Qp) (now : Nat) : Bool := rc.since.any fun t => t + 4096 * 2 ^ q.ackTimeout ≤ now

/-- RC_ACK_TIMEOUT (R364). -/
def execRcAckTimeout (qpn : Nat) (s : State) : Out :=
  onWf (qpnOk qpn)
    (match s.qp? qpn with
     | none => s
     | some q =>
       match q.rc with
       | none => s
       | some rc =>
         if rc.unacked.isEmpty || q.sSt == 2 || !s.qpRuns qpn q || !rc.ackDue q s.now then s
         else if rc.retries == 0 then s.rcError qpn stRetry
         else (s.modRc qpn fun r => { r with retries := r.retries - 1 }).rcResend qpn)

/-- An ACK or NAK of the peer. -/
def State.rcAckPacket (s : State) (n : Nat) (p : Bth) : State :=
  let syn := leAt p.body 0 1
  let s := if syn / 32 == 0 then s.rcAcked n p.psn else s.rcAcked n (p.psn - 1)
  if syn / 32 == 3 then
    match syn % 32 with
    | 0 => s.rcResend n
    | 1 => s.rcError n stRemoteOp
    | 2 => s.rcError n stRemoteAccess
    | _ => s.rcError n stRemoteOp
  else s

/-- A READ response: its payload is written to the local buffer. -/
def State.rcReadData (s : State) (n : Nat) (q : Qp) (rc : Rc) (p : Bth) : State :=
  match rc.readWait with
  | none => s
  | some (index, d, taken) =>
    match rc.unacked.find? fun u => u.done.any fun e => e.1 == index with
    | none => s
    | some u =>
      let hdr := if p.opcode == 0x0E then 0 else 4
      let pay := (p.body.drop hdr).take (p.body.length - hdr - p.pad)
      let stop := taken + pay.length
      let last := p.opcode == 0x0F || p.opcode == 0x10
      if p.psn != u.psn + BitVec.ofNat 24 (taken / pathMtu) || d.len < stop || last != (stop == d.len) then s
      else
        let s := s.rcAcked n (u.psn - 1)
        let s := s.modRc n fun r => { r with readWait := some (index, d, stop), retries := q.retry, since := some s.now }
        let cs := (q.chunks [61] (d.addr.toNat + taken) pay.length).getD []
        s.startWrite (portNode q.port) q.tid (s.tenantCls q.tid) (.rcData n (if last then 1 else 2)) (spread cs pay)

/-- The last data of a READ has been written. -/
def State.rcReadDone (s : State) (n : Nat) (failed : Bool) : State :=
  match (s.qp? n).bind (·.rc) with
  | none => s
  | some rc =>
    match rc.readWait with
    | none => s
    | some (index, d, _) =>
      let left := rc.unacked.filter fun u => !(u.done.any fun e => e.1 == index)
      let s := s.modRc n fun r => { r with
        readWait := none, readBad := false, unacked := left, since := if left.isEmpty then none else r.since }
      let s := s.complete n { status := if failed || rc.readBad then stWriteError else stOk, kind := 0, len := d.len, cookie := d.cookie,
                              index := index } d.int
      s.kickSend n

/-! ### The responder -/

/-- The window that a remote key names, checked for an access (R357). -/
def Qp.remote (q : Qp) (rkey va len : Nat) (write : Bool) : Option Nat :=
  let i := rkey % 65536
  let w := q.windows.getD i (0, 0, 0)
  let bits := if write then [61, 57] else [60, 58]
  if i < 4 && fld w.1 48 16 == rkey / 65536 && q.allows i (63 :: bits) && va + len ≤ 2 ^ 48 &&
      (len == 0 || (winCovers w (va / 4096) && winCovers w ((va + len - 1) / 4096))) then some i
  else none

/-- Chunks of a stretch through one window. -/
def Qp.through (q : Qp) (i va n : Nat) : Option (List (Nat × Nat)) :=
  let w := q.windows.getD i (0, 0, 0)
  (chunksOf va n).mapM fun c =>
    let pa := (fld w.2.2 12 40 * 4096 + c.1 + 2 ^ 52 - fld w.1 12 36 * 4096) % 2 ^ 52
    if isDevice pa then none else some (pa, c.2)

/-- Ask for the bytes of the next response of an inbound READ. -/
def State.rcAskRead (s : State) (n : Nat) (q : Qp) (va left win : Nat) : State :=
  let cs := (q.through win va (min left pathMtu)).getD []
  s.startRead (portNode q.port) q.tid (s.tenantCls q.tid) (.respond n) cs

/-- A NAK with its violation. -/
def State.rcNak (s : State) (n : Nat) (q : Qp) (rc : Rc) (kind syn : Nat) (psn : BitVec 24) : State :=
  ((s.modRc n fun r => { r with inbound := r.inbound.bind fun i => if i.window == 5 then some i else none }).rcReply n q rc
    syn psn).rcViolation n q kind psn

/-- The completion of an inbound message: a failed write of any of its packets shows (R22). -/
def Rc.inStatus (rc : Rc) (c : Comp) : Comp := if rc.inBad then { c with status := stWriteError } else c

/-- The payload of an inbound packet is written, and with the last packet its completion follows. -/
def State.rcStore (s : State) (n : Nat) (q : Qp) (cs : List (Nat × Nat)) (pay : List Byte) (comp : Option (Comp × Bool)) :
    State :=
  match comp with
  | some (c, int) =>
    let c := (q.rc.map fun r => r.inStatus c).getD c
    if pay.isEmpty then s.completeBits n c.bits int
    else s.startWrite (portNode q.port) q.tid (s.tenantCls q.tid) (.buffer n c.bits int) (spread cs pay)
  | none =>
    if pay.isEmpty then s
    else s.startWrite (portNode q.port) q.tid (s.tenantCls q.tid) (.rcData n 0) (spread cs pay)

/-- An inbound READ request (R364). -/
def State.rcReadReq (s : State) (n : Nat) (q : Qp) (rc : Rc) (p : Bth) (dup : Bool) : State :=
  let va := beAt p.body 0 8
  let key := beAt p.body 8 4
  let len := beAt p.body 12 4
  match q.remote key va len false with
  | none => s.rcNak n q rc 4 synAccess p.psn
  | some w =>
    if (q.through w va len).isNone then s.rcNak n q rc 4 synAccess p.psn
    else
      let rc := if dup then rc else { rc with
        expect := rc.expect + BitVec.ofNat 24 (max 1 ((len + 4095) / 4096)), msn := rc.msn + 1 }
      if len == 0 then
        let s := s.setQp n { q with rc := some rc }
        s.emitFrame n q (s.rcFrame n q 0x10 false p.psn (BitVec.ofNat 8 synAck :: beBytes 3 rc.msn.toNat) []) false false
      else
        let rc := { rc with reading := some (BitVec.ofNat 64 (va + w * 2 ^ 60), len, p.psn, true) }
        (s.setQp n { q with rc := some rc }).rcAskRead n q va len w

/-- The bytes of a READ response have come: the response leaves and the next is asked for. -/
def State.rcRespond (s : State) (n : Nat) (q : Qp) (rc : Rc) (b : List Byte) : State :=
  match rc.reading with
  | none => s
  | some (a, left, psn, first) =>
    let va := fld a 0 60
    let win := fld a 60 4
    let last := left ≤ b.length
    let op := if first && last then 0x10 else if first then 0x0D else if last then 0x0F else 0x0E
    let hdr := if op == 0x0E then [] else BitVec.ofNat 8 synAck :: beBytes 3 rc.msn.toNat
    let next := if last then none else some (BitVec.ofNat 64 (va + b.length + win * 2 ^ 60), left - b.length, psn + 1, false)
    let s := s.setQp n { q with rc := some { rc with reading := next } }
    let s := s.emitFrame n q (s.rcFrame n q op false psn hdr b) false false
    if last then s else s.rcAskRead n q (va + b.length) (left - b.length) win

/-- The read for a response has failed: the receive queue halts and the peer gets a remote-operational NAK (R364). -/
def State.rcRespondBad (s : State) (n : Nat) (q : Qp) (rc : Rc) (code pa : Nat) : State :=
  match rc.reading with
  | none => s
  | some (_, _, psn, _) =>
    let s := s.modRc n fun r => { r with reading := none }
    (s.rcReply n q rc synOp psn).haltChannel n false code pa q.rHead none

/-- What an inbound request packet asks: SEND or WRITE, whether it starts and ends a message, whether it carries IMM. -/
def rcKind (op : Nat) : Option (Bool × Bool × Bool × Bool) :=
  match op with
  | 0 => some (false, true, false, false)
  | 1 => some (false, false, false, false)
  | 2 => some (false, false, true, false)
  | 3 => some (false, false, true, true)
  | 4 => some (false, true, true, false)
  | 5 => some (false, true, true, true)
  | 6 => some (true, true, false, false)
  | 7 => some (true, false, false, false)
  | 8 => some (true, false, true, false)
  | 9 => some (true, false, true, true)
  | 10 => some (true, true, true, false)
  | 11 => some (true, true, true, true)
  | _ => none

/-- A SEND or WRITE packet in order, with the RECV descriptor it needs already read. -/
def State.rcRequest (s : State) (n : Nat) (q : Qp) (rc : Rc) (p : Bth) (k : Bool × Bool × Bool × Bool) : State :=
  let (write, first, last, imm) := k
  let rc := if first then { rc with inBad := false } else rc
  let q' := { q with rc := some rc }
  let hl := (if write && first then 16 else 0) + (if imm then 4 else 0)
  let pay := (p.body.drop hl).take (p.body.length - hl - p.pad)
  let posted := rc.inbound.bind (·.desc)
  let sizeOk := p.body.length ≥ hl + p.pad && (if last then first || pay.length != 0 else pay.length == pathMtu) &&
    pay.length ≤ pathMtu
  let immv : BitVec 32 := BitVec.ofNat 32 (beAt p.body (hl - 4) 4)
  let bad (kind syn : Nat) : State := s.rcNak n q rc kind syn p.psn
  let advance (i : Option RcIn) : Qp := { q with
    rc := some { rc with expect := rc.expect + 1, msn := if last then rc.msn + 1 else rc.msn, inbound := i } }
  let finish (s : State) : State :=
    match (s.qp? n).bind (·.rc) with
    | some r => if p.ackReq || last then s.rcReply n q r synAck p.psn else s
    | none => s
  if !sizeOk then bad 3 synInvalid
  else if write then
    let va := if first then beAt p.body 0 8 else (rc.inbound.map (·.addr.toNat)).getD 0
    let left := if first then beAt p.body 12 4 else (rc.inbound.map (·.left)).getD 0
    let win := if first then q.remote (beAt p.body 8 4) va left true else rc.inbound.map (·.window)
    let taken := if first then 0 else (rc.inbound.map (·.taken)).getD 0
    match win with
    | none => bad 4 synAccess
    | some w =>
      if left < pay.length || (last && left != pay.length) then bad 3 synInvalid
      else
        match q.through w va pay.length with
        | none => bad 4 synAccess
        | some cs =>
          let next : RcIn := ⟨true, taken + pay.length, BitVec.ofNat 64 (va + pay.length), left - pay.length, posted, w⟩
          let spare : Option RcIn := if imm then none else posted.map fun d => ⟨false, 0, 0, 0, some d, 5⟩
          let s := s.setQp n (advance (if last then spare else some next))
          let comp : Option (Comp × Bool) := if last && imm then
              posted.map fun d => ({ status := stOk, kind := 1, flags := 8, len := taken + pay.length,
                                     cookie := d.2.cookie, index := d.1, imm := immv }, d.2.int)
            else none
          finish (s.rcStore n q' cs pay comp)
  else
    match posted with
    | none => s
    | some (index, d) =>
      let taken := if first then 0 else (rc.inbound.map (·.taken)).getD 0
      if d.len < taken + pay.length then bad 3 synInvalid
      else
        match q.chunks [61] (d.addr.toNat + taken) pay.length with
        | none =>
          let s := (s.setQp n { q with rc := some { rc with inbound := none } }).rcReply n q rc synOp p.psn
          s.endDesc n false stWindow d.cookie index d.int
        | some cs =>
          let s := s.setQp n (advance (if last then none else some ⟨false, taken + pay.length, 0, 0, some (index, d), 4⟩))
          let comp : Option (Comp × Bool) := if last then
              some ({ status := stOk, kind := 1, flags := if imm then 8 else 0, len := taken + pay.length,
                      cookie := d.cookie, index := index, imm := if imm then immv else 0 }, d.int)
            else none
          finish (s.rcStore n q' cs pay comp)

/-- A RECV descriptor is taken for the message in progress, or for the one that starts. -/
def Rc.post (rc : Rc) (e : Nat × Desc) : Rc :=
  { rc with inbound := some (match rc.inbound with
    | some i => { i with desc := some e }
    | none => ⟨false, 0, 0, 0, some e, 5⟩) }

/-- One packet of the peer, oldest first: it is handled, or it waits for the RECV descriptor it needs. Answers whether it has
been dealt with. -/
def State.rcPacket (s : State) (n : Nat) (q : Qp) (rc : Rc) (p : Bth) : Bool × State :=
  if p.opcode == 0x11 then (true, s.rcAckPacket n p)
  else if p.opcode == 0x81 then
    (true, s.modRc n fun r => { r with rate := max 1000 (r.rate / 2), cnpSeen := some s.now })
  else if 0x0D ≤ p.opcode && p.opcode ≤ 0x10 then (true, s.rcReadData n q rc p)
  else if p.opcode != 0x0C && (rcKind p.opcode).isNone then (true, s.rcNak n q rc 1 synInvalid p.psn)
  else if p.psn != rc.expect then
    if psnLe p.psn rc.expect then
      if p.opcode == 0x0C then (true, s.rcReadReq n q rc p true) else (true, s.rcReply n q rc synAck (rc.expect - 1))
    else (true, s.rcNak n q rc 2 synPsn rc.expect)
  else
    let open_ := rc.inbound.any fun i => i.window != 5
    match rcKind p.opcode with
    | none => if open_ then (true, s.rcNak n q rc 1 synInvalid p.psn) else (true, s.rcReadReq n q rc p false)
    | some k =>
      let inSeq := if k.2.1 then !open_ else open_ && rc.inbound.any fun i => i.write == k.1
      if !inSeq then (true, s.rcNak n q rc 1 synInvalid p.psn)
      else
        let needs := ((!k.1 && k.2.1) || (k.1 && k.2.2.2)) && (rc.inbound.bind (·.desc)).isNone
        if !needs then (true, s.rcRequest n q rc p k)
        else if q.rHead == q.rTail || q.rSt != 0 then (true, s.rcReply n q rc synRnr p.psn)
        else
          match q.rxHeld with
          | some e =>
            let rc := rc.post e
            let q := { q.step false with rxHeld := none, rc := some rc }
            (true, (s.setQp n q).rcRequest n q rc p k)
          | none => (false, s.askRecv n)

/-- Packets that have come are handled in order, as long as nothing of an earlier one is under way. -/
def State.rcPump : Nat → Nat → State → State
  | 0, _, s => s
  | fuel + 1, n, s =>
    match s.qp? n with
    | none => s
    | some q =>
      match q.rc, q.rxq with
      | some rc, (b, _) :: rest =>
        if s.rxBusy n || s.readingDesc n false || rc.reading.isSome || q.rSt == 2 || !s.qpRuns n q then s
        else
          match bthOf b with
          | none => State.rcPump fuel n (s.setQp n { q with rxq := rest })
          | some (p, ecn) =>
            let s := if ecn == 3 && rc.cnpSent.all (fun t => t + 50000 ≤ s.now) && p.opcode != 0x81 then
                (s.modRc n fun r => { r with cnpSent := some s.now }).emitFrame n q
                  (s.rcFrame n q 0x81 false 0 (List.replicate 16 0) []) false false
              else s
            match s.qp? n with
            | none => s
            | some q =>
              match q.rc with
              | none => s
              | some rc =>
                let s := s.setQp n { q with rxq := rest }
                let r := s.rcPacket n { q with rxq := rest } rc p
                if r.1 then State.rcPump fuel n r.2
                else
                  match r.2.qp? n with
                  | some q' => r.2.setQp n { q' with rxq := q.rxq }
                  | none => r.2
      | _, _ => s

def State.rcKick (s : State) (n : Nat) : State :=
  (State.rcPump (((s.qp? n).map fun q => q.rxq.length).getD 0 + 1) n s).kickRecv n

/-- A packet for an RC queue pair arrives (R362, R364): a queue pair in error drops it. -/
def State.rcReceive (s : State) (n : Nat) (q : Qp) (b : List Byte) (stamp : Nat) : State :=
  if q.rSt == 2 then s else (s.setQp n { q with rxq := q.rxq ++ [(b, stamp)] }).rcKick n

/-- A RECV descriptor has come for an RC queue pair: it ends at once, or it is held for the message that will need it. -/
def State.rcRecvDesc (s : State) (n index : Nat) (q : Qp) (d : Desc) : State :=
  match d.early true false with
  | some st => (s.endDesc n false st d.cookie index d.int).rcKick n
  | none => (s.setQp n { q with rHead := index, rxHeld := some (index, d) }).rcKick n

/-- CNP_RATE_RECOVERY (R365): 50 µs have passed without a congestion notification. -/
def execCnpRateRecovery (qpn : Nat) (s : State) : Out :=
  onWf (qpnOk qpn)
    (match s.qp? qpn with
     | none => s
     | some q =>
       let top := if s.portSplit q.port then 400000 else 800000
       s.modRc qpn fun r =>
         if r.cnpSeen.all fun t => t + 50000 ≤ s.now then
           { r with rate := r.rate + (top - r.rate) / 8, cnpSeen := some s.now }
         else r)

/-! ### Answers to the reads of a queue pair -/

/-- A descriptor has come (R359). -/
def State.descCame (s : State) (n : Nat) (send : Bool) (b : List Byte) : State :=
  match s.qp? n with
  | none => s
  | some q =>
    let d := descOf b
    let index := q.head send
    let q := q.step send
    let s := s.setQp n q
    if !send then
      if q.rc.isSome then s.rcRecvDesc n index q d else s.rawRecvDesc n index q d
    else
      match d.early q.isRc true with
      | some st => (s.endDesc n true st d.cookie index d.int).kickSend n
      | none =>
        match q.rc with
        | some rc => s.rcStart n index q rc d
        | none => s.startSend n index q d

/-- Payload bytes of a send descriptor have come. -/
def State.gathered (s : State) (n : Nat) (b : List Byte) : State :=
  match s.qp? n with
  | none => s
  | some q =>
    match q.work with
    | none => s
    | some w =>
      match q.rc with
      | some rc => s.rcGathered n q rc w b
      | none => s.rawGathered n q w b

/-- A read of a queue pair has ended with its bytes. -/
def State.qpRead (s : State) (why : ReadFor) (b : List Byte) : State :=
  match why with
  | .create e => s.qpCreated e b
  | .desc n send => s.descCame n send b
  | .flush n send st => s.flushed n send st (some b)
  | .gather n => s.gathered n b
  | .respond n =>
    match s.qp? n with
    | some q => match q.rc with
      | some rc => (s.rcRespond n q rc b).rcKick n
      | none => s
    | none => s
  | _ => s

/-- A read of a queue pair has failed: code 0 is poison (R366). -/
def State.qpReadBad (s : State) (why : ReadFor) (code pa : Nat) : State :=
  match why with
  | .create e => s.engEnd e fun c => c.fail (if code == 0 then codePoisoned else memFail code) 0
  | .desc n send => match s.qp? n with
    | some q => s.haltChannel n send code pa (q.head send) none
    | none => s
  | .flush n send st => s.flushed n send st none
  | .gather n => match s.qp? n with
    | some q => match q.work with
      | some w => s.haltChannel n true code pa w.index (some w.desc)
      | none => s
    | none => s
  | .respond n => match s.qp? n with
    | some q => match q.rc with
      | some rc => (s.rcRespondBad n q rc code pa).rcKick n
      | none => s
    | none => s
  | _ => s

/-- A write of a queue pair has ended. -/
def State.qpWrote (s : State) (why : WriteFor) (failed : Bool) : State :=
  match why with
  | .buffer n r int => (s.bufferDone n r int failed).rcKick n
  | .rcData n 0 => (s.modRc n fun r => { r with inBad := r.inBad || failed }).rcKick n
  | .rcData n 1 => (s.rcReadDone n failed).rcKick n
  | .rcData n _ => (s.modRc n fun r => { r with readBad := r.readBad || failed }).rcKick n
  | .completion n int => (s.completionDone n int failed).tryDestroy n
  | _ => s

end Sys2Proof.Machine
end

