-- ==== Sys2Proof/Machine/Guest.lean ====
section
/-! DEFINITION. The guest-die port: the Rentacor die transaction layer, the firewall, budgets (R374–R381, R420, R431). -/

namespace Sys2Proof

def DtlHdr.stream (h : DtlHdr) : Nat := h.flags.toNat % 16
def DtlHdr.poison (h : DtlHdr) : Bool := h.flags.getLsbD 4
def DtlHdr.tag12 (h : DtlHdr) : BitVec 12 := h.tag.setWidth 12
/-- A reserved field of the header is not 0. -/
def DtlHdr.bad (h : DtlHdr) : Bool := h.flags.toNat / 32 != 0 || h.tag.toNat / 4096 != 0

end Sys2Proof

namespace Sys2Proof.Machine

def guestNode : Nat := 0x3DB
def guestSrc : BitVec 16 := srcCode 0 0 0x17
def guestBlock : Nat := hubBlock 0x6000000
def guestDomain : Nat := 711

def State.modGuest (s : State) (f : Guest → Guest) : State := { s with guest := f s.guest }

/-! ### DTL messages out (Table 13-8) -/

/-- A message for the guest die: TYPE, FLAGS, TAG, INFO, ADDR, and its payload. -/
def dtlMessage (ty flags : Nat) (tag : BitVec 16) (info addr : Nat) (payload : List Byte) : List Byte :=
  [BitVec.ofNat 8 ty, BitVec.ofNat 8 flags] ++ toBytes tag 2 ++ leBytes 4 info ++ leBytes 8 addr ++ payload

def State.dtlOut (s : State) (ty flags : Nat) (tag : BitVec 16) (info addr : Nat) (payload : List Byte) : State :=
  { s with out := s.out ++ [.dtl (dtlMessage ty flags tag info addr payload)] }

/-- RDDATA or WRACK with an error code, which refuses or fails a guest request. -/
def State.guestRefuse (s : State) (rd : Bool) (stream : Nat) (tag : BitVec 16) (code : Nat) (poison : Bool) : State :=
  let flags := stream + 16 * poison.toNat
  if rd then s.dtlOut 4 flags tag code 0 (List.replicate 64 0) else s.dtlOut 5 flags tag code 0 []

/-! ### Fence and violations (R379–R381) -/

/-- The write id under which a held message waits for a guest write that still waits for its bucket (R378). -/
def GuestReq.waitId (r : GuestReq) : Nat × Nat := (4096 + r.hdr.tag12.toNat, r.hdr.addr.toNat / 64)

/-- A waiting guest request is refused: it will write nothing. -/
def State.guestDrop (s : State) (r : GuestReq) : State :=
  (s.guestRefuse (r.ty == 1) r.hdr.stream r.hdr.tag 6 false).renameWait guestNode r.waitId []

/-- FENCE is set; what waits and has not been forwarded is refused. -/
def State.guestFence (s : State) (auto : Bool) : State :=
  let g := s.guest
  let s := g.waiting.foldl (fun s r => s.guestDrop r) s
  let gone := g.waiting.map fun r => r.hdr.tag12
  s.modGuest fun g => { g with
    fence := true, auto_ := g.auto_ || auto, waiting := [], open_ := g.open_.filter fun o => !gone.contains o.1 }

/-- A violation of the guest is logged; more than LIMIT within 1 ms fence it. -/
def State.guestViolation (s : State) (kind who detail : Nat) : State :=
  let recent := (s.guest.viols.filter fun t => s.now < t + 1000000) ++ [s.now]
  let s := s.modGuest fun g => { g with pv := g.pv.note s.now kind who detail, viols := recent }
  if recent.length > s.guest.limit.toNat && !s.guest.fence then
    (s.guestFence true).fault guestSrc 0x45 none recent.length
  else s

/-- A violation that is answered with NAK. -/
def State.guestNak (s : State) (kind : Nat) (h : DtlHdr) : State :=
  (s.guestViolation kind h.stream h.tag.toNat).dtlOut 9 0 h.tag kind 0 []

/-! ### Guest requests (R377) -/

def State.stream (s : State) (n : Nat) : Stream := tget s.guest.streams n Stream.initial
def State.setStream (s : State) (n : Nat) (x : Stream) : State :=
  s.modGuest fun g => { g with streams := tput g.streams n x }
def Stream.tid (x : Stream) : BitVec 12 := BitVec.ofNat 12 (fld x.cfg 0 12)
/-- The stream is enabled and its TYPES has the bit. -/
def Stream.takes (x : Stream) (k : Nat) : Bool := bit x.cfg 63 && bit x.cfg (16 + k)

/-- R377 step 3: the line lies in the lowest-numbered valid window that lists the stream and has the permission. -/
def Guest.windowOk (g : Guest) (stream pa : Nat) (perm : Nat) : Bool :=
  match (List.range 16).find? fun w =>
    let x := tget g.wins w (0, 0, 0)
    bit x.1 63 && bit x.1 perm && bit x.2.2 stream with
  | none => false
  | some w =>
    let x := tget g.wins w (0, 0, 0)
    decide (fld x.1 12 40 ≤ pa / 4096) && decide (pa / 4096 ≤ fld x.2.1 12 40)

/-- The bucket of a stream filled up to now, in thousandths of a byte. -/
def State.streamLevel (s : State) (x : Stream) : Nat := min (x.bucket.1 + (s.now - x.bucket.2) * x.rate) (x.burst * 1000)

def State.guestStat (s : State) (stream : Nat) (f : Stat → Stat) : State := s.statRec (1024 + 16 + stream) f

/-- A request that passed goes to the fabric; false where the port has no free tag. -/
def State.guestForward (s : State) (r : GuestReq) : Bool × State :=
  let n := r.hdr.stream
  let x := s.stream n
  let line := r.hdr.addr.toNat / 64
  let cls := s.tenantCls x.tid
  let count (s : State) (b : Nat) : State :=
    s.guestStat n fun t => { t with requests := t.requests + 1, wrBytes := t.wrBytes + BitVec.ofNat 64 b }
  let track (s : State) (ids : List Nat) : State :=
    ({ s with
      guest := { s.guest with writes := s.guest.writes ++ ids.map fun id => (n, id, line, s.now) },
      writers := s.writers ++ [⟨guestNode, x.tid, cls, ids.map fun id => (id, line), [], .guest r.hdr.tag12, none⟩] } : State).renameWait
      guestNode r.waitId (ids.map fun id => (id, line))
  if r.ty == 1 then
    if (s.freeTag guestNode).isNone then (false, s)
    else (true, (count s 0).startRead guestNode x.tid cls (.guest r.hdr.tag12) [(64 * line, 64)])
  else if r.ty == 2 && !s.noWrLine guestNode line then
    (true, track ((count s 64).request (.wrline ⟨guestNode, 256, 0, x.tid, cls⟩ line ⟨r.data, r.hdr.poison⟩)) [256])
  else if r.ty == 2 then
    -- R277: two parts of 32 bytes
    let part (o : Nat) : Part := ⟨(r.data >>> (8 * o)).setWidth 256, BitVec.allOnes 32, BitVec.ofNat 6 o, r.hdr.poison⟩
    match s.issue guestNode x.tid cls fun h => .wrpart h line (part 0) with
    | some (h, t) =>
      match t.issue guestNode x.tid cls fun h => .wrpart h line (part 32) with
      | some (i, t) => (true, track (count t 64) [h.tag, i.tag])
      | none => (false, s)
    | none => (false, s)
  else
    let off := if bit r.hdr.addr 5 then 32 else 0
    let part : Part := ⟨r.data.setWidth 256, r.hdr.info, BitVec.ofNat 6 off, r.hdr.poison⟩
    match s.issue guestNode x.tid cls fun h => .wrpart h line part with
    | some (h, s) => (true, track (count s (popcount r.hdr.info.toNat 32)) [h.tag])
    | none => (false, s)

/-- Take the request's bytes from its bucket and forward it, if the bucket holds them (R377 step 4). -/
def State.guestTry (s : State) (r : GuestReq) : Bool × State :=
  let n := r.hdr.stream
  let x := s.stream n
  let need := if r.ty == 3 then 32000 else 64000
  let v := s.streamLevel x
  if x.paused || x.rate == 0 || v < need then (false, s)
  else
    let (ok, s) := s.guestForward r
    if ok then (true, s.setStream n { x with bucket := (v - need, s.now) }) else (false, s)

/-- The firewall takes a guest request. -/
def State.guestRequest (s : State) (r : GuestReq) : State :=
  let h := r.hdr
  let n := h.stream
  let rd := r.ty == 1
  let refuse (s : State) (code : Nat) : State := s.guestRefuse rd n h.tag code false
  if h.bad then s.guestNak 0x20 h
  else if 128 ≤ s.guest.open_.length then refuse (s.guestViolation 0x24 n h.tag.toNat) 8
  else if s.guest.fence || (s.stream n).blocked then refuse s 6
  else if !(s.stream n).takes (r.ty - 1) then refuse (s.guestViolation 0x21 n h.tag.toNat) 8
  else if isDevice h.addr.toNat || !s.guest.windowOk n h.addr.toNat (if rd then 61 else 62) then
    refuse (s.guestViolation 0x22 n (fld h.addr 6 32)) 8
  else
    let s := s.modGuest fun g => { g with open_ := g.open_ ++ [(h.tag12, n)] }
    if s.guest.waiting.any fun w => w.hdr.stream == n then s.modGuest fun g => { g with waiting := g.waiting ++ [r] }
    else
      let (ok, s) := s.guestTry r
      if ok then s else s.modGuest fun g => { g with waiting := g.waiting ++ [r] }

/-- The port takes what comes from the guest die: its domain runs and the DTL is up. -/
def State.guestLive (s : State) : Bool :=
  let x := s.dom guestDomain
  x.st == .run && !x.stopped && !x.inReset && s.guest.up

/-- DTL_RD (R377). -/
def execDtlRd (h : DtlHdr) (s : State) : Out := .next (if s.guestLive then s.guestRequest ⟨1, h, 0⟩ else s)
/-- DTL_WR (R377). -/
def execDtlWr (h : DtlHdr) (d : Line) (s : State) : Out := .next (if s.guestLive then s.guestRequest ⟨2, h, d⟩ else s)
/-- DTL_WRP (R377). -/
def execDtlWrp (h : DtlHdr) (d : Line) (s : State) : Out := .next (if s.guestLive then s.guestRequest ⟨3, h, d⟩ else s)

/-- Waiting requests of a stream go, oldest first, while its bucket permits. -/
def State.guestServe : Nat → Nat → State → State
  | 0, _, s => s
  | fuel + 1, n, s =>
    match takeFirst (fun r => r.hdr.stream == n) s.guest.waiting with
    | none => s
    | some (r, rest) =>
      let (ok, t) := s.guestTry r
      if ok then State.guestServe fuel n (t.modGuest fun g => { g with waiting := rest }) else s

/-- GUEST_BUCKET_READY (R377): a stream's bucket holds what its oldest waiting request needs. -/
def execGuestBucketReady (stream : Nat) (s : State) : Out :=
  onWf (streamOk stream) (State.guestServe (s.guest.waiting.length + 1) stream s)

/-- A forwarded request has its response: its tag is free again. -/
def State.guestClose (s : State) (tag : BitVec 12) : Nat × State :=
  (((s.guest.open_.find? fun o => o.1 == tag).map (·.2)).getD 0,
    s.modGuest fun g => { g with open_ := g.open_.filter fun o => o.1 != tag })

/-- The read of a guest request has ended: RDDATA, POISON with the code of a failed one (R377). -/
def State.guestRead (s : State) (tag : BitVec 12) (fabricTag : Nat) (r : Option (List Byte)) (code : Nat) : State :=
  let (n, s) := s.guestClose tag
  let s := s.guestStat n fun x => { x with
    rdBytes := if r.isSome then x.rdBytes + 64 else x.rdBytes,
    hist := tmod x.hist (histBucket (s.now - (s.tag guestNode fabricTag).since)) 0 (· + 1) }
  match r with
  | some b => s.dtlOut 4 n (tag.setWidth 16) 0 0 b
  | none => s.dtlOut 4 (n + 16) (tag.setWidth 16) code 0 (List.replicate 64 0)

/-- A write of a guest request has ended: WRACK. -/
def State.guestWrote (s : State) (tag : BitVec 12) (code : Nat) : State :=
  let (n, s) := s.guestClose tag
  s.dtlOut 5 n (tag.setWidth 16) code 0 []

/-- A write of the guest port, by its id, is no longer outstanding. -/
def State.guestWriteEnded (s : State) (id : Nat × Nat) : State :=
  match takeFirst (fun w => w.2.1 == id.1 && w.2.2.1 == id.2) s.guest.writes with
  | none => s
  | some (w, rest) =>
    (s.modGuest fun g => { g with writes := rest }).guestStat w.1 fun x => { x with
      hist := tmod x.hist (histBucket (s.now - w.2.2.2)) 0 (· + 1) }

/-! ### Messages and budgets (R378, R420, R431) -/

/-- DTL_MSG (R378): the router message leaves the junction behind the writes that its stream issued before it, forwarded or
still waiting for their bucket. -/
def execDtlMsg (h : DtlHdr) (s : State) : Out :=
  .next (
    if !s.guestLive then s
    else if h.bad then s.guestNak 0x20 h
    else
      let n := h.stream
      let x := s.stream n
      if s.guest.fence || x.blocked then s
      else if !x.takes 3 then s.guestViolation 0x21 n h.tag.toNat
      else
        let waits := ((s.guest.writes.filter fun w => w.1 == n).map fun w => (w.2.1, w.2.2.1)) ++
          (s.guest.waiting.filter fun r => r.hdr.stream == n && r.ty != 1).map (·.waitId)
        s.hold guestNode waits (.routerMessage x.tid (h.info.setWidth 9)))

/-- GRANT_MW (R431). -/
def State.guestGrant (s : State) (request : Nat) : Nat :=
  min request (min (s.img secPower 6 2 0 * 1000) (s.power.ceil * 1000 - s.power.outside * 1000))

/-- DTL_BUDGET (R431, R420): it is answered with the grant; AGREE or REFUSE_SLEEP answers a sleep request. -/
def execDtlBudget (h : DtlHdr) (d : Line) (s : State) : Out :=
  .next (
    if !s.guestLive then s
    else if h.bad || fld d 80 1 != 0 || fld d 83 5 != 0 || fld d 88 424 != 0 then s.guestNak 0x20 h
    else
      let g := s.guestGrant (fld d 0 32)
      let s := { s with power := { s.power with grant := g } }
      let s := (s.modGuest fun x => { x with budgetAt := some s.now }).dtlOut 8 0 0 0 0
        (leBytes 4 0 ++ leBytes 4 g ++ List.replicate 56 0)
      if s.guest.sleepAt.isSome && (bit d 81 || bit d 82) then
        (s.modGuest fun x => { x with sleepAt := none }).send (.sleepAnswer guestDomain (!bit d 81))
      else s)

/-- GUEST_BUDGET_TIMEOUT (R431): no BUDGET for 10 ms, counted from the last one, from the training of the link or from the
last such report. -/
def execGuestBudgetTimeout (s : State) : Out :=
  .next (
    if s.guest.present && s.guest.budgetAt.all fun t => t + 10000000 ≤ s.now then
      ({ s with power := { s.power with grant := 0 } }.modGuest fun g => { g with budgetAt := some s.now }).fault
        (srcCode 4 0 0) 0x73 none 0
    else s)

/-- GUEST_SLEEP_TIMEOUT (R420, R421): the guest has not answered within 1 ms, which refuses. -/
def execGuestSleepTimeout (s : State) : Out :=
  .next (if s.guest.sleepAt.any fun t => t + 1000000 ≤ s.now then
      (s.modGuest fun x => { x with sleepAt := none }).send (.sleepAnswer guestDomain false)
    else s)

/-! ### Host accesses (R376) -/

/-- An access into the guest window becomes a request to the guest, or is answered Err (R376, R379). -/
def State.guestWindow (s : State) (h : Hdr) (offset : Nat) (op : GuestOp) : State :=
    let pa := 0xF100000000000 + offset
    if !s.guest.present then s.send (.err h pa 1)
    else if s.guest.fence || s.unitFenced guestDomain then s.send (.err h pa 6)
    else
      let r := s.door guestDomain false
      let s := r.2
      if r.1 != .serve then s.send (.err h pa (BitVec.ofNat 16 r.1.code))
      else
        match lowest (fun t => !(s.guest.host.any fun x => x.1.toNat == t)) 128 with
        | none => s.send (.err h pa 7)
        | some t =>
          let tag : BitVec 12 := BitVec.ofNat 12 t
          let rd := match op with
            | .rd => true
            | _ => false
          let s := s.modGuest fun g => { g with host := g.host ++ [(tag, h, pa, rd)] }
          match op with
          | .rd => s.dtlOut 1 0 (tag.setWidth 16) 0 (offset / 64 * 64) []
          | .wr d => s.dtlOut 2 (16 * d.poison.toNat) (tag.setWidth 16) 0 (offset / 64 * 64) (toBytes d.bytes 64)
          | .wrp p =>
            s.dtlOut 3 (16 * p.poison.toNat) (tag.setWidth 16) p.mask.toNat (offset / 64 * 64 + p.offset.toNat / 32 * 32)
              (toBytes p.data 32 ++ List.replicate 32 0)

/-- GUEST_WINDOW_ACCESS (R376, R379). -/
def execGuestWindowAccess (h : Hdr) (offset : Nat) (op : GuestOp) (s : State) : Out :=
  onArrival (hdrOk h) (.guestWindowAccess h offset op) s fun s => s.guestWindow h offset op

/-- The guest answers a host access: a core's instruction finds the answer, an engine has it as CurData or Cmp (R249). -/
def State.hostAnswer (s : State) (h : DtlHdr) (rd : Bool) (d : Line) : State :=
  if h.bad then s.guestNak 0x20 h
  else
    match takeFirst (fun x => x.1 == h.tag12 && x.2.2.2 == rd) s.guest.host with
    | none => s.guestNak 0x23 h
    | some ((_, r, pa, _), rest) =>
      let s := s.modGuest fun g => { g with host := rest }
      if h.info != 0 || h.poison then s.send (.err r pa 8)
      else if 576 ≤ r.node then s.send (if rd then .curdata r (pa / 64) ⟨d, false⟩ else .cmp r (pa / 64))
      else
        let s := (s.finish r).countRead (if rd then r.node else 0x3EF)
        s.modGuest fun g => { g with answers := g.answers ++ [(r.node, pa, 0, d)] }

/-- DTL_RDDATA (R376). -/
def execDtlRddata (h : DtlHdr) (d : Line) (s : State) : Out := .next (if s.guestLive then s.hostAnswer h true d else s)
/-- DTL_WRACK (R376). -/
def execDtlWrack (h : DtlHdr) (s : State) : Out := .next (if s.guestLive then s.hostAnswer h false 0 else s)

/-- DTL_NAK (R375): the guest reports a violation; the manual gives the hub no action. -/
def execDtlNak (h : DtlHdr) (s : State) : Out := .next (if s.guestLive && h.bad then s.guestNak 0x20 h else s)

/-- DTL_RESERVED_MESSAGE (R375, R380). -/
def execDtlReservedMessage (ty : Byte) (h : DtlHdr) (s : State) : Out :=
  .next (if s.guestLive && !(ty.toNat ∈ [1, 2, 3, 4, 5, 7, 8, 9]) then s.guestNak 0x20 h else s)

/-! ### Fence (R379) -/

/-- Every forwarded request and every host access has been answered. -/
def State.guestQuiet (s : State) : Bool := s.guest.open_.isEmpty && s.guest.host.isEmpty

/-- GUEST_FENCE_COMPLETE (R379). -/
def execGuestFenceComplete (s : State) : Out :=
  .next (if s.guest.fence && s.guestQuiet then s.modGuest fun g => { g with fenced := true } else s)

/-- GUEST_LINK_LOSS (R379). -/
def execGuestLinkLoss (s : State) : Out :=
  .next ((s.guestFence true).modGuest fun g => { g with up := false })

/-- A write of FW_CTL: FENCE, and AUTO by writing 1. -/
def State.fwCtl (s : State) (v : Word) : State :=
  let s := s.modGuest fun g => { g with auto_ := g.auto_ && !bit v 1 }
  if bit v 0 then (if s.guest.fence then s else s.guestFence false)
  else s.modGuest fun g => { g with fence := false, fenced := false }

/-- FW_CTL_WRITE (R379). -/
def execFwCtlWrite (v : Word) (s : State) : Out :=
  .next (if (s.dom guestDomain).st == .run && !(s.dom guestDomain).inReset then
    (s.reserved guestBlock (maskBits 7 0) v).fwCtl v
  else s)

/-! ### Registers (Table 13-9) -/

/-- PV_CTL and PV_LOG of a unit. -/
def Pv.ctl (x : Pv) : Word := BitVec.ofNat 64 (x.next * 2 ^ 32 + x.total)
def Pv.entry (x : Pv) (off : Nat) : Word :=
  let e := tget x.log (off / 16) (0, 0)
  if off % 16 == 0 then e.1 else e.2

def State.guestRegRead (s : State) (off : Nat) : Option Word :=
  let g := s.guest
  if off == 0x10 then
    some (BitVec.ofNat 64 (g.modules.toNat * 16 + g.up.toNat * 8 + g.fenced.toNat * 4 + g.auto_.toNat * 2 + g.fence.toNat))
  else if off == 0x18 then some (g.limit.setWidth 64)
  else if off == 0x20 then some g.pv.ctl
  else if 0x100 ≤ off ∧ off < 0x300 then
    let w := tget g.wins ((off - 0x100) / 32) (0, 0, 0)
    match (off - 0x100) % 32 with
    | 0 => some w.1
    | 8 => some w.2.1
    | 16 => some w.2.2
    | _ => none
  else if 0x400 ≤ off ∧ off < 0x500 then
    let x := s.stream ((off - 0x400) / 16)
    if off % 16 == 0 then some x.cfg else some (BitVec.ofNat 64 (x.rate * 2 ^ 32 + x.burst))
  else if 0x800 ≤ off ∧ off < 0x900 then some (g.pv.entry (off - 0x800))
  else none

def State.guestRegWrite (s : State) (off : Nat) (v : Word) : State :=
  if off == 0x10 then s.fwCtl v
  else if off == 0x18 then s.modGuest fun g => { g with limit := v.setWidth 16 }
  else if off == 0x20 then if bit v 63 then s.modGuest fun g => { g with pv := Pv.initial } else s
  else if 0x100 ≤ off ∧ off < 0x300 then
    let i := (off - 0x100) / 32
    s.modGuest fun g =>
      let w := tget g.wins i (0, 0, 0)
      { g with wins := tput g.wins i (match (off - 0x100) % 32 with
        | 0 => (v &&& 0xE00FFFFFFFFFF000, w.2.1, w.2.2)
        | 8 => (w.1, v &&& 0xFFFFFFFFFF000, w.2.2)
        | _ => (w.1, w.2.1, v &&& 0xFFFF)) }
  else if 0x400 ≤ off ∧ off < 0x500 then
    let i := (off - 0x400) / 16
    let x := s.stream i
    let full := (s.streamLevel x, s.now)
    if off % 16 == 0 then s.setStream i { x with cfg := v &&& 0x80000000000F0FFF }
    else
      let burst := max 64 (fld v 0 32)
      s.setStream i { x with rate := fld v 32 32, burst := burst, bucket := (min full.1 (burst * 1000), s.now) }
  else s

end Sys2Proof.Machine
end

