-- ==== Sys2Proof/Machine/Compressor.lean ====
section
/-! DEFINITION. The page compressor (Chapter 14): the block format, the lanes, their jobs and failures. -/

namespace Sys2Proof.Machine

/-! ### The block format (R385–R387) -/

/-- The bytes a MATCH copies, one at a time, so that a copy may overlap its own output. -/
def copyMatch : Nat → Nat → List Byte → List Byte
  | 0, _, out => out
  | n + 1, back, out => copyMatch n back (out ++ [out.getD (out.length - back) 0])

/-- R386: the bytes that a token stream rebuilds; none when the block is invalid. -/
def decodeTokens : Nat → List Byte → List Byte → Option (List Byte)
  | 0, _, _ => none
  | fuel + 1, ts, out =>
    if out.length > 4096 then none
    else
      match ts with
      | [] => if out.length == 4096 then some out else none
      | t :: rest =>
        if t.toNat < 0x80 then
          let n := t.toNat + 1
          if rest.length < n then none else decodeTokens fuel (rest.drop n) (out ++ rest.take n)
        else if t.toNat < 0xC0 then decodeTokens fuel rest (out ++ List.replicate ((t.toNat - 0x7F) * 8) 0)
        else
          let m := leAt rest 0 2
          let back := m % 4096 + 1
          if rest.length < 2 || m / 4096 != 0 || out.length < back then none
          else decodeTokens fuel (rest.drop 2) (copyMatch (t.toNat % 64 + 4) back out)

/-- R385, R386: the block that a slot holds; none when it is invalid or its CHECK differs. -/
def decodeSlot (slot : List Byte) : Option (List Byte) :=
  let body := leAt slot 0 2
  if leAt slot 2 1 != 1 || leAt slot 3 1 != 0 || body == 0 || body + 8 > slot.length ||
      (slot.drop (body + 8)).any (· != 0) then none
  else
    match decodeTokens (body + 1) ((slot.drop 4).take body) [] with
    | some b => if leAt slot (4 + body) 4 == (crcFrame b).toNat then some b else none
    | none => none

/-- A stream of literals, which is valid for every block. -/
def literals : Nat → List Byte → List Byte
  | 0, _ => []
  | n + 1, b => [(0x7F : Byte)] ++ b.take 128 ++ literals n (b.drop 128)

/-- R387: the token stream the compressor chooses: any valid one, and eight ZEROS for a block of zeros. -/
def tokensOf (n : Nat) (b : List Byte) : List Byte :=
  if b.all (· == 0) then List.replicate 8 0xBF
  else
    let ts := Config.tokens n b
    if decodeTokens (ts.length + 1) ts [] == some b then ts else literals 32 b

/-- R385: the slot of `size` bytes that codes a block, when the stream fits it. -/
def codeSlot (ts b : List Byte) (size : Nat) : Option (List Byte) :=
  if ts.length + 8 > size || ts.length > 2040 then none
  else
    let c := leBytes 2 ts.length ++ [1, 0] ++ ts ++ toBytes (crcFrame b) 4
    some (c ++ List.replicate (size - c.length) 0)

/-! ### Lanes -/

def laneNode (l : Nat) : Nat := 0x3D6 + l
def laneSrc (l : Nat) : BitVec 16 := srcCode 0 0 (0x12 + l)
def laneBlock (l : Nat) : Nat := hubBlock (0x2000000 + l * 0x100000)
def laneDomain (l : Nat) : Nat := 704 + l
def laneUnit (l : Nat) : Nat := 0x12 + l

def State.lane (s : State) (l : Nat) : Lane := tget s.lanes l Lane.initial
def State.setLane (s : State) (l : Nat) (x : Lane) : State := { s with lanes := tput s.lanes l x }

def codeOutFull : Nat := 0x140
def codeLaneRead : Nat := 0x141
def codeLaneWrite : Nat := 0x142
def codeLaneHalted : Nat := 0x143

/-- A line that the manual leaves undefined takes a free value. -/
def State.smear (s : State) (line : Nat) : State :=
  match s.locate line with
  | none => s
  | some p =>
    let s := (s.homeTake p line).2
    let s := s.homePlace p line ⟨Config.freeLine s.free, false⟩
    { s with free := s.free + 1 }.markLine p.base line

/-- The lines of a region become undefined. -/
def State.smearAll (s : State) (base len : Nat) : State :=
  (List.range ((len + 63) / 64)).foldl (fun s i => s.smear (base / 64 + i)) s

/-- Length of the slot map and of the result bitmap of `count` blocks (R383). -/
def mapLen (count : Nat) : Nat := (count + 15) / 16 * 64
def bitmapLen (count : Nat) : Nat := (count + 511) / 512 * 64
def Job.slotSize (j : Job) : Nat := if j.mode == 0 then 2048 else 1024

/-- The regions of a job as (base, length): input, output, map, bitmap (R383). -/
def Job.regions (j : Job) : List (Nat × Nat) :=
  let blocks := 4096 * j.count
  let slots := if j.mode == 2 then j.slotLen else j.count * j.slotSize
  [(j.inBase, if j.compress then blocks else slots), (j.outBase, if j.compress then slots else blocks)] ++
    (if j.mode == 2 then [(j.mapBase, mapLen j.count)] else []) ++ [(j.bitmap, bitmapLen j.count)]

/-- The job that a descriptor describes (Table 14-2). -/
def jobOf (b : List Byte) : Job :=
  { compress := leAt b 0 1 == 1, mode := leAt b 1 1, tid := BitVec.ofNat 12 (leAt b 2 2),
    vector := BitVec.ofNat 9 (leAt b 4 2), int := (leAt b 4 2).testBit 15, count := leAt b 6 2, inBase := leAt b 8 8,
    outBase := leAt b 16 8, slotLen := leAt b 24 8, mapBase := leAt b 32 8, bitmap := leAt b 40 8, index := 0,
    ready := none, map := [], marks := [], written := 0, used := 0, aborting := false, ending := false, failure := none }

/-- Steps 2 and 4 to 8 of R384: the code of the first check that fails; none with a COUNT of 0, which ends before step 4. -/
def State.jobCheck (s : State) (l : Nat) (b : List Byte) (j : Job) : Option Nat :=
  let op := leAt b 0 1
  let rs := j.regions
  if (op != 1 && op != 2) || j.mode > 2 || leAt b 2 2 / 4096 != 0 || leAt b 4 2 / 512 % 64 != 0 || leAt b 48 16 != 0 ||
      (j.mode != 2 && (j.slotLen != 0 || j.mapBase != 0)) then some codeFieldInvalid
  else if j.count == 0 then none
  else if !(s.tenant j.tid).en || (s.lane l).blocked.contains j.tid then some codeTenantBlocked
  else if rs.any (fun r => r.1 % 64 != 0) || j.slotLen % 1024 != 0 then some codeAlign
  else if rs.any (fun r => r.2 != 0 && decide (2 ^ 52 < r.1 + r.2)) then some codeLengthRange
  else if rs.any (fun r => r.2 != 0 && decide (64 * s.dramLines < r.1 + r.2)) then some codeTargetUnmapped
  else if !pairwiseApart (rs.filter fun r => r.2 != 0) then some codeFieldInvalid
  else none

/-- The interrupt that follows the end of a job (R20). -/
def State.laneAfter (s : State) (j : Job) : State := if j.int then s.send (.routerMessage j.tid j.vector) else s

/-- The lowest marked block, or 0xFFFF. -/
def firstMark (ms : List Nat) : Nat := ms.foldl min 0xFFFF

/-- A job has ended: the completion record is written (R382, R388). -/
def State.laneEnd (s : State) (l : Nat) (j : Job) (res : Chan → Chan) : State :=
  let x := s.lane l
  let x := { x with res := res x.res, written := j.written, marked := j.marks.length, first := firstMark j.marks,
                    used := j.used, busy := false, job := none }
  (s.setLane l x).laneAfter j

/-- A job has ended with its bitmap undefined: what the record says of the bitmap is free (R388). -/
def State.laneEndFree (s : State) (l : Nat) (j : Job) (res : Chan → Chan) : State :=
  let w := Config.freeWord s.free
  let s := { s with free := s.free + 1 }.laneEnd l j res
  let x := s.lane l
  s.setLane l { x with marked := fld w 0 32, first := fld w 32 16, used := fld (Config.freeWord (s.free + 1)) 0 32 }

/-- A job is aborted after the block in progress: the map, the bitmap and SLOT_USED are undefined (R388). -/
def State.laneAborted (s : State) (l : Nat) (j : Job) : State :=
  let s := if j.mode == 2 && j.compress then s.smearAll j.mapBase (mapLen j.count) else s
  (s.smearAll j.bitmap (bitmapLen j.count)).laneEndFree l j fun c => c.fail codeAborted 0

/-- A job fails with a code at the block it handles. -/
def State.laneFail (s : State) (l : Nat) (j : Job) (code : Nat) : State := s.laneEnd l j fun c => c.fail code j.index

/-- A read of the lane has failed: code 0 is poison (R389). -/
def State.laneHalt (s : State) (l : Nat) (j : Job) (code pa detail : Nat) : State :=
  let s := s.setLane l { s.lane l with halted := true }
  let s := s.fault (laneSrc l) 0x41 (if detail == 0xFFFF then none else some j.tid) pa
  s.laneEnd l j fun c => c.fail (if code == 0 then codePoisoned else codeLaneRead) detail

/-! ### The blocks of a job (R388) -/

/-- The map entry of the block a DECOMPRESS job handles: its slot's offset and size, when it names one in the region. -/
def Job.mapSlot (j : Job) : Option (Nat × Nat) :=
  let e := j.map.getD j.index 0
  let kind := e / 2 ^ 30
  let off := e % 2 ^ 24 * 1024
  let size := if kind == 1 then 1024 else 2048
  if (kind == 1 || kind == 2) && decide (off + size ≤ j.slotLen) then some (off, size) else none

/-- Where the block or slot that is handled next is read; none for a map entry that names no slot. -/
def Job.source (j : Job) : Option (Nat × Nat) :=
  if j.compress then some (j.inBase + 4096 * j.index, 4096)
  else if j.mode == 2 then j.mapSlot.map fun m => (j.inBase + m.1, m.2)
  else some (j.inBase + j.slotSize * j.index, j.slotSize)

/-- The bytes of the slot map and of the bitmap. -/
def Job.mapBytes (j : Job) : List Byte :=
  let es := (j.map.map (leBytes 4)).flatten
  es ++ List.replicate (mapLen j.count - es.length) 0
def Job.bitmapBytes (j : Job) : List Byte :=
  (List.range (bitmapLen j.count)).map fun k =>
    BitVec.ofNat 8 ((List.range 8).foldl (fun a i => if j.marks.contains (8 * k + i) then a + 2 ^ i else a) 0)

def State.laneRead (s : State) (l : Nat) (j : Job) (why : ReadFor) (pa n : Nat) : State :=
  s.startRead (laneNode l) j.tid (s.tenantCls j.tid) why (chunksOf pa n)

def State.laneWrite (s : State) (l : Nat) (j : Job) (todo : List (Nat × List Byte)) : State :=
  s.startWrite (laneNode l) j.tid (s.tenantCls j.tid) (.job l) todo

/-- The job goes on with its next block, or with the map and bitmap after the last one. -/
def State.laneNext (s : State) (l : Nat) (j : Job) : State :=
  if j.aborting then s.laneAborted l j
  else if j.index < j.count then
    let s := s.setLane l { s.lane l with job := some { j with ready := none } }
    match j.source with
    | some (pa, n) => s.laneRead l j (.block l) pa n
    | none => s.setLane l { s.lane l with job := some { j with ready := some [] } }
  else
    let j := { j with ending := true, ready := none }
    let s := s.setLane l { s.lane l with job := some j }
    s.laneWrite l j ((if j.compress && j.mode == 2 then [(j.mapBase, j.mapBytes)] else []) ++ [(j.bitmap, j.bitmapBytes)])

/-- A job that has passed the checks starts, at RESUME if its tenant is paused: a DECOMPRESS in ADAPT reads its map
first. -/
def State.laneStart (s : State) (l : Nat) (j : Job) : State :=
  if (s.lane l).paused.contains j.tid then s.setLane l { s.lane l with job := some j, held := true }
  else if !j.compress && j.mode == 2 && !j.aborting then
    let s := s.setLane l { s.lane l with job := some j }
    s.laneRead l j (.map l) j.mapBase (mapLen j.count)
  else s.laneNext l j

/-- The lane moves on from a block. -/
def State.laneStep (s : State) (l : Nat) (j : Job) : State := s.laneNext l { j with index := j.index + 1, ready := none }

/-- OUT_FULL: the packed region, the map and the bitmap are undefined and no block counts (R388). -/
def State.laneFull (s : State) (l : Nat) (j : Job) : State :=
  let s := ((s.smearAll j.outBase j.slotLen).smearAll j.mapBase (mapLen j.count)).smearAll j.bitmap (bitmapLen j.count)
  s.laneEndFree l { j with written := 0 } fun c => c.fail codeOutFull j.index

/-- A COMPRESS job handles the bytes of a block. -/
def State.compressBlock (s : State) (l : Nat) (j : Job) (b : List Byte) : State :=
  let ts := tokensOf s.free b
  let s := { s with free := s.free + 1 }
  let noShrink (s : State) : State := s.laneStep l { j with marks := j.marks ++ [j.index], map := j.map ++ [0] }
  let place (s : State) (slot : List Byte) (pa : Nat) (kind size : Nat) : State :=
    let j := { j with written := j.written + 1, map := j.map ++ [kind * 2 ^ 30 + j.used / 1024],
                      used := if j.mode == 2 then j.used + size else 0, ready := none }
    (s.setLane l { s.lane l with job := some j }).laneWrite l j [(pa, slot)]
  if j.mode != 2 then
    match codeSlot ts b j.slotSize with
    | some c => place s c (j.outBase + j.slotSize * j.index) 0 0
    | none => noShrink s
  else
    let pick : Option (List Byte × Nat × Nat) :=
      match codeSlot ts b 1024 with
      | some c => some (c, 1, 1024)
      | none => (codeSlot ts b 2048).map fun c => (c, 2, 2048)
    match pick with
    | none => noShrink s
    | some (c, kind, size) =>
      if j.used + size > j.slotLen then s.laneFull l j else place s c (j.outBase + j.used) kind size

/-- A DECOMPRESS job handles the bytes of a slot. -/
def State.restoreBlock (s : State) (l : Nat) (j : Job) (b : List Byte) : State :=
  match decodeSlot b with
  | none => s.laneStep l { j with marks := j.marks ++ [j.index] }
  | some out =>
    let j := { j with written := j.written + 1, used := if j.mode == 2 then j.used + b.length else 0, ready := none }
    (s.setLane l { s.lane l with job := some j }).laneWrite l j [(j.outBase + 4096 * j.index, out)]

/-- COMPRESSOR_BLOCK (R388): the lane finishes the block it has read. -/
def execCompressorBlock (l : Nat) (s : State) : Out :=
  onWf (laneOk l)
    (if s.runs (laneDomain l) then
       match (s.lane l).job with
       | none => s
       | some j =>
         match j.ready with
         | none => s
         | some b => if j.compress then s.compressBlock l j b else s.restoreBlock l j b
     else s)

/-! ### Answers to the lane's reads and writes -/

/-- Bytes that a lane asked for have come. -/
def State.laneGot (s : State) (why : ReadFor) (b : List Byte) : State :=
  match why with
  | .job l =>
    let abort := (s.lane l).job.isSome
    let j := jobOf b
    match s.jobCheck l b j with
    | some code => s.laneEnd l j fun c => c.fail code 0
    | none => if j.count == 0 then s.laneEnd l j fun c => c.done 0 else s.laneStart l { j with aborting := abort }
  | .map l =>
    match (s.lane l).job with
    | none => s
    | some j => s.laneNext l { j with map := (List.range j.count).map fun i => leAt b (4 * i) 4 }
  | .block l =>
    match (s.lane l).job with
    | none => s
    | some j => s.setLane l { s.lane l with job := some { j with ready := some b } }
  | _ => s

/-- A read of a lane has failed. -/
def State.laneBad (s : State) (why : ReadFor) (code pa : Nat) : State :=
  match why with
  | .job l => s.laneHalt l (jobOf []) code pa 0xFFFF
  | .map l => match (s.lane l).job with
    | none => s
    | some j => s.laneHalt l j code pa j.index
  | .block l => match (s.lane l).job with
    | none => s
    | some j => s.laneHalt l j code pa j.index
  | _ => s

/-- The writes of a block, or of the map and bitmap, have ended. -/
def State.laneWrote (s : State) (l : Nat) (failed : Bool) : State :=
  match (s.lane l).job with
  | none => s
  | some j =>
    if failed then
      if j.ending then s.laneFail l { j with index := j.count - 1 } codeLaneWrite
      else
        let s := if !j.compress then s.smearAll (j.outBase + 4096 * j.index) 4096
          else if j.mode == 2 then
            let size := if (j.map.getLastD 0) / 2 ^ 30 == 1 then 1024 else 2048
            s.smearAll (j.outBase + j.used - size) size
          else s.smearAll (j.outBase + j.slotSize * j.index) j.slotSize
        s.laneFail l j codeLaneWrite
    else if j.ending then
      if j.aborting then s.laneAborted l j else s.laneEnd l j fun c => c.done j.written
    else s.laneStep l j

/-! ### Commands (R382, R384, R388, R389) -/

/-- A job that has been accepted and whose descriptor has not come, marked to end. -/
def abortMark : Job := { jobOf [] with aborting := true }

/-- A write of JOB_CMD: DESC is kept, GO starts a job unless one runs, ABORT ends the one that ran before the write. -/
def State.laneCmd (s : State) (l : Nat) (v : Word) : State :=
  let busy := (s.lane l).busy
  let s := s.setLane l { s.lane l with desc := BitVec.ofNat 64 (fld v 6 46 * 64) }
  let s :=
    if !bit v 63 then s
    else if busy then s.violate (laneBlock l)
    else
      let x := s.lane l
      let x := { x with res := x.res.accept, written := 0, marked := 0, first := 0xFFFF, used := 0 }
      if x.halted || s.isFenced (laneDomain l) then s.setLane l { x with res := x.res.fail codeLaneHalted 0 }
      else
        (s.setLane l { x with busy := true, job := none }).startRead (laneNode l) 0 0 (.job l)
          [(x.desc.toNat, 64)]
  if bit v 62 && busy then
    let x := s.lane l
    let j := match x.job with
      | some j => { j with aborting := true }
      | none => abortMark
    s.setLane l { x with job := some j }
  else s

/-- A lane's registers answer: it runs, or it is fenced. -/
def State.laneOn (s : State) (l : Nat) : Bool :=
  let d := s.dom (laneDomain l)
  d.st == .run && !d.stopped && !d.inReset

/-- The bits in use of JOB_CMD (Table 14-1). -/
def jobBits : Word := maskBits 63 62 ||| maskBits 51 6

/-- JOB_GO (R384). -/
def execJobGo (l : Nat) (v : Word) (s : State) : Out :=
  onWf (laneOk l) (if s.laneOn l && bit v 63 then (s.reserved (laneBlock l) jobBits v).laneCmd l v else s)

/-- JOB_ABORT (R388). -/
def execJobAbort (l : Nat) (v : Word) (s : State) : Out :=
  onWf (laneOk l) (if s.laneOn l && bit v 62 then (s.reserved (laneBlock l) jobBits v).laneCmd l v else s)

/-- A write of LANE_CTL; a fenced lane's REARM has no effect (Table 17-6). -/
def State.laneRearm (s : State) (l : Nat) (v : Word) : State :=
  if bit v 0 && !s.isFenced (laneDomain l) then s.setLane l { s.lane l with halted := false } else s

/-- LANE_REARM (R389). -/
def execLaneRearm (l : Nat) (v : Word) (s : State) : Out :=
  onWf (laneOk l) (if s.laneOn l then (s.reserved (laneBlock l) 3 v).laneRearm l v else s)

/-! ### Registers (Table 14-1) -/

def State.laneReg (s : State) (l off : Nat) : Option Word :=
  let x := s.lane l
  if off == 0x10 then some x.desc
  else if off == 0x18 then some (BitVec.ofNat 64 (2 * x.halted.toNat))
  else if off == 0x20 then some x.res.word
  else if off == 0x28 then some (BitVec.ofNat 64 (x.written * 2 ^ 32 + x.marked))
  else if off == 0x30 then some (BitVec.ofNat 64 (x.first * 2 ^ 32 + x.used))
  else none

def State.laneRegWrite (s : State) (l off : Nat) (v : Word) : State :=
  if off == 0x10 then s.laneCmd l v else if off == 0x18 then s.laneRearm l v else s

/-- A fence ends the lane's job and halts it (Table 17-6). -/
def State.laneFenced (s : State) (l : Nat) : State :=
  let s := s.setLane l { s.lane l with halted := true }
  let mine (r : Reader) : Bool := r.node == laneNode l
  let s := { s with readers := s.readers.filter fun r => !mine r,
                    writers := s.writers.filter fun w => w.node != laneNode l }
  let x := s.lane l
  if x.busy then s.laneEnd l (x.job.getD (jobOf [])) fun c => c.fail codeAborted 0 else s

end Sys2Proof.Machine
end

