-- ==== Sys2Proof/Machine/DomReq.lean ====
section
/-! DEFINITION. Requests of software to switched domains (R413–R415, R423), and what a mirror slot or a pause forbids them
(R455–R457). -/

namespace Sys2Proof.Machine

/-! ### What forbids a request -/

/-- The areas of a mirror slot as (base, length): ranges, tracking areas, staging and state area (Table 15-2). -/
def Slot.areas (x : Slot) : List (Nat × Nat) :=
  (x.ranges.map fun r => [(r.1, r.2.1), (r.2.2, r.2.1 / 256)]).flatten ++
    (if x.active then [] else [(x.stageBase, x.stageLen), (x.stateBase, 2 ^ 20)])

def State.logBase (s : State) : Nat := fld s.mirror.logBase 21 31 * 2 ^ 21

/-- The slots that are not FREE. -/
def State.usedSlots (s : State) : List (Nat × Slot) := s.mirror.slots.filter fun e => e.2.st != .free

/-- R457: the mirror engine, a mirror-role port, or a stack that holds a byte of a mirror area or of the send log. -/
def State.mirrorNeeds (s : State) (d : Nat) : Bool :=
  !s.usedSlots.isEmpty &&
    (d == 710 || (decide (696 ≤ d) && decide (d < 704) && s.portRole (d - 696) == 2) ||
      (decide (684 ≤ d) && decide (d < 696) &&
        ((s.usedSlots.any fun e => e.2.areas.any fun a => s.rangeOn a.1 a.2 (d - 684)) ||
          s.rangeOn s.logBase s.mirror.logLen.toNat (d - 684))))

/-- The unit of a domain, as paused notices name it. -/
def pauseUnit (d : Nat) : Nat := if d < 576 then d else 1024 + hubUnit d

/-- The unit of a domain has taken a pause notice and not been released (R456). -/
def State.underPause (s : State) (d : Nat) : Bool :=
  if d < 576 then (s.core d).run == .paused
  else if d < 696 then false
  else s.mirror.slots.any fun e => e.2.pausedUnits.contains (pauseUnit d) ||
    (match e.2.phase with
     | .pause owing _ => owing.contains (pauseUnit d) && d < 710 &&
         (s.qps.any fun q => q.2.tid == e.2.tid && q.2.paused && (q.2.port + 696 == d || q.1 / 32768 + 708 == d))
     | _ => false)

/-- A request that R413, R414 or R415 forbids in the domain's state: 1 RUN, 2 RETAIN, 3 OFF. -/
def State.reqForbidden (s : State) (d r : Nat) : Bool :=
  let x := s.dom d
  if r == 1 then (d < 576 && x.st == .off) || s.portOff d
  else
    (r == 2 && x.st == .off) || s.mirrorNeeds d ||
      (decide (672 ≤ d) && decide (d < 684) &&
        (coresOf (d - 672)).any fun g => (s.dom g).st != .retained && (s.dom g).st != .off)

/-! ### Carrying a request out -/

/-- A slot no longer returns a domain to RETAINED after RESUME (R455). -/
def State.keepAwake (s : State) (d : Nat) : State :=
  { s with mirror := { s.mirror with
      slots := tmap (fun (x : Slot) => { x with woken := x.woken.filter (· != d) }) s.mirror.slots } }

/-- A request is applied to a domain in RUN, RETAINED or OFF. -/
def State.applyReq (s : State) (d r : Nat) : State :=
  let x := s.dom d
  match x.st with
  | .run => if r == 1 then s.keepAwake d else if x.stopped then s else s.cut d r
  | .retained =>
    if r == 1 then s.startWake d
    else if r == 3 then (s.setDom d { x with req := 3 }).startWake d
    else s
  | .off => if r == 1 then if decide (576 ≤ d) && decide (d < 672) then s.setDom d { x with st := .waking, inReset := false } else s.startWake d
            else s
  | _ => s

/-- R423: a REQ of DOM_CTL. -/
def State.domReq (s : State) (d r : Nat) : State :=
  let x := s.dom d
  if s.seq.active.isSome && !s.domEnabled d then s
  else if s.seq.active.isNone || s.power.pkg == 2 || s.power.pkg == 3 || s.unitFenced d || s.reqForbidden d r then
    s.violate powerBlock
  else if x.st == .closing || x.st == .waking || (r != 1 && s.underPause d) then s.setDom d { x with req := r }
  else s.applyReq d r

/-- POWER_ON at one domain (R496): a core that was OFF stays in reset until RESET_RELEASE, another unit runs from its reset
values; RETAINED is left as RESTORE leaves it; a transition ends first. -/
def State.powerOnDom (s : State) (d : Nat) : State :=
  let x := s.dom d
  match x.st with
  | .off => if s.portOff d then s else s.setDom d { x with st := .run, inReset := decide (d < 576), stopped := false, stale := [], req := 0 }
  | .retained => s.startWake d
  | .closing => s.setDom d { x with req := 4 }
  | _ => s

/-- A transition or pause of a domain has ended: the request that waited is applied, unless it is forbidden by now. -/
def State.pendingReq (s : State) (d : Nat) : State :=
  let x := s.dom d
  if x.req == 0 || x.st == .closing || x.st == .waking then s
  else
    let s := s.setDom d { x with req := 0 }
    if x.req == 4 then s.powerOnDom d
    else if s.unitFenced d || s.reqForbidden d x.req then s.violate powerBlock else s.applyReq d x.req

/-- DOM_REQ_RUN (R423). -/
def execDomReqRun (d : Nat) (s : State) : Out := onWf (domainOk d) (s.domReq d 1)

/-- DOM_REQ_RETAIN (R423). -/
def execDomReqRetain (d : Nat) (s : State) : Out := onWf (domainOk d) (s.domReq d 2)

/-- DOM_REQ_OFF (R423). -/
def execDomReqOff (d : Nat) (s : State) : Out := onWf (domainOk d) (s.domReq d 3)

end Sys2Proof.Machine
end

