-- ==== Sys2Proof/Machine/SysRegs.lean ====
section
/-! DEFINITION. The system registers as MFSR, MTSR and the Sequencer see them (Tables 4-5 and 11-1), and what a core holds
pending (R162, R314). -/

namespace Sys2Proof.Machine

/-! ### The index of system registers -/

/-- Table 4-5: the level that may read a register, the level that may write it (none: read-only), and its distance. -/
def srInfo (n : Nat) : Option (Nat × Option Nat × Nat) :=
  if n ≤ 2 then some (0, none, 0)
  else if n = 3 then some (2, some 2, 1)
  else if n = 4 ∨ n = 5 ∨ n = 9 then some (1, some 1, 1)
  else if n = 6 ∨ n = 7 then some (1, none, 0)
  else if n = 8 then some (1, some 1, 8)
  else if n = 0xC ∨ n = 0xD ∨ n = 0x11 then some (2, some 2, 1)
  else if n = 0xE ∨ n = 0xF then some (2, none, 0)
  else if n = 0x10 then some (2, some 2, 8)
  else if 0x14 ≤ n ∧ n ≤ 0x18 then some (2, some 2, 8)
  else if 0x40 ≤ n ∧ n ≤ 0x6F ∨ n = 0x72 then some (2, some 2, 32)
  else if n = 0x70 ∨ n = 0x71 then some (1, some 1, 32)
  else if n = 0x80 then some (1, some 2, 32)
  else if n = 0x81 then some (1, some 2, 16)
  else if n = 0x82 ∨ n = 0x83 then some (2, some 2, 16)
  else if 0x84 ≤ n ∧ n ≤ 0x93 then some (1, some 1, 4)
  else if n = 0x94 then some (1, none, 0)
  else if n = 0x95 then some (1, some 1, 4)
  else if n = 0x96 then some (2, some 2, 4)
  else if n = 0x97 then some (1, some 1, 1)
  else if 0xC0 ≤ n ∧ n ≤ 0xE0 then some (1, some 1, 8)
  else if n = 0xE1 then some (1, some 1, 4)
  else if n = 0xE2 then some (0, none, 0)
  else if 0x100 ≤ n ∧ n ≤ 0x102 then some (0, none, 0)
  else if n = 0x103 then some (1, none, 0)
  else if n = 0x140 then some (2, some 2, 64)
  else if n = 0x141 then some (1, some 1, 16)
  else if n = 0x142 ∨ n = 0x143 ∨ n = 0x150 then some (2, some 2, 16)
  else if 0x180 ≤ n ∧ n ≤ 0x188 then some (1, some 1, 16)
  else none

/-- The bits of a register that MTSR writes (Tables 4-5 to 4-7, 5-6 to 5-8, 6-1 to 6-5, 7-4 and 11-1). -/
def srMask (n : Nat) : Word :=
  if n = 8 ∨ n = 0x10 then maskBits 63 12
  else if n = 0x18 then maskBits 16 0
  else if 0x40 ≤ n ∧ n ≤ 0x5F ∨ n = 0x70 then maskBits 47 12
  else if 0x60 ≤ n ∧ n ≤ 0x6F then maskBits 63 59 ||| maskBits 51 12
  else if n = 0x71 ∨ n = 0x83 ∨ n = 0x150 then maskBits 1 0
  else if n = 0x72 then 1
  else if n = 0x80 then maskBits 11 0
  else if n = 0x81 then maskBits 2 0
  else if n = 0x82 then maskBits 51 21
  else if 0xC0 ≤ n ∧ n ≤ 0xCF then maskBits 47 0
  else if 0xD0 ≤ n ∧ n ≤ 0xDF then maskBits 20 16 ||| maskBits 11 0
  else if n = 0xE0 then 0xD
  else if n = 0x140 then maskBits 3 0
  else if n = 0x141 then maskBits 9 4 ||| maskBits 1 0
  else if n = 0x142 then maskBits 31 0
  else if n = 0x143 then maskBits 15 0
  else if n = 0x188 then maskBits 13 0
  else BitVec.allOnes 64

/-! ### What is pending (R162, R314) -/

/-- Group g of VEC_PEND as interrupts see it. -/
def Core.vecPend (c : Core) (g : Nat) : Word := c.eff (0x84 + g) ||| c.reg (0x84 + g)

/-- The lowest pending unmasked vector. -/
def Core.lowVector (c : Core) : Option Nat :=
  lowest (fun v => bit (c.vecPend (v / 64) &&& ~~~ c.eff (0x8C + v / 64)) (v % 64)) 512

/-- HT_EN is 1 and TIME has reached TIMER_CMP_H. -/
def Core.htimer (c : Core) (now : Nat) : Bool := bit (c.eff 0x83) 1 && decide ((c.eff 0x96).toNat ≤ now)
def Core.timer (c : Core) (now : Nat) : Bool := decide ((c.eff 0x95).toNat ≤ now)

/-- The interrupts a core holds pending, lowest code first. -/
def Core.pendingInts (c : Core) (now : Nat) : List Nat :=
  [(0x70, c.lowVector.isSome), (0x71, bit (c.eff 0x83) 0 && (c.doorbell || c.htimer now)), (0x72, c.timer now),
   (0x73, c.ipi), (0x74, c.ovf != 0), (0x75, c.notify || c.notifyH)].filterMap fun p => if p.2 then some p.1 else none

/-- The target level of an interrupt before R109 compares it with the current level. -/
def Core.intLevel (c : Core) (code : Nat) : Nat := if c.routed code || (code == 0x75 && c.notifyH) then 2 else 1

/-- R109: the interrupt that is taken at a boundary where the core sees `sw`. -/
def Core.takes (c : Core) (now : Nat) (sw : Word) : Option Nat :=
  (c.pendingInts now).find? fun code =>
    let t := c.intLevel code
    decide (swPl sw < t) || (t == swPl sw && swIe sw && !swEx sw)

/-! ### MFSR and MTSR -/

/-- The value MFSR reads (R117, Tables 4-5, 11-1 and 12-3). -/
def State.srRead (s : State) (g n : Nat) : Word :=
  let c := s.core g
  if n = 0 then BitVec.ofNat 64 g
  else if n = 1 then BitVec.ofNat 64 s.caps
  else if n = 2 then BitVec.ofNat 64 s.now
  else if n = 3 then tget s.resetEntry g 0x10000
  else if n = 0x94 then
    let v := c.lowVector
    BitVec.ofNat 64 (v.isSome.toNat * 2 ^ 63 + c.ipi.toNat * 2 ^ 62 + c.doorbell.toNat * 2 ^ 61 +
      (c.htimer s.now).toNat * 2 ^ 60 + (c.timer s.now).toNat * 2 ^ 59 + v.getD 0)
  else if n = 0x97 then 0
  else if n = 0x100 then if swEm c.sw then c.reg n ||| 0x400 else 0
  else c.reg n

/-- A core that a raw IPI can reach: it exists and is neither off nor fenced (R313). -/
def State.ipiReaches (s : State) (g : Nat) : Bool :=
  decide (g < 576) && s.coreEnabled g && !s.unitFenced g && (s.dom g).st != .off && !(s.dom g).inReset

/-- A raw IPI sets the latch of its core, or is dropped and counted (R313). A retained core is woken for it. -/
def State.rawIpi (s : State) (g : Nat) : State :=
  if s.ipiReaches g then
    let s := s.modCore g fun c => { c with ipi := true }
    if (s.dom g).st == .retained then s.doorWake g else s
  else { s with router := { s.router with discarded := s.router.discarded + 1 } }

/-- MTSR's write, once every check has passed. -/
def State.mtsrWrite (s : State) (g n : Nat) (v : Word) (d : Nat) : State :=
  let c := s.core g
  if n = 3 then { s with resetEntry := tput s.resetEntry g v }
  else if 0x84 ≤ n ∧ n ≤ 0x8B then s.srWrite g n (c.reg n &&& ~~~ v) d
  else if n = 0xE1 then
    (s.setCore g { c with ovf := c.ovf &&& ~~~ (v.setWidth 16) }).srWrite g n (c.reg n &&& ~~~ v) d
  else if n = 0x97 then
    if bit v 63 then s.rawIpi (fld v 0 10) else s.send (.routerMessage c.tid (BitVec.ofNat 9 (fld v 16 9)))
  else if n = 0xE0 then
    let s := if bit v 1 then
        s.setCore g { ((List.range 16).foldl (fun c i => c.setReg (0xC0 + i) 0) c).setReg 0xE1 0 with ovf := 0 }
      else s
    s.srWrite g n (v &&& srMask n) d
  else if n = 0x140 then s.srWrite g n ((v &&& srMask n) ||| (c.reg n &&& 0x10)) d
  else if n = 0x142 then
    s.srWrite g n (BitVec.ofNat 64 ((seedOf (v.setWidth 16)).toNat + 2 ^ 16 * (seedOf ((v >>> 16).setWidth 16)).toNat)) d
  else if n = 0x143 then s.srWrite g n ((seedOf (v.setWidth 16)).setWidth 64) d
  else if n = 0x188 then
    let v := v &&& srMask n
    s.srWrite g n (if fld v 12 2 == 3 then setFld v 12 2 0 else v) d
  else if n = srTid ∨ n = 0x70 then ((s.srWrite g n (v &&& srMask n) d).modCore g fun c => c.contextSwitch).hazeFlush g
  else s.srWrite g n (v &&& srMask n) d

end Sys2Proof.Machine
end

