-- ==== Sys2Proof/Machine/Contrail.lean ====
section
/-! DEFINITION. Contrail frames and the send log (R403, R404), the release of held frames (R405, R406), the state records
and contexts, violations and the end of a pairing (R407, R409). -/

namespace Sys2Proof.Machine

def mirrorSrc : BitVec 16 := srcCode 0 0 0x16
def mirrorBlock : Nat := hubBlock 0x3000000
def mirrorUnit : Nat := 0x16

def State.modMirror (s : State) (f : Mirror → Mirror) : State := { s with mirror := f s.mirror }
def State.slot (s : State) (m : Nat) : Slot := tget s.mirror.slots m Slot.initial
def State.setSlot (s : State) (m : Nat) (x : Slot) : State := s.modMirror fun g => { g with slots := tput g.slots m x }

/-- The slot of a tenant, unless it is FREE. -/
def State.slotOf (s : State) (t : BitVec 12) : Option (Nat × Slot) := s.usedSlots.find? fun e => e.2.tid == t

/-- The ports of the mirror role, in order (Table 13-1). -/
def State.mirrorPorts (s : State) : List Nat := (List.range 8).filter fun p => s.portRole p == 2

/-- A mirror port whose link carries frames. -/
def State.mirrorLink (s : State) (p : Nat) : Bool := s.portRole p == 2 && s.linkRuns p 0

/-! ### Frames out (Table 15-4) -/

/-- A Contrail frame, without its FCS. -/
def State.contrailFrame (s : State) (p dst ty : Nat) (tid : BitVec 12) (epoch seq : Nat) (pay : List Byte) : List Byte :=
  let m := s.mirror
  let hdr := [1, BitVec.ofNat 8 ty] ++ leBytes 2 pay.length ++ toBytes (m.did.setWidth 16) 2 ++
    toBytes (m.partner.setWidth 16) 2 ++ toBytes m.gen 2 ++ toBytes (tid.setWidth 16) 2 ++ leBytes 4 epoch ++ leBytes 8 seq ++
    [0, 0, 0, 0]
  padFrame (beBytes 6 dst ++ beBytes 6 (s.macOf p 0) ++ [0x88, 0xB5] ++ hdr ++ toBytes (crcFrame (hdr ++ pay)) 4 ++ pay)

/-- A frame leaves a mirror port whose link is up. -/
def State.mirrorOut (s : State) (p : Nat) (b : List Byte) : State :=
  if s.linkRuns p 0 then
    { s.portCount p fun x => { x with tx := x.tx + 1 } with out := s.out ++ [.frame p 0 b] }
  else s

/-- A frame without a number leaves every mirror port: HELLO to the broadcast address, HEARTBEAT to the partner. -/
def State.cPlain (s : State) (ty : Nat) (pay : List Byte) : State :=
  s.mirrorPorts.foldl (fun s p =>
    let dst := if ty == 1 then some (2 ^ 48 - 1) else (tfind? s.mirror.mac p).map (·.toNat)
    match dst with
    | some d => s.mirrorOut p (s.contrailFrame p d ty 0 0 0 pay)
    | none => s) s

/-! ### The send log (R404) -/

def ceil64 (n : Nat) : Nat := (n + 63) / 64 * 64

/-- Bytes of the send log in use. -/
def Mirror.logUsed (m : Mirror) : Nat := m.log.foldl (fun a e => if e.2.1 == 0 then a else a + ceil64 e.2.2.2.length) 0

/-- A record of `n` bytes fits the send log. -/
def State.logRoom (s : State) (n : Nat) : Bool := decide (s.mirror.logUsed + ceil64 n ≤ s.mirror.logLen.toNat)

/-- Write a record into the send log as a node, and keep it until its epoch is acknowledged. Answers the write ids. -/
def State.logPut (s : State) (node : Nat) (tid : BitVec 12) (epoch seq : Nat) (b : List Byte) : List (Nat × Nat) × State :=
  let n := ceil64 b.length
  let start := if s.mirror.logNext + n ≤ s.mirror.logLen.toNat then s.mirror.logNext else 0
  let s := s.modMirror fun g => { g with logNext := start + n, log := g.log ++ [(seq, epoch, tid, b)] }
  s.engineWrite node tid (s.tenantCls tid) (s.logBase + start) (b ++ List.replicate (n - b.length) 0)

/-- Frames of no epoch are kept as long as 256 newer ones do not follow. -/
def trimLog (l : List (Nat × Nat × BitVec 12 × List Byte)) : List (Nat × Nat × BitVec 12 × List Byte) :=
  let extra := (l.filter fun e => e.2.1 == 0).length - 256
  (l.foldl (fun (a : Nat × List (Nat × Nat × BitVec 12 × List Byte)) e =>
    if e.2.1 == 0 && a.1 > 0 then (a.1 - 1, a.2) else (a.1, a.2 ++ [e])) (extra, [])).2

/-- Contrail payload bytes of a tenant are counted (MT_BYTES). -/
def State.countContrail (s : State) (t : BitVec 12) (n : Nat) : State :=
  match s.slotOf t with
  | some (m, x) => s.setSlot m { x with bytes := x.bytes + BitVec.ofNat 64 n }
  | none => s

/-- Send a numbered frame to the partner; `keep` for a frame of the epoch, which stays in the log until its ACK. -/
def State.cSend (s : State) (ty : Nat) (tid : BitVec 12) (epoch : Nat) (keep : Bool) (pay : List Byte) : State :=
  let m := s.mirror
  if m.st != 2 || m.left then s
  else
    let ps := s.mirrorPorts.filter fun p => (tfind? m.mac p).isSome
    let p := ps.getD (m.turn % max 1 ps.length) 0
    let b := s.contrailFrame p (tget m.mac p 0).toNat ty tid epoch m.seq pay
    let s := s.modMirror fun g => { g with seq := g.seq + 1, turn := (g.turn + 1) % 2 }
    let s := if keep then (s.logPut mirrorNode tid epoch m.seq b).2
      else s.modMirror fun g => { g with log := trimLog (g.log ++ [(m.seq, 0, tid, b)]) }
    (s.countContrail tid pay.length).mirrorOut p b

/-- The log lets go of the epochs of a tenant up to one. -/
def State.logFree (s : State) (t : BitVec 12) (epoch : Nat) : State :=
  s.modMirror fun g => { g with log := g.log.filter fun e => !(e.2.2.1 == t && e.2.1 != 0 && decide (e.2.1 ≤ epoch)) }

/-! ### State records and contexts (Table 15-6, R398) -/

/-- The state record of a core. -/
def Core.record (c : Core) (g : Nat) : List Byte :=
  let w (n : Nat) : List Byte := toBytes (c.reg n) 8
  [1, if c.before == .wfi then 1 else 0] ++ leBytes 2 g ++ [0, 0, 0, 0] ++ toBytes c.a 8 ++ toBytes c.x 8 ++ toBytes c.y 8 ++
    toBytes c.l 8 ++ toBytes c.p 8 ++ toBytes c.f 8 ++ toBytes c.sw 8 ++ toBytes c.va 32 ++
    ([4, 5, 6, 7, 8, 9, 0x70, 0x71, 0x95].map w).flatten ++ ((List.range 16).map fun i => w (0x84 + i)).flatten ++
    List.replicate 216 0

def Desc.bytes (d : Desc) : List Byte :=
  [BitVec.ofNat 8 d.op, d.flags] ++ leBytes 2 d.mss ++ leBytes 4 d.len ++ toBytes d.addr 8 ++ toBytes d.cookie 8 ++
    toBytes d.raddr 8 ++ toBytes d.rkey 4 ++ toBytes d.imm 4 ++ leBytes 1 d.l3 ++ leBytes 1 d.l4 ++ toBytes d.vlan 2 ++
    List.replicate 20 0

/-- The create record of a queue pair (Table 13-4), 192 bytes. -/
def Qp.createBytes (q : Qp) : List Byte :=
  let six (b : List Byte) (n : Nat) : List Byte := (b ++ List.replicate n 0).take n
  leBytes 1 q.isRc.toNat ++ leBytes 1 (q.port + 8 * q.link) ++ toBytes (q.tid.setWidth 16) 2 ++
    toBytes (q.vector.setWidth 16) 2 ++ leBytes 1 (q.rxTs.toNat + 2 * q.rxCsum.toNat) ++ [0] ++ leBytes 8 q.sq ++ leBytes 8 q.rq ++
    leBytes 8 q.cq ++ leBytes 1 q.sqLog ++ leBytes 1 q.rqLog ++ leBytes 1 q.cqLog ++ leBytes 1 q.violLimit ++
    toBytes (q.destQpn.setWidth 32) 4 ++ [0, 0, 0, 0] ++ leBytes 1 q.ackTimeout ++ leBytes 1 q.retry ++ toBytes q.vlan 2 ++
    six q.peerIp 16 ++ six q.localIp 16 ++ six q.peerMac 6 ++ List.replicate 10 0 ++
    (((List.range 4).map fun i =>
      let w := q.windows.getD i (0, 0, 0)
      toBytes w.1 8 ++ toBytes w.2.1 8 ++ toBytes w.2.2 8).flatten)

/-- The send queue as the survivor takes it up: at the oldest descriptor the peer has not acknowledged, with the PSN of
its first packet. -/
def Qp.resumeAt (q : Qp) : Nat × BitVec 24 :=
  match q.rc with
  | none => (q.sHead, 0)
  | some rc =>
    match rc.unacked.findSome? fun u => u.done.map fun d => (u.psn, d) with
    | some (p, i, d) =>
      (i, if d.op == 5 then p else p - BitVec.ofNat 24 (max 1 ((d.len + 4095) / 4096) - 1))
    | none => (q.sHead, rc.psn)

/-- The context of a queue pair, 512 bytes (its layout is a DESIGN CHOICE, notes/assumptions/25.md). -/
def Qp.context (q : Qp) (n : Nat) : List Byte :=
  let (head, psn) := q.resumeAt
  let inb := q.rc.bind (·.inbound)
  let b := [3, 0] ++ leBytes 2 n ++ [0, 0, 0, 0] ++ q.createBytes ++ leBytes 2 head ++ leBytes 2 q.sTail ++ leBytes 2 q.rHead ++
    leBytes 2 q.rTail ++ leBytes 4 q.prod ++ leBytes 2 q.cHead ++ leBytes 1 q.sSt ++ leBytes 1 q.rSt ++
    leBytes 1 q.cqHalt.toNat ++ [0, 0, 0] ++ toBytes (psn.setWidth 32) 4 ++
    (match q.rc with
     | some r => toBytes (r.expect.setWidth 32) 4 ++ toBytes (r.msn.setWidth 32) 4 ++ leBytes 4 r.rate ++ leBytes 4 r.viols
     | none => List.replicate 16 0) ++
    (match inb with
     | some i => [1, if i.write then 1 else 0] ++ leBytes 1 i.window ++ leBytes 1 i.desc.isSome.toNat ++ leBytes 4 i.taken ++
         toBytes i.addr 8 ++ leBytes 4 i.left ++
         (match i.desc with
          | some (k, d) => leBytes 4 k ++ d.bytes
          | none => List.replicate 68 0)
     | none => List.replicate 88 0)
  b ++ List.replicate (512 - b.length) 0

/-- The queue pair that a context describes. -/
def qpOfContext (b : List Byte) : Nat × Qp :=
  let q := qpOf (b.drop 8)
  let o := b.drop 200
  let inb : Option RcIn :=
    if leAt o 40 1 == 0 then none
    else some { write := leAt o 41 1 == 1, window := leAt o 42 1, taken := leAt o 44 4, addr := BitVec.ofNat 64 (leAt o 48 8),
                left := leAt o 56 4,
                desc := if leAt o 43 1 == 0 then none else some (leAt o 60 4, descOf ((o.drop 64).take 64)) }
  (leAt b 2 2,
    { q with sHead := leAt o 0 2, sTail := leAt o 2 2, rHead := leAt o 4 2, rTail := leAt o 6 2, prod := leAt o 8 4,
             cHead := leAt o 12 2, sSt := leAt o 14 1, rSt := leAt o 15 1, cqHalt := leAt o 16 1 == 1,
             rc := q.rc.map fun (r : Rc) => { r with
               psn := BitVec.ofNat 24 (leAt o 20 4), expect := BitVec.ofNat 24 (leAt o 24 4),
               msn := BitVec.ofNat 24 (leAt o 28 4), rate := leAt o 32 4, viols := leAt o 36 4, inbound := inb } })

/-- The router record (Table 18-1). -/
def routerRecord (t : BitVec 12) (posted : List Nat) : List Byte :=
  [2, 0] ++ toBytes (t.setWidth 16) 2 ++ [0, 0, 0, 0] ++
    ((List.range 64).map fun k =>
      BitVec.ofNat 8 ((List.range 8).foldl (fun a i => if posted.contains (8 * k + i) then a + 2 ^ i else a) 0)) ++
    List.replicate 440 0

/-! ### Held frames (R405, R406) -/

/-- A held frame is handed to its port. -/
def State.handFrame (s : State) (t : BitVec 12) (h : Held) : State :=
  let x := s.port h.port
  s.setPort h.port { x with txq := x.txq ++ [⟨none, h.link, s.tenantCls t, h.bytes, false, false⟩] }

/-- Every held frame of a slot is released without a grant. -/
def State.freeHeld (s : State) (m : Nat) : State :=
  let x := s.slot m
  let s := (x.held.filter fun h => h.st < 3).foldl (fun s h => s.handFrame x.tid h) s
  s.setSlot m { s.slot m with held := [] }

/-- The OUTPUT frames of a held frame (Table 15-5). -/
def Held.outputs (h : Held) : List (List Byte) :=
  let head (part : Nat) : List Byte := leBytes 8 h.num ++ leBytes 1 (h.port + 8 * h.link) ++ leBytes 1 part ++ List.replicate 6 0
  if h.bytes.length ≤ 8192 then [head 0 ++ h.bytes]
  else [head 1 ++ h.bytes.take 8192, head 2 ++ h.bytes.drop 8192]

/-- Held copies of the epoch open for transfer are sent as OUTPUT, as the log permits. -/
def State.sendOutputs (s : State) (m : Nat) : State :=
  let x := s.slot m
  (x.held.filter fun h => h.st == 0 && h.epoch == x.ended + 1).foldl (fun s h =>
    let os := h.outputs
    let s := os.foldl (fun s o => s.cSend 0x22 x.tid h.epoch true o) s
    let y := s.slot m
    s.setSlot m { y with
      nOut := y.nOut + os.length,
      held := y.held.map fun k => if k.num == h.num then { k with st := 1 } else k }) s

/-- The next batch of held frames of committed epochs is announced, unless one is under way. -/
def State.sendIntent (s : State) (m : Nat) : State :=
  let x := s.slot m
  if x.held.any (fun h => 2 ≤ h.st) || s.mirror.leaving.isSome || s.mirror.st != 2 then s
  else
    let b := (x.held.filter fun h => h.epoch ≤ x.acked).take 16
    match b.head? with
    | none => s
    | some h =>
      let s := s.cSend 0x25 x.tid x.acked false (leBytes 8 h.num ++ leBytes 1 b.length)
      let y := s.slot m
      s.setSlot m { y with held := y.held.map fun k => if b.any (fun e => e.num == k.num) then { k with st := 2 } else k }

/-- The member has left the pair once nothing it waits for is open (R461). -/
def State.leaveCheck (s : State) : State :=
  if s.mirror.leaving.isSome && !s.mirror.left &&
      (s.mirror.st != 2 || !s.usedSlots.any fun e =>
        e.2.active && (e.2.acked != e.2.ended || e.2.held.any fun h => 2 ≤ h.st)) then
    (s.modMirror fun g => { g with left := true }).send (.seqTableRequest purposeFullReset 0)
  else s

/-! ### The end of a pause -/

/-- A notice of the running pause of a tenant. -/
def pauseNote (t : BitVec 12) : Instr → Bool
  | .pauseNoticeCore _ u => u == t
  | .pauseNoticeEngine _ u => u == t
  | .routerPauseNotice u => u == t
  | .routerRecordRequest u => u == t
  | .pausedNotice _ u => u == t
  | .sealNotice _ u => u == t
  | .sealedNotice _ u => u == t
  | _ => false

def Core.unpause (t : BitVec 12) (c : Core) : Core := if c.run == .paused && c.tid == t then { c with run := c.before } else c
def Qp.unpause (t : BitVec 12) (q : Qp) : Qp := if q.tid == t then { q with paused := false } else q
def Stream.unpause (t : BitVec 12) (x : Stream) : Stream := if x.tid == t then { x with paused := false } else x
def Lane.unpause (t : BitVec 12) (x : Lane) : Lane := { x with paused := x.paused.filter (· != t) }
def Dom.dropNotes (t : BitVec 12) (d : Dom) : Dom := { d with held := d.held.filter fun i => !pauseNote t i }

/-- Frames that waited in receive buffers for a queue pair of a tenant go on. -/
def State.replayFrames (s : State) (t : BitVec 12) : State :=
  (List.range 8).foldl (fun s p =>
    let x := s.port p
    let mine (f : Nat × List Byte × Nat) : Bool := (s.qp? f.1).any fun q => q.tid == t
    let s := s.setPort p { x with rxWait := x.rxWait.filter fun f => !mine f }
    (x.rxWait.filter mine).foldl (fun s f =>
      match s.qp? f.1 with
      | some q => if q.isRc then s.rcReceive f.1 q f.2.1 f.2.2 else s.rawReceive f.1 q f.2.1 f.2.2
      | none => s) s) s

/-- The cores, engines and doors under a pause of a tenant run on (R397, R453, R455, R456). -/
def State.endPause (s : State) (m : Nat) : State :=
  let x := s.slot m
  let t := x.tid
  let s := { s with
    inflight := s.inflight.filter (fun i => !pauseNote t i),
    junction := s.junction.filter (fun j => !pauseNote t j.msg),
    cores := tmap (Core.unpause t) s.cores,
    qps := tmap (Qp.unpause t) s.qps,
    power := { s.power with doms := tmap (Dom.dropNotes t) s.power.doms },
    guest := { s.guest with streams := tmap (Stream.unpause t) s.guest.streams },
    lanes := tmap (Lane.unpause t) s.lanes }
  let s := s.setSlot m { s.slot m with phase := .none, pausedUnits := [], woken := [] }
  let s := s.routerResume t
  let s := (s.lanes.filter fun e => e.2.held && e.2.job.any fun j => j.tid == t).foldl (fun s e =>
    match e.2.job with
    | some j => (s.setLane e.1 { e.2 with held := false }).laneStart e.1 j
    | none => s) s
  let s := ((s.qps.filter fun e => e.2.tid == t).map (·.1)).foldl (fun s n => (s.kickSend n).kickRecv n) s
  let s := s.replayFrames t
  let s := ((s.guest.streams.filter fun e => e.2.tid == t).map (·.1)).foldl
    (fun s n => s.guestServe (s.guest.waiting.length + 1) n) s
  let s := x.woken.foldl (fun s d =>
    let stays := d < 576 && ((s.core d).takes s.now (s.core d).sw).isSome
    if (s.dom d).st == .run && !stays && (s.dom d).req == 0 then s.beginClose d true else s) s
  ((s.power.doms.filter fun e => e.2.st == .run && e.2.req != 0).map (·.1)).foldl (fun s d =>
    if s.underPause d then s else s.pendingReq d) s

/-- Requests that homes held for the capture of a tenant's lines go on. -/
def State.kickRanges (s : State) (rs : List (Nat × Nat × Nat)) : State :=
  ((s.hier.queues.map (·.1)).filter fun l => rs.any fun r => r.1 ≤ 64 * l && 64 * l < r.1 + r.2.1).foldl
    (fun s l => s.kick l) s

/-- The drained notice that a quiesce awaits of the mirror engine (R458, R459). -/
def State.mirrorDrained (s : State) (t : BitVec 12) : State :=
  if s.router.quiesce.any (fun q => q.tid == t && q.owing.contains mirrorUnit && q.phase == 1) &&
      !s.inflight.contains (.drainedNotice mirrorUnit t 0) then s.send (.drainedNotice mirrorUnit t 0)
  else s

/-- A slot leaves SYNCING or PROTECTED, or is freed: its boundary, capture and throttle end (R465). -/
def State.leaveSlot (s : State) (m : Nat) (st : SlotSt) : State :=
  let x := s.slot m
  let s := if x.phase == .none then s else s.endPause m
  let y := s.slot m
  let s := s.setSlot m { y with
    st := st, level := 0, phase := .none, capture := none, sealed := [], batch := [], records := [] }
  let s := (s.logFree x.tid (2 ^ 32)).kickRanges x.ranges
  if x.stopped then s.mirrorDrained x.tid else s

/-- A stream halts (R400): DROP, release, and the fault. -/
def State.haltSlot (s : State) (m pa : Nat) : State :=
  let x := s.slot m
  let s := s.cSend 0x12 x.tid 0 false []
  ((s.freeHeld m).leaveSlot m .halted).fault mirrorSrc 0x42 (some x.tid) pa

/-! ### The end of a pairing -/

/-- A standby slot's copy is discarded. -/
def Slot.discard (x : Slot) : Slot :=
  { x with stage := [], held := [], endAt := none, nState := 0, nLines := 0, nOut := 0, staged := 0 }

/-- The survivor takes a tenant over once the last committed epoch is applied (R407). -/
def State.takeOver (s : State) (m : Nat) : State :=
  let x := s.slot m
  let s := (x.held.filter fun h => h.st < 3 && h.epoch ≤ x.ended).foldl (fun s h => s.handFrame x.tid h) s
  let s := s.setSlot m { x.discard with st := .unguarded, active := true, taking := false, level := 0, capture := none }
  let s := x.contexts.foldl (fun s b =>
    let (n, q) := qpOfContext b
    (s.setQp n q)) s
  let s := x.contexts.foldl (fun s b => let n := leAt b 2 2; (s.kickSend n).kickRecv n) s
  let s := s.sendEvent 3 (toBytes (x.tid.setWidth 16) 2 ++ leBytes 1 m ++ List.replicate 5 0)
  s.fault mirrorSrc 0x60 (some x.tid) s.mirror.partner.toNat

/-- BREAK, or the end of a pairing by a new one: active slots run on unmirrored, standby slots are BROKEN (R409). -/
def State.breakSlots (s : State) (kind : Nat) : State :=
  let s := s.modMirror fun g => { g with st := 3, byLoss := false, ahead := [], gapSince := none }
  let s := s.usedSlots.foldl (fun s e =>
    if e.2.active then (s.freeHeld e.1).leaveSlot e.1 .unguarded
    else s.setSlot e.1 { e.2.discard with st := .broken }) s
  (s.fault mirrorSrc 0x61 none kind).leaveCheck

/-- The member breaks the pairing: BREAK three times on each port. -/
def State.breakPair (s : State) (kind : Nat) : State :=
  let one (s : State) : State :=
    s.mirrorPorts.foldl (fun s p =>
      match tfind? s.mirror.mac p with
      | some d =>
        let n := s.mirror.seq
        (s.modMirror fun g => { g with seq := g.seq + 1 }).mirrorOut p
          (s.contrailFrame p d.toNat 0x3F 0 0 n [BitVec.ofNat 8 kind])
      | none => s) s
  let s := if s.mirror.st == 2 && !s.mirror.left then one (one (one s)) else s
  s.breakSlots kind

/-- R422: a FULL_RESET or FAILOVER request aborts an ABORTABLE entry to Hold or Off. -/
def State.abortEntry (s : State) : State :=
  if s.runningPurpose == purposeHold || s.runningPurpose == purposeOff then s.seqAbort else s

/-- Partner loss (R407): FAILOVER is asked for where a standby slot takes over. -/
def State.losePartner (s : State) : State :=
  let s := s.modMirror fun g => { g with st := 3, byLoss := true, ahead := [], gapSince := none }
  let s := s.fault mirrorSrc 0x60 none s.mirror.partner.toNat
  let s := if s.usedSlots.any fun e => e.2.st == .standby then s.abortEntry.seqAsk ⟨purposeFailover, 0, 0⟩ |>.2 else s
  s.usedSlots.foldl (fun s e =>
    let x := e.2
    if x.st == .standby then
      let s := s.setSlot e.1 { x with
        taking := true, endAt := none, nState := 0, nLines := 0, nOut := 0, staged := 0,
        stage := x.stage.filter (fun p => p.1 ≤ x.ended), held := x.held.filter fun h => h.epoch ≤ x.ended }
      if x.applied == x.ended then s.takeOver e.1 else s
    else if x.active then (s.freeHeld e.1).leaveSlot e.1 .unguarded
    else s) s |>.leaveCheck

/-- A violation of the partner (R409): counted; logged and answered with NAK unless its CHECK or FCS was wrong. -/
def State.cViolation (s : State) (kind : Nat) (f : CFrame) : State :=
  let ts := (s.mirror.viols.filter fun t => s.now < t + 1000000) ++ [s.now]
  let pv := if kind == 0x40 then { s.mirror.pv with total := satInc 32 s.mirror.pv.total }
    else s.mirror.pv.note s.now kind (f.tid.toNat % 4096) f.seq.toNat
  let s := s.modMirror fun g => { g with viols := ts, pv := pv }
  let s := if kind == 0x40 then s
    else s.cSend 0x30 (f.tid.setWidth 12) 0 false (leBytes 8 kind ++ toBytes f.seq 8)
  if ts.length > s.mirror.limit.toNat && s.mirror.st == 2 then s.breakPair kind else s

end Sys2Proof.Machine
end

