-- ==== Sys2Proof/Machine/Mirror.lean ====
section
/-! DEFINITION. The mirror engine (Chapter 15, R452–R468): commands, epochs, pauses, the standby's staging, failover. -/

namespace Sys2Proof.Machine

/-! ### Commands (R393, R394, R400, R410) -/

def codeNotNuma : Nat := 0x150
def codeMirrorRange : Nat := 0x151
def codeMtFull : Nat := 0x152
def codeTidMirrored : Nat := 0x153
def codePairState : Nat := 0x154
def codePartnerMismatch : Nat := 0x155

def State.mtEnd (s : State) (f : Chan → Chan) : State := s.modMirror fun g => { g with res := f g.res }
def State.mtFail (s : State) (code : Nat) : State := s.mtEnd fun c => c.fail code 0

/-- The slot that an ADD record describes. -/
def slotOfRecord (b : List Byte) : Slot :=
  let tid : BitVec 12 := BitVec.ofNat 12 (leAt b 0 2)
  let active := leAt b 2 1 == 0
  { Slot.initial with
    tid := tid, active := active, epochMs := leAt b 4 1, stageBase := leAt b 8 8,
    stageLen := if active then (Config.partnerStage tid).toNat else leAt b 16 8, stateBase := leAt b 24 8,
    ranges := (List.range (leAt b 3 1)).map fun r => (leAt b (64 + 24 * r) 8, leAt b (72 + 24 * r) 8, leAt b (80 + 24 * r) 8) }

/-- The rules of Table 15-2. -/
def addFields (b : List Byte) : Bool :=
  let act := leAt b 2 1 == 0
  let m (o n : Nat) : Bool := leAt b o 8 % n == 0
  leAt b 0 2 < 4096 && leAt b 2 1 ≤ 1 && 1 ≤ leAt b 3 1 && leAt b 3 1 ≤ 16 && 1 ≤ leAt b 4 1 && leAt b 4 1 ≤ 50 &&
    leAt b 5 3 == 0 && leAt b 32 32 == 0 &&
    (if act then leAt b 8 24 == 0 else m 8 (2 ^ 21) && m 16 (2 ^ 21) && 2 ^ 26 ≤ leAt b 16 8 && m 24 (2 ^ 20)) &&
    (List.range (leAt b 3 1)).all fun r =>
      m (64 + 24 * r) (2 ^ 21) && m (72 + 24 * r) (2 ^ 21) && leAt b (72 + 24 * r) 8 != 0 && m (80 + 24 * r) 64

/-- A stretch of memory lies in one quarter that is populated. -/
def State.inQuarter (s : State) (q : Nat) (a : Nat × Nat) : Bool :=
  decide (64 * q * quarterLines ≤ a.1) && decide (a.1 + a.2 ≤ 64 * (q + 1) * quarterLines) &&
    decide (a.1 + a.2 ≤ 64 * s.dramLines)

/-- RANGE_INVALID (R394). -/
def State.rangesBad (s : State) (x : Slot) : Bool :=
  let mine := (x.ranges.map fun r => [(r.1, r.2.1), (r.2.2, r.2.1 / 256)]).flatten
  let others := (if x.active then [] else [(x.stageBase, x.stageLen), (x.stateBase, 2 ^ 20)]) ++
    (s.usedSlots.map fun e => e.2.areas).flatten ++ [(s.logBase, s.mirror.logLen.toNat)] ++ s.allRanges
  x.ranges.any (fun r =>
      let q := r.1 / 64 / quarterLines
      !s.inQuarter q (r.1, r.2.1) || !s.inQuarter q (r.2.2, r.2.1 / 256)) ||
    !pairwiseApart mine || mine.any fun a => others.any fun o => o.2 != 0 && overlap a o

/-- The staging area of a standby record runs past the last address (R39). -/
def stagePastEnd (x : Slot) : Bool := !x.active && decide (2 ^ 52 < x.stageBase + x.stageLen)

/-- JOIN for a slot. -/
def State.sendJoin (s : State) (m : Nat) (add : Bool) : State :=
  let x := s.slot m
  let lens := (List.range 16).map fun r => leBytes 8 (x.ranges.getD r (0, 0, 0)).2.1
  let s := s.cSend 0x10 x.tid 0 false (leBytes 8 x.ranges.length ++ lens.flatten ++ leBytes 8 x.stageLen)
  s.modMirror fun g => { g with joining := some (m, s.now, add) }

/-- ADD with its record. -/
def State.mtAdd (s : State) (b : List Byte) : State :=
  let x := slotOfRecord b
  if !addFields b then s.mtFail codeFieldInvalid
  else if stagePastEnd x then s.mtFail codeLengthRange
  else if s.img secHome 0 1 0 != 0 then s.mtFail codeNotNuma
  else if s.rangesBad x then s.mtFail codeMirrorRange
  else
    match lowest (fun m => (s.slot m).st == .free) 128 with
    | none => s.mtFail codeMtFull
    | some m =>
      if (s.slotOf x.tid).isSome then s.mtFail codeTidMirrored
      else if s.mirror.st != 2 then s.mtFail codePairState
      else if x.active then (s.setSlot m x).sendJoin m true
      else (s.setSlot m { x with st := .standby, catchUp := true }).mtEnd fun c => c.done 0

/-- REMOVE of a slot (R410). -/
def State.removeSlot (s : State) (m : Nat) : State :=
  let x := s.slot m
  let s := if x.active then
      let s := s.cSend 0x12 x.tid 0 false []
      (s.freeHeld m).leaveSlot m .free
    else s
  s.setSlot m Slot.initial

/-- A write of MT_CMD: OP and ADDR are kept; GO starts the command unless one runs. ADD first reads its record with RdCur
(R249). -/
def State.mtCmd (s : State) (v : Word) : State :=
  let s := s.modMirror fun g => { g with cmd := v &&& 0x700FFFFFFFFFFFC0 }
  if !bit v 63 then s
  else if s.mirror.res.status == 1 then s.violate mirrorBlock
  else
    let s := s.mtEnd fun c => c.accept
    let tid : BitVec 12 := BitVec.ofNat 12 (fld v 6 12)
    match fld v 60 3 with
    | 1 => s.startRead mirrorNode 0 0 .mtRecord (chunksOf (fld v 6 46 * 64) 448)
    | 2 =>
      match s.slotOf tid with
      | some (m, _) => (s.removeSlot m).mtEnd fun c => c.done 0
      | none => s.mtFail codeFieldInvalid
    | 3 =>
      match s.slotOf tid with
      | some (m, x) =>
        if x.active && (x.st == .halted || x.st == .unguarded) && s.mirror.st == 2 then s.sendJoin m false
        else s.mtFail codePairState
      | none => s.mtFail codePairState
    | _ => s.mtFail codeFieldInvalid

def mirrorDomain : Nat := 710
def State.mirrorRuns (s : State) : Bool := s.runs mirrorDomain

/-- The command of a row: its own OP with GO set. -/
def State.mtRow (s : State) (op : Nat) (v : Word) : State :=
  if s.mirrorRuns && bit v 63 && fld v 60 3 == op then
    (s.reserved mirrorBlock (maskBits 63 60 ||| maskBits 51 6) v).mtCmd v
  else s

/-- MT_ADD (R394). -/
def execMtAdd (v : Word) (s : State) : Out := .next (s.mtRow 1 v)
/-- MT_REMOVE (R410). -/
def execMtRemove (v : Word) (s : State) : Out := .next (s.mtRow 2 v)
/-- MT_REARM (R400). -/
def execMtRearm (v : Word) (s : State) : Out := .next (s.mtRow 3 v)

/-- The JOIN of an ADD or REARM was refused or not answered. -/
def State.joinFailed (s : State) : State :=
  match s.mirror.joining with
  | none => s
  | some (m, _, add) =>
    let s := if add then s.setSlot m Slot.initial else s
    (s.modMirror fun g => { g with joining := none }).mtFail codePartnerMismatch

/-- JOIN_TIMEOUT (R394): nothing came within 10 ms. -/
def execJoinTimeout (s : State) : Out :=
  .next (if s.mirrorRuns && s.mirror.joining.any (fun j => j.2.1 + 10000000 ≤ s.now) then s.joinFailed else s)

/-! ### Boundaries (R396, R397, R452–R459) -/

/-- The volume of the open epoch (R396). -/
def Slot.size (x : Slot) : Nat := 128 * x.marked + x.heldBytes + 65536

/-- A boundary of the slot may begin: its epoch before is committed and nothing of it is under way. -/
def State.mayBound (s : State) (m : Nat) : Bool :=
  let x := s.slot m
  x.active && (x.st == .syncing || x.st == .guarded) && s.mirror.st == 2 && s.mirror.leaving.isNone &&
    x.capture.isNone && x.acked + 1 == x.epoch && (!x.stopped || x.final != 0)

/-- The units that take pause notices from the mirror engine. -/
def pauseUnits : List Nat := (List.range 14).map (8 + ·) ++ [0x17]

/-- PAUSE begins. -/
def State.startBoundary (s : State) (m : Nat) : State :=
  let x := s.slot m
  let s := s.setSlot m { x with
    phase := .pause (2048 :: pauseUnits.map (1024 + ·)) s.now, since := s.now, pausedUnits := [], woken := [], records := [],
    final := if x.final == 1 then 2 else x.final }
  s.sendAll (.routerPauseNotice x.tid :: pauseUnits.map fun u => .pauseNoticeEngine u x.tid)

/-- The final boundary of a quiesce begins as soon as it may, and its end is the drained notice (R459). -/
def State.finalStep (s : State) (m : Nat) : State :=
  let x := s.slot m
  if x.final == 1 && x.phase == .none && s.mayBound m then s.startBoundary m
  else if x.final == 2 && x.phase == .none && x.capture.isNone && x.ended + 1 == x.epoch && x.acked == x.ended &&
      x.held.isEmpty then s.mirrorDrained x.tid
  else s

/-- EPOCH_BOUNDARY_START (R396): by time or volume, or as the final boundary. -/
def execEpochBoundaryStart (m : Nat) (s : State) : Out :=
  onWf (slotOk m)
    (let x := s.slot m
     let due := x.since + x.epochMs * 1000000 ≤ s.now || x.stageLen ≤ 2 * x.size || x.final != 0
     if s.mirrorRuns && x.phase == .none && s.mayBound m && due && x.final != 2 then s.startBoundary m else s)

/-- ROUTER_PAUSE_NOTICE (R452): the router holds the tenant's messages and tells the cores that it shows resident. -/
def execRouterPauseNotice (tid : BitVec 12) (s : State) : Out :=
  onArrival true (.routerPauseNotice tid) s fun s =>
    match s.slotOf tid with
    | some (m, x) =>
      match x.phase with
      | .pause owing since =>
        let cs := (List.range 576).filter fun c => s.coreEnabled c && s.residentOf c == tid
        let s := { s with router := { s.router with paused := s.router.paused.filter (· != tid) ++ [tid] } }
        let s := s.setSlot m { x with phase := .pause (owing.filter (· != 2048) ++ cs) since }
        s.sendAll (cs.map fun c => .pauseNoticeCore c tid)
      | _ => s
    | none => s

/-- The slot whose pause is under way. -/
def State.pausing (s : State) (t : BitVec 12) : Option (Nat × Slot) :=
  (s.slotOf t).bind fun e => match e.2.phase with
    | .pause _ _ => some e
    | _ => none

/-- A door wakes its unit for a pause; the domain closes again afterwards. -/
def State.pauseWake (s : State) (m d : Nat) (note : Instr) : State :=
  let s := if (s.dom d).st == .retained then
      let x := s.slot m
      (s.setSlot m { x with woken := insertNew x.woken d }).doorWake d
    else s
  s.holdAt d note

/-- A message interrupt of a tenant is on its way to the router, which has not acknowledged it yet (R453). -/
def State.msgUnderWay (s : State) (t : BitVec 12) : Bool :=
  s.inflight.any fun i => match i with
    | .routerMessage u _ => u == t
    | _ => false

/-- A running core takes its pause notice (R397, R453). -/
def State.pauseCore (s : State) (m c : Nat) (t : BitVec 12) : State :=
  let x := s.core c
  let note : Instr := .pauseNoticeCore c t
  if x.run == .off || x.run == .reset || x.run == .waitSection || x.tid != t then s.send (.pausedNotice c t)
  else if x.run != .paused && (2 ≤ swPl x.sw || swEm x.sw || x.stall != .none) then s.send note
  else
    let s := if x.run == .paused then s else s.setCore c { x with before := x.run, run := .paused }
    let s := s.drain c
    if !(s.core c).sb.isEmpty || s.msgUnderWay t || !s.logRoom 512 then s.send note
    else
      let b := (s.core c).record c
      let y := s.slot m
      let s := s.setSlot m { y with records := y.records ++ [b] }
      let (ids, s) := s.logPut c t y.epoch 0 b
      s.hold c ids (.pausedNotice c t)

/-- PAUSE_NOTICE_CORE (R397, R455). -/
def execPauseNoticeCore (c : Nat) (tid : BitVec 12) (s : State) : Out :=
  onArrival (coreOk c) (.pauseNoticeCore c tid) s fun s =>
    let note : Instr := .pauseNoticeCore c tid
    match s.pausing tid with
    | none => s
    | some (m, _) =>
      let d := s.dom c
      let u := s.dom (uncoreDomain (c / 48))
      if s.unitFenced c || !s.coreEnabled c || d.st == .off || u.st == .off then s.send (.pausedNotice c tid)
      else if d.st == .closing then s.send note
      else if d.st == .run && u.st == .run then s.pauseCore m c tid
      else s.pauseWake m c note

/-- A unit still has started work of a tenant. -/
def State.tenantWork (s : State) (u : Nat) (t : BitVec 12) : Bool :=
  let d := unitDomain u
  let n := hubNode d
  s.readers.any (fun r => r.node == n && r.tid == t) || s.writers.any (fun w => w.node == n && w.tid == t) ||
    (if u < 0x10 then (s.port (u - 8)).txq.any fun f => f.qpn.any fun n => (s.qp? n).any fun q => q.tid == t
     else if u < 0x12 then s.qps.any fun e => e.1 / 32768 == u - 0x10 && e.2.tid == t &&
       (e.2.work.any (fun w => !w.handed) || e.2.rc.any fun r => r.reading.isSome)
     else if u < 0x16 then (s.lane (u - 0x12)).busy && !(s.lane (u - 0x12)).held &&
       (s.lane (u - 0x12)).job.any fun j => j.tid == t
     else s.guest.open_.any fun o => (s.stream o.2).tid == t && !s.guest.waiting.any fun r => r.hdr.tag12 == o.1)

/-- An engine starts no new work of a paused tenant. -/
def State.pauseEngine (s : State) (u : Nat) (t : BitVec 12) : State :=
  if u < 0x12 then { s with qps := tmap (fun (q : Qp) => if q.tid == t then { q with paused := true } else q) s.qps }
  else if u < 0x16 then
    let l := s.lane (u - 0x12)
    s.setLane (u - 0x12) { l with paused := l.paused.filter (· != t) ++ [t] }
  else
    s.modGuest fun (g : Guest) => { g with
      streams := tmap (fun (x : Stream) => if x.tid == t then { x with paused := true } else x) g.streams }

/-- The contexts of a queue engine's queue pairs of a tenant go into the log. -/
def State.writeContexts (s : State) (m e : Nat) (t : BitVec 12) : List (Nat × Nat) × State :=
  (s.qps.filter fun q => q.1 / 32768 == e && q.2.tid == t).foldl (fun (a : List (Nat × Nat) × State) q =>
    let b := q.2.context q.1
    let y := a.2.slot m
    let s := a.2.setSlot m { y with records := y.records ++ [b] }
    let (ids, s) := s.logPut (engineNode e) t y.epoch 0 b
    (a.1 ++ ids, s)) ([], s)

/-- PAUSE_NOTICE_ENGINE (R398, R453, R455). -/
def execPauseNoticeEngine (u : Nat) (tid : BitVec 12) (s : State) : Out :=
  onArrival (unitOk u) (.pauseNoticeEngine u tid) s fun s =>
    let note : Instr := .pauseNoticeEngine u tid
    let done : Instr := .pausedNotice (1024 + u) tid
    match s.pausing tid with
    | none => s
    | some (m, _) =>
      let d := unitDomain u
      let x := s.dom d
      if s.isFenced d || !s.domEnabled d || x.st == .off then s.send done
      else if x.st == .closing then s.send note
      else if x.st != .run then s.pauseWake m d note
      else
        let s := s.pauseEngine u tid
        let busy := s.tenantWork u tid || s.msgUnderWay tid
        let n := if 0x10 ≤ u && u < 0x12 then (s.qps.filter fun q => q.1 / 32768 == u - 0x10 && q.2.tid == tid).length else 0
        if busy || !s.logRoom (512 * n) then s.send note
        else
          let (ids, s) := if n == 0 then ([], s) else s.writeContexts m (u - 0x10) tid
          s.hold (hubNode d) ids done

/-- SEAL begins. -/
def State.startSeal (s : State) (m : Nat) : State :=
  let x := s.slot m
  let bs := s.bases.filter fun n => !s.fc.lost.contains n
  (s.setSlot m { x with phase := .seal bs, walked := [] }).sendAll (bs.map fun n => .sealNotice n x.tid)

/-- PAUSED_NOTICE (R396, R453). -/
def execPausedNotice (u : Nat) (tid : BitVec 12) (s : State) : Out :=
  onArrival (pausedOk u) (.pausedNotice u tid) s fun s =>
    match s.slotOf tid with
    | none => s
    | some (m, x) =>
      match x.phase with
      | .pause owing since =>
        let owing := owing.filter (· != u)
        let s := s.setSlot m { x with
          phase := if owing.isEmpty then .record since else .pause owing since, pausedUnits := insertNew x.pausedUnits u }
        if owing.isEmpty then s.send (.routerRecordRequest tid) else s
      | .record _ => if u == 2048 then s.startSeal m else s
      | _ => s

/-- The router has read the posted-interrupt record of a tenant, nothing where the read failed: it writes the router record
into the send log and then sends its paused notice (R453 steps 3 and 4). -/
def State.routerRecorded (s : State) (tid : BitVec 12) (bytes : List Byte) : State :=
  match s.slotOf tid with
  | none => s
  | some (m, x) =>
    match x.phase with
    | .record _ =>
      let posted := (List.range 512).filter fun v => bytes.getD v 0 != 0
      let held := (s.router.held.filter fun h => h.1 == tid).map fun h => h.2.toNat
      let b := routerRecord tid (posted ++ held)
      let s := s.setSlot m { x with records := x.records ++ [b] }
      let (ids, s) := s.logPut routerNode tid x.epoch 0 b
      s.hold routerNode ids (.pausedNotice 2048 tid)
    | _ => s

/-- ROUTER_RECORD_REQUEST (R453): the record is read with RdCur once no post of the tenant is under way. -/
def execRouterRecordRequest (tid : BitVec 12) (s : State) : Out :=
  onArrival true (.routerRecordRequest tid) s fun s =>
    let note : Instr := .routerRecordRequest tid
    match s.slotOf tid with
    | none => s
    | some (m, x) =>
      match x.phase with
      | .record _ =>
        if s.router.posts.any (fun p => p.tid == tid) || !s.logRoom 512 then s.send note
        else if s.pitEn then
            s.startRead routerNode tid (s.tenantCls tid) (.routerRecord tid) (chunksOf (s.pitBase + 512 * tid.toNat) 512)
        else s.routerRecorded tid []
      | _ => s

/-- A directory entry names an owner or holder that a seal flushes. -/
def Dir.owned : Dir → Bool
  | .s _ => false
  | _ => true

/-- The lines of a slot's ranges on a base die that some core holds in M, E or O. -/
def State.sealLines (s : State) (x : Slot) (n : Nat) : List Nat :=
  (s.hier.dirs.filter fun e => e.2.2.owned && (s.locate e.2.1).any (fun p => p.base == n) &&
    x.ranges.any fun r => r.1 ≤ 64 * e.2.1 && 64 * e.2.1 < r.1 + r.2.1).map (·.2.1)

/-- The homes of a base die walk their directory: a flush of each line that some core owns goes to its home (R396). -/
def State.walkSeal (s : State) (m n : Nat) (x : Slot) : State :=
  let h : Hdr := ⟨mirrorNode, 256, 0, x.tid, s.tenantCls x.tid⟩
  (s.sealLines x n).foldl (fun s l => (s.enqueue n l (.of h false (some (.cflreq h l)) false none)).kick l)
    (s.setSlot m { x with walked := insertNew x.walked n })

/-- A flush of a seal waits or runs at the homes of a base die. -/
def State.sealing (s : State) (n : Nat) : Bool :=
  let here (l : Nat) : Bool := (s.locate l).any fun p => p.base == n
  (s.hier.txns.any fun e => isSeal e.2.req && here e.1) ||
    s.hier.queues.any fun e => here e.1 && e.2.any fun q => q.req.any isSeal

/-- SEAL_NOTICE (R396): the base die's homes flush the owned lines of the ranges; when every answer has been written, they
mark in the next map from then on. The notice comes again until then. -/
def execSealNotice (n : Nat) (tid : BitVec 12) (s : State) : Out :=
  onArrival (baseOk n) (.sealNotice n tid) s fun s =>
    match s.slotOf tid with
    | none => s
    | some (m, x) =>
      match x.phase with
      | .seal owing =>
        if !owing.contains n then s
        else
          let s := if x.walked.contains n then s else s.walkSeal m n x
          if s.sealing n then s.send (.sealNotice n tid)
          else
            let y := s.slot m
            (s.setSlot m { y with sealed := insertNew y.sealed n }).send (.sealedNotice n tid)
      | _ => s

/-- RESUME (R396, R402): the next epoch is open, and the epoch before it is captured. -/
def State.resumeTenant (s : State) (m : Nat) : State :=
  let x := s.slot m
  let good := x.st == .syncing && !x.full && 2 * x.size < x.stageLen
  let s := s.setSlot m { x with
    st := if good then .guarded else x.st, catchUp := x.catchUp && !good, capture := some (x.epoch, 0, 0),
    epoch := x.epoch + 1, marked := x.markedNext, markedNext := 0, heldBytes := 0, sealed := [] }
  s.endPause m

/-- SEALED_NOTICE (R396). -/
def execSealedNotice (n : Nat) (tid : BitVec 12) (s : State) : Out :=
  onArrival (baseOk n) (.sealedNotice n tid) s fun s =>
    match s.slotOf tid with
    | none => s
    | some (m, x) =>
      match x.phase with
      | .seal owing =>
        let owing := owing.filter (· != n)
        let s := s.setSlot m { x with phase := .seal owing }
        if owing.isEmpty then s.resumeTenant m else s
      | _ => s

/-- BOUNDARY_ABANDON (R397): the pause has not ended within 1 ms. -/
def execBoundaryAbandon (m : Nat) (s : State) : Out :=
  onWf (slotOk m)
    (let x := s.slot m
     let late := match x.phase with
       | .pause _ t => t + 1000000 ≤ s.now
       | .record t => t + 1000000 ≤ s.now
       | _ => false
     if s.mirrorRuns && late then
       let s := (s.setSlot m { x with records := [] }).endPause m
       let s := s.modMirror fun g => { g with
         skipped := g.skipped + 1,
         log := g.log.filter fun e => !(e.2.2.1 == x.tid && e.2.1 == x.epoch && e.1 == 0) }
       s.setSlot m { s.slot m with phase := .retry (s.now + 100000) }
     else s)

/-- BOUNDARY_RETRY (R397). -/
def execBoundaryRetry (m : Nat) (s : State) : Out :=
  onWf (slotOk m)
    (match (s.slot m).phase with
     | .retry t => if s.mirrorRuns && t ≤ s.now && s.mayBound m then s.startBoundary m else s
     | _ => s)

/-! ### Capture (R399, R400, R402) -/

/-- The next line to capture from a place on: in a FULL epoch every line, else those whose bit stands. -/
def State.nextLine (s : State) (x : Slot) (k : Nat) : Nat → Nat → Nat → Option (Nat × Nat)
  | 0, _, _ => none
  | fuel + 1, r, i =>
    match x.ranges[r]? with
    | none => none
    | some (_, len, track) =>
      if len / 64 ≤ i then s.nextLine x k fuel (r + 1) 0
      else if x.full || s.trackBit track len (k % 2) i then some (r, i)
      else s.nextLine x k fuel r (i + 1)

def Slot.lineCount (x : Slot) : Nat := x.ranges.foldl (fun a r => a + r.2.1 / 64 + 1) 1

/-- Captured lines that wait are sent as one LINES frame. -/
def State.flushLines (s : State) (m k : Nat) : State :=
  let x := s.slot m
  if x.batch.isEmpty then s
  else
    let s := s.cSend 0x21 x.tid k true x.batch.flatten
    let y := s.slot m
    s.setSlot m { y with batch := [], nLines := y.nLines + 1 }

/-- The state records of the boundary are sent, 16 to a frame. -/
def State.sendRecords : Nat → Nat → Nat → State → State
  | 0, _, _, s => s
  | fuel + 1, m, k, s =>
    let x := s.slot m
    if x.records.isEmpty then s
    else
      let s := s.cSend 0x20 x.tid k true (x.records.take 16).flatten
      let y := s.slot m
      State.sendRecords fuel m k (s.setSlot m { y with records := y.records.drop 16, nState := y.nState + 1 })

/-- Everything of epoch k has been sent: END. -/
def State.endCapture (s : State) (m k : Nat) : State :=
  let s := State.sendRecords ((s.slot m).records.length + 1) m k (s.flushLines m k)
  let s := s.sendOutputs m
  let x := s.slot m
  let s := s.cSend 0x23 x.tid k true
    (leBytes 4 x.nState ++ leBytes 4 x.nLines ++ leBytes 4 x.nOut ++ leBytes 1 x.full.toNat)
  let y := s.slot m
  let s := s.setSlot m { y with ended := k, capture := none, full := false, nState := 0, nLines := 0, nOut := 0 }
  (s.sendOutputs m).kickRanges x.ranges

/-- A capture read of a slot is under way. -/
def State.capturing (s : State) (m : Nat) : Bool :=
  s.readers.any fun r => match r.why with
    | .capture n _ _ _ => n == m
    | _ => false

/-- The line of a capture read has come: it goes into the batch, and the walk goes on behind it (R399). -/
def State.captured (s : State) (m k r i : Nat) (b : List Byte) : State :=
  let x := s.slot m
  match x.capture with
  | none => s
  | some c =>
    if c.1 != k then s
    else
      let s := s.setSlot m { x with
        batch := x.batch ++ [leBytes 8 (r * 2 ^ 60 + 64 * i) ++ b], capture := some (k, r, i + 1) }
      if 128 ≤ (s.slot m).batch.length then s.flushLines m k else s

/-- CAPTURE_READ (R399): the next line is read with RdCur, whose home clears its bit, or END is sent after the last. -/
def execCaptureRead (m : Nat) (s : State) : Out :=
  onWf (slotOk m)
    (let x := s.slot m
     match x.capture with
     | none => s
     | some (k, r, i) =>
       let held := (x.held.filter fun h => h.st == 0).foldl (fun a h => a + h.bytes.length + 256) 0
       let room := s.logRoom (72 * x.batch.length + 512 * x.records.length + held + 16384)
       if !s.mirrorRuns || s.mirror.st != 2 || s.mirror.leaving.isSome || !room || s.capturing m then s
       else
         match s.nextLine x k x.lineCount r i with
         | none => s.endCapture m k
         | some (r, i) =>
           s.startRead mirrorNode x.tid (s.tenantCls x.tid) (.capture m k r i) [((x.ranges.getD r (0, 0, 0)).1 + 64 * i, 64)])

/-! ### What the partner sends (R401, R404, R406) -/

/-- The epoch a standby takes frames of. -/
def Slot.openEpoch (x : Slot) : Nat := (x.endAt.getD x.ended) + 1

/-- A standby keeps a payload and writes it into its staging area. -/
def State.stage (s : State) (f : CFrame) (ty : Nat) (g : Slot → Slot) : State :=
  let t : BitVec 12 := f.tid.setWidth 12
  match s.slotOf t with
  | some (m, x) =>
    if x.st != .standby || f.tid.toNat ≥ 4096 then s.cViolation 0x43 f
    else if f.epoch.toNat != x.openEpoch then s.cViolation 0x44 f
    else if x.stageLen < 2 * (x.staged + f.payload.length) then s.cViolation 0x48 f
    else
      let k := x.openEpoch
      let pa := x.stageBase + k % 2 * (x.stageLen / 2) + x.staged
      let s := s.setSlot m { g x with
        staged := x.staged + f.payload.length, stage := x.stage ++ [(k, ty, f.payload)] }
      s.startWrite mirrorNode t (s.tenantCls t) (.stage m k) [(pa, f.payload)]
  | none => s.cViolation 0x43 f

/-- The records of a payload. -/
def cutRecs (n : Nat) : Nat → List Byte → List (List Byte)
  | 0, _ => []
  | fuel + 1, b => if b.isEmpty then [] else b.take n :: cutRecs n fuel (b.drop n)

/-- Every location of a LINES payload lies in its range. -/
def Slot.locOk (x : Slot) (b : List Byte) : Bool :=
  let w := leAt b 0 8
  w / 2 ^ 60 < x.ranges.length && w / 2 ^ 40 % 2 ^ 20 == 0 && w % 64 == 0 &&
    w % 2 ^ 40 < (x.ranges.getD (w / 2 ^ 60) (0, 0, 0)).2.1

/-- LINES at a standby. -/
def State.linesIn (s : State) (f : CFrame) : State :=
  match s.slotOf (f.tid.setWidth 12) with
  | some (_, x) =>
    if x.st == .standby && f.epoch.toNat == x.openEpoch && !(cutRecs 72 130 f.payload).all x.locOk then s.cViolation 0x45 f
    else s.stage f 0x21 fun y => { y with nLines := y.nLines + 1 }
  | none => s.cViolation 0x43 f

/-- OUTPUT at a standby: the copy of a held frame, whole or in two parts. -/
def Slot.takeOutput (k : Nat) (b : List Byte) (x : Slot) : Slot :=
  let num := leAt b 0 8
  let data := b.drop 16
  let x := { x with nOut := x.nOut + 1 }
  if leAt b 9 1 == 2 then
    { x with held := x.held.map fun h => if h.num == num then { h with bytes := h.bytes ++ data } else h }
  else { x with held := x.held ++ [⟨num, k, leAt b 8 1 % 8, leAt b 8 1 / 8 % 2, data, 1⟩] }

/-- The staging writes of an epoch that has ended are all acknowledged: ACK (R401). -/
def State.standbyAck (s : State) (m : Nat) : State :=
  let x := s.slot m
  match x.endAt with
  | none => s
  | some k =>
    if s.writers.any (fun w => w.why == .stage m k) then s
    else (s.setSlot m { x with ended := k, endAt := none }).cSend 0x24 x.tid k false []

/-- END at a standby. -/
def State.endIn (s : State) (f : CFrame) : State :=
  match s.slotOf (f.tid.setWidth 12) with
  | some (m, x) =>
    let b := f.payload
    if x.st != .standby then s.cViolation 0x43 f
    else if f.epoch.toNat != x.openEpoch || x.endAt.isSome || leAt b 0 4 != x.nState || leAt b 4 4 != x.nLines ||
        leAt b 8 4 != x.nOut then s.cViolation 0x44 f
    else
      (s.setSlot m { x with
        endAt := some x.openEpoch, full := bit (b.getD 12 0) 0, nState := 0, nLines := 0, nOut := 0, staged := 0 }).standbyAck m
  | none => s.cViolation 0x43 f

/-- ACK at an active member (R401, R406). -/
def State.ackIn (s : State) (f : CFrame) : State :=
  match s.slotOf (f.tid.setWidth 12) with
  | some (m, x) =>
    let k := f.epoch.toNat
    if !x.active || !(x.st == .syncing || x.st == .guarded) then s.cViolation 0x43 f
    else if x.ended < k then s.cViolation 0x46 f
    else if k ≤ x.acked then s
    else
      let s := s.setSlot m { x with acked := k, committed := if x.st == .guarded then k else x.committed }
      (((s.logFree x.tid k).sendIntent m).finalStep m).leaveCheck
  | none => s.cViolation 0x43 f

/-- INTENT at a standby: frames of committed epochs are granted (R406). -/
def State.intentIn (s : State) (f : CFrame) : State :=
  match s.slotOf (f.tid.setWidth 12) with
  | some (m, x) =>
    let a := leAt f.payload 0 8
    let n := leAt f.payload 8 1
    if x.st != .standby || n == 0 || n > 16 then s.cViolation 0x43 f
    else
      let ok (i : Nat) : Bool := x.held.any fun h => h.num == a + i && h.epoch ≤ x.ended
      let g := ((List.range n).takeWhile ok).length
      if g == 0 then s
      else
        let hit (h : Held) : Bool := decide (a ≤ h.num) && decide (h.num < a + g)
        (s.setSlot m { x with held := x.held.map fun h => if hit h then { h with st := 3 } else h }).cSend 0x26 x.tid
          f.epoch.toNat false (leBytes 8 a ++ leBytes 1 g)
  | none => s.cViolation 0x43 f

/-- GRANT at an active member: the granted frames go to their ports (R406). -/
def State.grantIn (s : State) (f : CFrame) : State :=
  match s.slotOf (f.tid.setWidth 12) with
  | some (m, x) =>
    let a := leAt f.payload 0 8
    let n := leAt f.payload 8 1
    let hit (h : Held) : Bool := decide (a ≤ h.num) && decide (h.num < a + n) && h.st == 2
    if !x.active then s.cViolation 0x43 f
    else if (x.held.filter hit).length != n || n == 0 then s.cViolation 0x47 f
    else
      let s := (x.held.filter hit).foldl (fun s h => s.handFrame x.tid h) s
      s.setSlot m { x with held := x.held.map fun h => if hit h then { h with st := 3 } else h }
  | none => s.cViolation 0x43 f

/-- SENT at a standby: copies up to the number are freed (R406). -/
def State.sentIn (s : State) (f : CFrame) : State :=
  match s.slotOf (f.tid.setWidth 12) with
  | some (m, x) =>
    let n := leAt f.payload 0 8
    if x.st != .standby then s.cViolation 0x43 f
    else if !x.held.any (fun h => h.num == n && h.st == 3) then s.cViolation 0x47 f
    else s.setSlot m { x with held := x.held.filter fun h => n < h.num }
  | none => s.cViolation 0x43 f

/-- JOIN at a standby (R394). -/
def State.joinIn (s : State) (f : CFrame) : State :=
  match s.slotOf (f.tid.setWidth 12) with
  | some (m, x) =>
    let b := f.payload
    if x.st != .standby || leAt b 0 1 != x.ranges.length ||
        !((List.range x.ranges.length).all fun r => leAt b (8 + 8 * r) 8 == (x.ranges.getD r (0, 0, 0)).2.1) then
      s.cViolation 0x43 f
    else
      (s.setSlot m { x.discard with ended := 0, applied := 0, committed := 0, catchUp := true, contexts := [] }).cSend 0x11
        x.tid 0 false []
  | none => s.cViolation 0x43 f

/-- JOIN_OK at an active member: SYNCING, and the FULL epoch begins (R394, R402). -/
def State.joinOkIn (s : State) (f : CFrame) : State :=
  match s.mirror.joining with
  | some (m, _, _) =>
    let x := s.slot m
    if f.tid.toNat != x.tid.toNat then s.cViolation 0x43 f
    else
      let s := s.setSlot m { x with
        st := .syncing, epoch := 1, since := s.now, full := true, catchUp := true, ended := 0, acked := 0, committed := 0,
        nState := 0, nLines := 0, nOut := 0, marked := 0, markedNext := 0, heldBytes := 0, volume := 0, held := [],
        nextHeld := 1, phase := .none, capture := none, sealed := [], stopped := false, final := 0 }
      (s.modMirror fun g => { g with joining := none }).mtEnd fun c => c.done 0
  | none => s.cViolation 0x43 f

/-- DROP (R400, R410, R468): a standby frees its copy, an active slot runs on unmirrored. -/
def State.dropIn (s : State) (f : CFrame) : State :=
  match s.slotOf (f.tid.setWidth 12) with
  | some (m, x) =>
    if x.active then
      if x.st == .syncing || x.st == .guarded then (s.freeHeld m).leaveSlot m .unguarded else s
    else s.setSlot m Slot.initial
  | none => s.cViolation 0x43 f

/-- NAK: it refuses the JOIN of its tenant (R394). -/
def State.nakIn (s : State) (f : CFrame) : State :=
  if s.mirror.joining.any fun j => (s.slot j.1).tid.toNat == f.tid.toNat then s.joinFailed else s

/-- A numbered frame in its turn. -/
def State.cFrame (s : State) (ty : Nat) (f : CFrame) : State :=
  let s := s.countContrail (f.tid.setWidth 12) f.payload.length
  match ty with
  | 0x10 => s.joinIn f
  | 0x11 => s.joinOkIn f
  | 0x12 => s.dropIn f
  | 0x20 => s.stage f 0x20 fun x => { x with nState := x.nState + 1 }
  | 0x21 => s.linesIn f
  | 0x22 => s.stage f 0x22 fun x => x.takeOutput x.openEpoch f.payload
  | 0x23 => s.endIn f
  | 0x24 => s.ackIn f
  | 0x25 => s.intentIn f
  | 0x26 => s.grantIn f
  | 0x27 => s.sentIn f
  | 0x30 => s.nakIn f
  | _ => s

/-- Frames that wait behind a gap follow once it is filled (R404). -/
def State.cAhead : Nat → State → State
  | 0, s => s
  | fuel + 1, s =>
    match takeFirst (fun a => a.1 == s.mirror.expect) s.mirror.ahead with
    | none => s.modMirror fun g => { g with gapSince := if g.ahead.isEmpty then none else g.gapSince <|> some s.now }
    | some (a, rest) =>
      let s := s.modMirror fun g => { g with ahead := rest, expect := g.expect + 1, gapSince := none }
      State.cAhead fuel (s.cFrame a.2.1 a.2.2)

/-- LEN is consistent with TYPE (Table 15-5). -/
def lenOk (ty : Nat) (b : List Byte) : Bool :=
  let n := b.length
  match ty with
  | 0x01 => n == 8 && b.all (· == 0)
  | 0x02 => n == 8
  | 0x10 => n == 144
  | 0x11 => n == 0
  | 0x12 => n == 0
  | 0x20 => 0 < n && n ≤ 8192 && n % 512 == 0
  | 0x21 => 0 < n && n ≤ 9216 && n % 72 == 0
  | 0x22 => 16 < n && n ≤ 8208
  | 0x23 => n == 13
  | 0x24 => n == 0
  | 0x25 => n == 9
  | 0x26 => n == 9
  | 0x27 => n == 8
  | 0x30 => n == 16
  | 0x31 => n == 16
  | 0x3F => n == 1
  | _ => false

/-- The frame names the pairing (Table 15-7, kind 0x41). -/
def State.idOk (s : State) (f : CFrame) : Bool :=
  f.ver == 1 && f.src.toNat == s.mirror.partner.toNat && f.dst.toNat == s.mirror.did.toNat && f.gen == s.mirror.gen

/-- A valid HELLO (R392, R463). -/
def State.helloIn (s : State) (f : CFrame) : State :=
  let s := s.modMirror fun g => { g with mac := tput g.mac f.port f.mac, heard := tput g.heard f.port s.now }
  if s.mirror.st == 1 || (s.mirror.st == 3 && s.mirror.byLoss) then
    s.modMirror fun g => { g with st := 2, byLoss := false, seq := 1, expect := 1, ahead := [], gapSince := none, log := [] }
  else s

/-- A frame whose CHECK and FCS are right reaches the mirror engine on a mirror port (R403, R404, R409). -/
def State.contrailIn (s : State) (ty : Nat) (f : CFrame) : State :=
  let m := s.mirror
  if !s.mirrorRuns || m.left || !s.mirrorLink f.port || m.st == 0 || (m.st == 3 && !(m.byLoss && ty == 1)) then s
  else if !s.idOk f then s.cViolation 0x41 f
  else if !lenOk ty f.payload then s.cViolation 0x42 f
  else if ty == 1 then s.helloIn f
  else if m.st != 2 then s
  else
    let s := s.modMirror fun g => { g with heard := tput g.heard f.port s.now }
    if ty == 2 then s
    else if ty == 0x31 then
      let a := leAt f.payload 0 8
      let b := leAt f.payload 8 8
      (m.log.filter fun e => e.1 != 0 && a ≤ e.1 && e.1 ≤ b).foldl (fun s e => s.mirrorOut f.port e.2.2.2) s
    else if ty == 0x3F then s.breakSlots (leAt f.payload 0 1)
    else if f.seq.toNat < m.expect then s
    else if m.expect < f.seq.toNat then
      if m.ahead.any fun a => a.1 == f.seq.toNat then s
      else s.modMirror fun g => { g with ahead := g.ahead ++ [(f.seq.toNat, ty, f)], gapSince := g.gapSince <|> some s.now }
    else
      let s := (s.modMirror fun g => { g with expect := g.expect + 1 }).cFrame ty f
      State.cAhead (s.mirror.ahead.length + 1) s

/-- HELLO (R392). -/
def execHelloFrame (f : CFrame) (s : State) : Out := .next (s.contrailIn 0x01 f)
/-- HEARTBEAT (R407). -/
def execHeartbeatFrame (f : CFrame) (s : State) : Out := .next (s.contrailIn 0x02 f)
/-- JOIN (R394). -/
def execJoinFrame (f : CFrame) (s : State) : Out := .next (s.contrailIn 0x10 f)
/-- JOIN_OK (R394). -/
def execJoinOkFrame (f : CFrame) (s : State) : Out := .next (s.contrailIn 0x11 f)
/-- CONTRAIL_DROP (R400). -/
def execContrailDrop (f : CFrame) (s : State) : Out := .next (s.contrailIn 0x12 f)
/-- STATE (R401). -/
def execStateFrame (f : CFrame) (s : State) : Out := .next (s.contrailIn 0x20 f)
/-- LINES (R401). -/
def execLinesFrame (f : CFrame) (s : State) : Out := .next (s.contrailIn 0x21 f)
/-- OUTPUT (R401). -/
def execOutputFrame (f : CFrame) (s : State) : Out := .next (s.contrailIn 0x22 f)
/-- END (R401). -/
def execEndFrame (f : CFrame) (s : State) : Out := .next (s.contrailIn 0x23 f)
/-- ACK (R401). -/
def execAckFrame (f : CFrame) (s : State) : Out := .next (s.contrailIn 0x24 f)
/-- INTENT (R406). -/
def execIntentFrame (f : CFrame) (s : State) : Out := .next (s.contrailIn 0x25 f)
/-- GRANT (R406). -/
def execGrantFrame (f : CFrame) (s : State) : Out := .next (s.contrailIn 0x26 f)
/-- SENT (R406). -/
def execSentFrame (f : CFrame) (s : State) : Out := .next (s.contrailIn 0x27 f)
/-- NAK (R409). -/
def execNakFrame (f : CFrame) (s : State) : Out := .next (s.contrailIn 0x30 f)
/-- RESEND (R404). -/
def execResendFrame (f : CFrame) (s : State) : Out := .next (s.contrailIn 0x31 f)
/-- CONTRAIL_BREAK (R409). -/
def execContrailBreak (f : CFrame) (s : State) : Out := .next (s.contrailIn 0x3F f)

/-- CONTRAIL_FRAME_INVALID (R409): wrong CHECK or FCS, or a TYPE that is reserved or does not fit LEN. -/
def execContrailFrameInvalid (f : CFrame) (badCheck : Bool) (s : State) : Out :=
  .next (
    let m := s.mirror
    if !s.mirrorRuns || m.left || !s.mirrorLink f.port || m.st == 0 || m.st == 3 then s
    else if badCheck then s.cViolation 0x40 f
    else if s.idOk f then s.cViolation 0x42 f
    else s.cViolation 0x41 f)

/-! ### Timers (R392, R404, R407, R461) -/

/-- HELLO_TIMER (R392, R463). -/
def execHelloTimer (s : State) : Out :=
  .next (
    let m := s.mirror
    if s.mirrorRuns && !m.left && (m.st == 1 || (m.st == 3 && m.byLoss)) then s.cPlain 1 (List.replicate 8 0) else s)

/-- HEARTBEAT_TIMER (R407). -/
def execHeartbeatTimer (s : State) : Out :=
  .next (if s.mirrorRuns && !s.mirror.left && s.mirror.st == 2 then s.cPlain 2 (leBytes 8 s.now) else s)

/-- RESEND_GAP_TIMEOUT (R404): a gap has stood for 50 µs. -/
def execResendGapTimeout (s : State) : Out :=
  .next (
    let m := s.mirror
    if s.mirrorRuns && m.st == 2 && !m.left && m.gapSince.any (fun t => t + 50000 ≤ s.now) then
      let last := m.ahead.foldl (fun a e => min a (e.1 - 1)) (2 ^ 64)
      (s.cPlain 0x31 (leBytes 8 m.expect ++ leBytes 8 last)).modMirror fun g => { g with gapSince := some s.now }
    else s)

/-- PARTNER_LOSS (R407): no valid frame on any mirror port for 200 µs. -/
def execPartnerLoss (s : State) : Out :=
  .next (
    if s.mirror.st == 2 && !(s.mirror.heard.any fun e => s.now < e.2 + 200000) then s.losePartner else s)

/-- MIRROR_LEAVE (R461): the member leaves its pair before FULL_RESET. -/
def execMirrorLeave (s : State) : Out :=
  onArrival true .mirrorLeave s fun s =>
    if s.mirror.leaving.isSome then s
    else (s.modMirror fun g => { g with leaving := some s.now }).leaveCheck

/-- MIRROR_LEAVE_EXPIRY (R461): 1 ms has passed. -/
def execMirrorLeaveExpiry (s : State) : Out :=
  .next (
    if s.mirror.leaving.any (fun t => t + 1000000 ≤ s.now) && !s.mirror.left then
      (s.modMirror fun g => { g with left := true }).send (.seqTableRequest purposeFullReset 0)
    else s)

/-! ### The standby's application of epochs (R401, R402) -/

/-- Writes of an epoch's lines and state records. -/
def Slot.applyWrites (x : Slot) (k : Nat) : List (Nat × List Byte) :=
  let ps := x.stage.filter fun p => p.1 == k
  let ls := ((ps.filter fun p => p.2.1 == 0x21).map fun p => cutRecs 72 130 p.2.2).flatten
  let sts := ((ps.filter fun p => p.2.1 == 0x20).map fun p => p.2.2).flatten
  (ls.map fun l =>
    let w := leAt l 0 8
    ((x.ranges.getD (w / 2 ^ 60) (0, 0, 0)).1 + w % 2 ^ 40, l.drop 8)) ++
    (if sts.isEmpty then [] else [(x.stateBase, sts.take (2 ^ 20))])

/-- Epoch k has been applied: COMMITTED, and the takeover that waited for it. -/
def State.applyDone (s : State) (m k : Nat) : State :=
  let x := s.slot m
  let ps := x.stage.filter fun p => p.1 == k
  let lines := (ps.filter fun p => p.2.1 == 0x21).foldl (fun a p => a + p.2.2.length / 72) 0
  let outs := (ps.filter fun p => p.2.1 == 0x22).foldl (fun a p => a + p.2.2.length - 16) 0
  let good := decide (2 ≤ k) && (!x.catchUp || decide (2 * (128 * lines + outs + 65536) < x.stageLen))
  let recs := ((ps.filter fun p => p.2.1 == 0x20).map fun p => cutRecs 512 17 p.2.2).flatten
  let s := s.setSlot m { x with
    applied := k, catchUp := x.catchUp && !good, committed := if good then k else x.committed,
    contexts := recs.filter (fun b => b.getD 0 0 == 3), stage := x.stage.filter fun p => p.1 != k }
  if x.taking && x.st == .standby && k == x.ended then s.takeOver m else s

/-- EPOCH_APPLY (R401). -/
def execEpochApply (m : Nat) (s : State) : Out :=
  onWf (slotOk m)
    (let x := s.slot m
     let k := x.applied + 1
     if s.mirrorRuns && x.st == .standby && k ≤ x.ended && !s.writers.any (fun w => w.why == .apply m k) then
       let todo := x.applyWrites k
       if todo.isEmpty then s.applyDone m k
       else s.startWrite mirrorNode x.tid (s.tenantCls x.tid) (.apply m k) todo
     else s)

/-! ### Loss of memory and fences (R439, R468) -/

/-- R468: slots with a byte on a lost or fenced stack, and every slot where the send log has one. A standby slot that halts
with the log drops its copies (DEDUCED, notes/assumptions/23.md). -/
def State.mirrorLost (s : State) : State :=
  let gone (a : Nat × Nat) : Bool := (List.range 12).any fun k => s.stackGone k && s.rangeOn a.1 a.2 k
  let logGone := gone (s.logBase, s.mirror.logLen.toNat)
  s.usedSlots.foldl (fun s e =>
    let x := e.2
    let hit := x.areas.find? gone
    if x.active && (hit.isSome || logGone) && (x.st == .syncing || x.st == .guarded) then
      s.haltSlot e.1 ((hit.getD (s.logBase, 0)).1)
    else if !x.active && x.st == .standby && hit.isSome then
      (s.cSend 0x12 x.tid 0 false []).setSlot e.1 { x.discard with st := .broken }
    else if !x.active && x.st == .standby && logGone then
      ((s.cSend 0x12 x.tid 0 false []).setSlot e.1 { x.discard with st := .halted }).fault mirrorSrc 0x42 (some x.tid) s.logBase
    else s) s

/-- A new pairing (R391, R392): the old one ends as a clean break. -/
def State.setPairing (s : State) (did partner : BitVec 12) (gen : BitVec 16) : State :=
  let s := if s.mirror.st == 2 then s.breakPair 0 else s
  s.modMirror fun g => { g with
    st := 1, did := did, partner := partner, gen := gen, byLoss := false, mac := [], heard := [] }

/-! ### Registers (Table 15-1) -/

def SlotSt.code : SlotSt → Nat
  | .free => 0
  | .syncing => 1
  | .guarded => 2
  | .unguarded => 3
  | .standby => 4
  | .halted => 5
  | .broken => 6

/-- PAIR_STATUS. -/
def State.pairStatus (s : State) : Word :=
  let m := s.mirror
  let up (i : Nat) : Nat :=
    match s.mirrorPorts[i]? with
    | some p => if (tfind? m.heard p).any fun t => s.now < t + 200000 then 1 else 0
    | none => 0
  BitVec.ofNat 64 (m.st * 2 ^ 60 + (up 0 + 2 * up 1) * 2 ^ 58 + m.partner.toNat * 2 ^ 32 + m.did.toNat * 2 ^ 16 + m.gen.toNat)

def State.mirrorReg (s : State) (off : Nat) : Option Word :=
  let m := s.mirror
  if off == 0x10 then some s.pairStatus
  else if off == 0x18 then some (m.limit.setWidth 64)
  else if off == 0x20 then some m.logBase
  else if off == 0x28 then some m.logLen
  else if off == 0x30 then some m.cmd
  else if off == 0x38 then some m.res.word
  else if off == 0x40 then some m.skipped
  else if off == 0x60 then some m.pv.ctl
  else if 0x800 ≤ off ∧ off < 0x900 then some (m.pv.entry (off - 0x800))
  else if 0x1000 ≤ off ∧ off < 0x2000 then
    let x := s.slot ((off - 0x1000) / 32)
    match off % 32 with
    | 0 => some (BitVec.ofNat 64 (x.st.code * 2 ^ 60 + x.tid.toNat * 2 ^ 32 + x.committed % 2 ^ 32))
    | 8 => some x.bytes
    | 16 => some (BitVec.ofNat 64 x.level)
    | _ => none
  else none

/-- PV_CTL: writing CLR sets TOTAL, NEXT and the log to 0 (Table 13-10). -/
def Pv.write (x : Pv) (v : Word) : Pv := if bit v 63 then Pv.initial else x

def State.mirrorWrite (s : State) (off : Nat) (v : Word) : State :=
  if off == 0x18 then s.modMirror fun g => { g with limit := v.setWidth 16 }
  else if off == 0x20 then s.modMirror fun g => { g with logBase := v &&& 0x000FFFFFFFE00000 }
  else if off == 0x28 then s.modMirror fun g => { g with logLen := v }
  else if off == 0x30 then s.mtCmd v
  else if off == 0x60 then s.modMirror fun g => { g with pv := g.pv.write v }
  else s

end Sys2Proof.Machine
end

