-- ==== Sys2Proof/Machine/Ports.lean ====
section
/-! DEFINITION. The Ethernet ports (R352–R354, R360–R363, R368, R405): frames received and dispatched, the transmit scheduler,
held copies, links. -/

namespace Sys2Proof.Machine

/-! ### Receive (R352, R362, R363, R369, R398) -/

/-- The Contrail frame that the bytes of a mirror port's frame hold, with its TYPE; none when CHECK is wrong. -/
def parseContrail (p : Nat) (b : List Byte) : CFrame × Nat × Bool :=
  let h := b.drop 14
  let len := leAt h 2 2
  let pay := (h.drop 32).take len
  let good := pay.length == len && leAt h 28 4 == (crcFrame (h.take 28 ++ pay)).toNat
  ({ port := p, mac := BitVec.ofNat 48 (beAt b 6 6), ver := h.getD 0 0, src := BitVec.ofNat 16 (leAt h 4 2),
     dst := BitVec.ofNat 16 (leAt h 6 2), gen := BitVec.ofNat 16 (leAt h 8 2), tid := BitVec.ofNat 16 (leAt h 10 2),
     epoch := BitVec.ofNat 32 (leAt h 12 4), seq := BitVec.ofNat 64 (leAt h 16 8), payload := pay },
    leAt h 1 1, good)

/-- A frame of the Contrail EtherType on a mirror port. -/
def State.mirrorFrame (s : State) (p : Nat) (b : List Byte) (fcsOk : Bool) : State :=
  let (f, ty, good) := parseContrail p b
  if fcsOk && good then s.contrailIn ty f
  else if s.mirrorRuns && !s.mirror.left && (s.mirror.st == 1 || s.mirror.st == 2) then s.cViolation 0x40 f
  else s

/-- A frame for a queue pair: dropped when its tenant is blocked, kept during a pause, else taken. -/
def State.frameFor (s : State) (p n : Nat) (q : Qp) (b : List Byte) : State :=
  let stamp := ((s.now : Int) + (s.port p).rxAdj.toInt).toNat
  if q.blocked then s.portCount p fun x => { x with blocked := x.blocked + 1 }
  else if q.paused then
    let x := s.port p
    if x.rxWait.foldl (fun a f => a + f.2.1.length) 0 + b.length ≤ Config.rxBuffer then
      s.setPort p { x with rxWait := x.rxWait ++ [(n, b, stamp)] }
    else s.portCount p fun x => { x with noBuf := x.noBuf + 1 }
  else if q.isRc then s.rcReceive n q b stamp
  else s.rawReceive n q b stamp

/-- The lowest valid steering entry of a link that a frame matches: the queue pair it names. -/
def Port.steered (x : Port) (l : Nat) (e : Eth) : Option Nat :=
  (lowest (fun i =>
    let w := tget x.steer i 0
    bit w 63 && fld w 0 48 == e.dst && fld w 48 12 == e.vid && fld (tget x.steerQp i 0) 16 1 == l) 4096).map
    fun i => fld (tget x.steerQp i 0) 0 16

/-- R362: where a good frame goes. -/
def State.dispatch (s : State) (p l : Nat) (b : List Byte) : State :=
  let e := ethOf b
  let lost := s.portCount p fun x => { x with noMatch := x.noMatch + 1 }
  if isRoce b && e.dst == s.macOf p l then
    match bthOf b with
    | none => lost
    | some (h, _) =>
      match s.qp? h.qpn with
      | some q => if q.isRc && q.port == p && q.link == l then s.frameFor p h.qpn q b else lost
      | none => lost
  else
    match (s.port p).steered l e with
    | some n =>
      match s.qp? n with
      | some q => if !q.isRc && q.port == p then s.frameFor p n q b else lost
      | none => lost
    | none => lost

/-- A PAUSE frame or a priority flow-control frame of IEEE 802.1Qbb (R352): MAC control with opcode 0x0001 or 0x0101. -/
def isPause (b : List Byte) : Bool := beAt b 12 2 == 0x8808 && (beAt b 14 2 == 0x0001 || beAt b 14 2 == 0x0101)

/-- FRAME_RECEIVE (R352, R362): the bytes without the FCS. -/
def execFrameReceive (p : Nat) (link : Nat) (fcsOk : Bool) (bytes : List Byte) (s : State) : Out :=
  onWf (portOk p && linkOk link)
    (let contrail := s.portRole p == 2 && beAt bytes 12 2 == 0x88B5
     if !s.linkRuns p link then s
     else if !fcsOk || bytes.length < 60 || bytes.length > 9596 then
       let s := s.portCount p fun x => { x with bad := x.bad + 1 }
       if contrail && !fcsOk then s.mirrorFrame p bytes false else s
     else if isPause bytes then s.portCount p fun x => { x with pause := x.pause + 1 }
     else
       let s := s.portCount p fun x => { x with rx := x.rx + 1 }
       if contrail then s.mirrorFrame p bytes true else s.dispatch p link bytes)

/-! ### The transmit scheduler (R368) -/

/-- The class at which a frame is scheduled. -/
def State.frameCls (s : State) (f : TxFrame) : BitVec 3 :=
  match f.qpn.bind s.qp? with
  | some q => s.tenantCls q.tid
  | none => f.cls

/-- A frame that may leave: not one whose held copy is still to be made. -/
def State.mayLeave (s : State) (l : Nat) (f : TxFrame) : Bool :=
  f.link == l && !((f.qpn.bind s.qp?).any fun q => (s.guardedSlot q.tid).isSome)

def ethKey (l : Nat) (q : BitVec 3) : Nat := 8 * l + q.toNat
def State.ethWeight (s : State) (q : Nat) : Nat := s.qosField q 0xC 2 1
def State.ethCeil (s : State) (q : Nat) : Nat := s.qosField q 0xE 2 800

/-- Bits of a frame on the link, FCS included. -/
def frameBits (f : TxFrame) : Nat := 8 * (f.bytes.length + 4)

/-- The level of a class's ETH_CEIL bucket in bits: Gb/s is bits per ns, one frame of 9,600 bytes deep. -/
def State.ceilNow (s : State) (p l : Nat) (q : BitVec 3) : Nat :=
  match tfind? (s.port p).ceil (ethKey l q) with
  | some (v, t) => min 76800 (v + (s.now - t) * s.ethCeil q.toNat)
  | none => 76800

/-- The first frame of each class that may leave now. -/
def State.candidates (s : State) (p l : Nat) : List (BitVec 3 × TxFrame) :=
  (List.range 8).filterMap fun q =>
    let c : BitVec 3 := BitVec.ofNat 3 q
    ((s.port p).txq.find? fun f => s.mayLeave l f && s.frameCls f == c).bind fun f =>
      if frameBits f ≤ s.ceilNow p l c then some (c, f) else none

/-- Deficit round robin from a class on: the class that is served, with the deficits and the turn after it. -/
def drr (weight : Nat → Nat) (cands : List (BitVec 3 × TxFrame)) : Nat → Nat → List Nat → Option (BitVec 3 × TxFrame × List Nat)
  | 0, _, _ => none
  | fuel + 1, q, ds =>
    match cands.find? fun c => c.1.toNat == q % 8 with
    | none => drr weight cands fuel (q + 1) (ds.set (q % 8) 0)
    | some (c, f) =>
      let n := f.bytes.length + 4
      if n ≤ ds.getD (q % 8) 0 then some (c, f, ds.set (q % 8) (ds.getD (q % 8) 0 - n))
      else drr weight cands fuel (q + 1) (ds.set (q % 8) (ds.getD (q % 8) 0 + weight (q % 8)))

/-- The frame a link sends next: a single waiting class at once, several in deficit round robin. -/
def State.nextFrame (s : State) (p l : Nat) : Option (TxFrame × State) :=
  let x := s.port p
  let cs := s.candidates p l
  let ds := (List.range 8).map fun q => tget x.deficit (8 * l + q) 0
  let pick := match cs with
    | [] => none
    | [(c, f)] => some (c, f, ds)
    | _ => drr (fun q => s.ethWeight q * (Config.ethQuantum + 1)) cs 80000 (tget x.turn l 0) ds
  pick.map fun (c, f, ds) =>
    let level := s.ceilNow p l c - frameBits f
    let rest := x.txq.erase f
    let again (g : TxFrame) : Bool := g.link == l && g.qpn.isSome && g.qpn == f.qpn
    (f, s.setPort p { x with
      txq := rest.filter (fun g => !again g) ++ rest.filter again, turn := tput x.turn l c.toNat,
      deficit := (List.range 8).foldl (fun t q => tput t (8 * l + q) (ds.getD q 0)) x.deficit,
      ceil := tput x.ceil (ethKey l c) (level, s.now) })

/-- A released held frame has left: SENT once its batch has, then the next batch (R406). -/
def State.heldLeft (s : State) (p l : Nat) (b : List Byte) : State :=
  let hit (h : Held) : Bool := h.st == 3 && h.port == p && h.link == l && h.bytes == b
  match s.mirror.slots.find? fun e => e.2.active && e.2.held.any hit with
  | none => s
  | some (m, x) =>
    let n := ((x.held.find? hit).map (·.num)).getD 0
    let held := x.held.map fun h => if h.num == n then { h with st := 4 } else h
    let s := s.setSlot m { x with held := held }
    if held.any fun h => h.st == 2 || h.st == 3 then s
    else
      let last := (held.filter fun h => h.st == 4).foldl (fun a h => max a h.num) 0
      let s := s.cSend 0x27 x.tid x.acked false (leBytes 8 last)
      let s := s.setSlot m { s.slot m with held := held.filter fun h => h.st != 4 }
      ((s.sendIntent m).finalStep m).leaveCheck

/-- FRAME_TRANSMITTED (R360, R368, R371): the next frame of a link has left its PCS. -/
def execFrameTransmitted (p : Nat) (link : Nat) (s : State) : Out :=
  onWf (portOk p && linkOk link)
    (if !s.linkRuns p link then s
     else
       match s.nextFrame p link with
       | none => s
       | some (f, s) =>
         let s := { s.portCount p fun x => { x with tx := x.tx + 1 } with out := s.out ++ [.frame p link f.bytes] }
         let stamp := ((s.now : Int) + (s.port p).txAdj.toInt).toNat
         match f.qpn with
         | none => s.heldLeft p link f.bytes
         | some n => if f.final then (s.sendDone n (if f.stamp then some stamp else none)).tryDestroy n else s)

/-! ### Held copies (R405) -/

/-- HELD_FRAME_COPY (R404, R405): the oldest frame of the queue pair goes into the log, which may have to wait. -/
def execHeldFrameCopy (qpn : Nat) (s : State) : Out :=
  onArrival (qpnOk qpn) (.heldFrameCopy qpn) s fun s =>
    match s.qp? qpn with
    | none => s
    | some q =>
      match s.guardedSlot q.tid, takeFirst (fun f => f.qpn == some qpn) (s.port q.port).txq with
      | some (m, x), some (f, rest) =>
        if !s.logRoom f.bytes.length || !s.mirrorRuns then s.send (.heldFrameCopy qpn)
        else
          let n := f.bytes.length
          let s := s.setPort q.port { s.port q.port with txq := rest }
          let s := s.setSlot m { x with
            held := x.held ++ [⟨x.nextHeld, x.epoch, q.port, f.link, f.bytes, 0⟩], nextHeld := x.nextHeld + 1,
            heldBytes := x.heldBytes + n, volume := x.volume + n }
          let (ids, s) := s.logPut mirrorNode q.tid x.epoch 0 f.bytes
          let s := if !f.final then s
            else if ids.isEmpty then s.sendDone qpn none
            else { s with
              writers := s.writers ++ [⟨mirrorNode, q.tid, s.tenantCls q.tid, ids, [], .heldCopy qpn, none⟩] }
          s.sendOutputs m
      | _, _ => s

/-! ### Links (R354) -/

/-- LINK_STATE_CHANGE (R354): a partner answers on a link, or no longer does. -/
def execLinkStateChange (p : Nat) (link : Nat) (up : Bool) (s : State) : Out :=
  onWf (portOk p && linkOk link)
    (if s.portRuns p && s.hasLink p link then s.portCount p fun x => { x with partner := setBit x.partner link up } else s)

/-- A fenced port: its links go down and its queue pairs enter error (Table 17-6). -/
def State.portFenced (s : State) (p : Nat) : State :=
  let s := s.portCount p fun x => { x with ready := 0, partner := 0, rxWait := [] }
  ((s.qps.filter fun e => e.2.port == p).map (·.1)).foldl (fun s n =>
    match s.qp? n with
    | some q => if q.isRc then s.rcError n stFlushed
      else ((s.setQp n { q with sSt := 2, rSt := 2 }).kickSend n).kickRecv n
    | none => s) s

/-! ### Registers (Table 13-2) -/

def State.portReg (s : State) (p off : Nat) : Option Word :=
  let x := s.port p
  if off == 0x10 then
    some (BitVec.ofNat 64 (x.partner.toNat * 2 ^ 10 + (if s.board.clocks.contains 1 then 0 else x.ready.toNat) * 2 ^ 8 + (s.portSplit p).toNat * 2 ^ 4 + s.portRole p))
  else if off == 0x18 then some x.tx
  else if off == 0x20 then some x.rx
  else if off == 0x28 then some x.bad
  else if off == 0x30 then some x.noMatch
  else if off == 0x38 then some x.noBuf
  else if off == 0x40 then some x.blocked
  else if off == 0x48 then some x.pause
  else if off == 0x50 then some (BitVec.ofNat 64 (x.txAdj.toNat * 2 ^ 32 + x.rxAdj.toNat))
  else if off == 0x60 then some x.pv.ctl
  else if 0x800 ≤ off ∧ off < 0x900 then some (x.pv.entry (off - 0x800))
  else if 0x40000 ≤ off ∧ off < 0x50000 then
    let i := (off - 0x40000) / 16
    some (if off % 16 == 0 then tget x.steer i 0 else tget x.steerQp i 0)
  else none

def State.portWrite (s : State) (p off : Nat) (v : Word) : State :=
  s.portCount p fun x =>
    if off == 0x50 then { x with txAdj := BitVec.ofNat 32 (fld v 32 32), rxAdj := BitVec.ofNat 32 (fld v 0 32) }
    else if off == 0x60 then { x with pv := x.pv.write v }
    else if 0x40000 ≤ off ∧ off < 0x50000 then
      let i := (off - 0x40000) / 16
      if off % 16 == 0 then { x with steer := tput x.steer i (v &&& 0x8FFFFFFFFFFFFFFF) }
      else { x with steerQp := tput x.steerQp i (v &&& 0x1FFFF) }
    else x

end Sys2Proof.Machine
end

