-- ==== Sys2Proof/Machine/Quiesce.lean ====
section
/-! DEFINITION. Quiescing and stopping a tenant (R331–R333, R369, R379, R390, R458–R460). -/

namespace Sys2Proof.Machine

def codeResident : Nat := 0x110
def codeDrainExpired : Nat := 0x111
def codeMirrorStandby : Nat := 0x170

/-- The units that take block notices: ports, queue engines, lanes, the mirror engine, the guest port (Table 17-2). -/
def blockUnits : List Nat := (List.range 16).map (8 + ·)

/-- The statistics record of a hub unit (R286): the guest port's first stream stands for it. -/
def unitStat (u : Nat) : Nat := if u == 0x17 then 16 else hubNode (unitDomain u) - 0x3CC

/-! ### Block (R331 step 1, R369, R379, R390, R458) -/

/-- The tenant's entry loses EN, and every engine is told. -/
def State.blockTenant (s : State) (t : BitVec 12) : State :=
  (s.setTenant t { s.tenant t with en := false }).sendAll (blockUnits.map fun u => .blockNotice u t)

/-- An engine blocks a tenant's new work. -/
def State.blockUnit (s : State) (u : Nat) (t : BitVec 12) : State :=
  if u < 0x10 then s
  else if u < 0x12 then
    let mine := s.qps.filter fun e => e.1 / 32768 == u - 0x10 && e.2.tid == t
    let s := mine.foldl (fun s e => s.setQp e.1 { e.2 with blocked := true }) s
    mine.foldl (fun s e => (s.kickSend e.1).kickRecv e.1) s
  else if u < 0x16 then
    let l := u - 0x12
    let x := s.lane l
    s.setLane l { x with blocked := if x.blocked.contains t then x.blocked else x.blocked ++ [t] }
  else if u == 0x16 then
    match s.slotOf t with
    | some (m, x) => if x.active then s.setSlot m { x with stopped := true } else s
    | none => s
  else
    let g := s.guest
    { s with guest := { g with
        streams := tmap (fun (x : Stream) => if x.tid == t then { x with blocked := true } else x) g.streams } }

/-- The queue pairs of a tenant at an engine. -/
def State.qpsOf (s : State) (e : Nat) (t : BitVec 12) : List (Nat × Qp) :=
  s.qps.filter fun q => q.1 / 32768 == e && q.2.tid == t

/-- A unit has ended what it had started for a tenant (R331 step 2). -/
def State.unitIdle (s : State) (u : Nat) (t : BitVec 12) : Bool :=
  !s.tenantWork u t && (!(decide (0x10 ≤ u) && decide (u < 0x12)) || (s.qpsOf (u - 0x10) t).all fun q => s.qpIdle q.1 q.2)

/-- Work items that a unit has ended with ABORTED. -/
def State.abortedAt (s : State) (u : Nat) (t : BitVec 12) : Nat :=
  if 0x10 ≤ u ∧ u < 0x12 then (s.qpsOf (u - 0x10) t).foldl (fun a q => a + q.2.aborted) 0 else 0

/-- BLOCK_NOTICE (R369): new work is refused; a quiesce that awaits the unit is answered once its started work has ended.
A RETAINED unit wakes for the notice; one that is off or fenced has nothing of the tenant. -/
def execBlockNotice (engine : Nat) (tid : BitVec 12) (s : State) : Out :=
  onArrival (unitOk engine) (.blockNotice engine tid) s fun s =>
    let note := Instr.blockNotice engine tid
    let d := unitDomain engine
    let x := s.dom d
    let owes := s.router.quiesce.any fun q => q.tid == tid && q.phase == 1 && q.owing.contains engine
    let answer (s : State) (n : Nat) : State := if owes then s.send (.drainedNotice engine tid n) else s
    if s.unitFenced d || x.st == .off then answer s 0
    else if x.st == .run then
      let s := s.blockUnit engine tid
      if engine == 0x16 then
        match s.slotOf tid with
        | some (_, y) => if y.st == .guarded then s else s.mirrorDrained tid
        | none => s.mirrorDrained tid
      else if !owes then s
      else if s.unitIdle engine tid then answer s (s.abortedAt engine tid)
      else s.send note
    else (s.holdAt d note).doorWake d

/-! ### Drain, discard and scrub (R331 steps 2 to 4, R459) -/

def State.setQuiesce (s : State) (q : Option Quiesce) : State := { s with router := { s.router with quiesce := q } }

/-- A unit clears its per-tenant state; its scrubbed notice leaves once its writes are acknowledged. -/
def State.scrubUnit (s : State) (u : Nat) (t : BitVec 12) : State :=
  let d := unitDomain u
  let s :=
    if s.unitFenced d || (s.dom d).st == .off then s
    else if u < 0x10 then s
    else if u < 0x12 then (s.qpsOf (u - 0x10) t).foldl (fun s q => s.freeQp q.1) s
    else if u < 0x16 then s
    else if u == 0x16 then
      match s.slotOf t with
      | some (m, _) => s.removeSlot m
      | none => s
    else
      let g := s.guest
      { s with guest := { g with
          streams := tmap (fun (x : Stream) => if x.tid == t then { x with cfg := setBit x.cfg 63 false } else x) g.streams } }
  s.send (.scrubbedNotice u t)

/-- Discard: the router drops what it holds for the tenant and zeros its record. -/
def State.quiesceDiscard (s : State) (q : Quiesce) : State :=
  let mine := s.router.held.filter fun m => m.1 == q.tid
  let s := { s with router := { s.router with
    held := s.router.held.filter (fun m => m.1 != q.tid),
    discarded := s.router.discarded + BitVec.ofNat 64 mine.length,
    quiesce := some { q with phase := 2 } } }
  s.startWrite routerNode q.tid (s.tenantCls q.tid) (.quiesce q.tid) [(s.pitBase + 512 * q.tid.toNat, List.replicate 512 0)]

/-- The zeros are in memory: the summary bit goes, and every engine scrubs. -/
def State.quiesceZeroed (s : State) (t : BitVec 12) : State :=
  match s.router.quiesce with
  | some q =>
    if q.phase == 2 && q.tid == t then
      let s := { s with router := { s.router with
        summary := s.router.summary.filter (· != t.toNat), quiesce := some { q with phase := 3, owing := blockUnits } } }
      blockUnits.foldl (fun s u => s.scrubUnit u t) s
    else s
  | none => s

/-- DRAINED_NOTICE (R331, R459): when only the mirror engine is awaited, it is told; with the last notice the record is
zeroed. -/
def execDrainedNotice (engine : Nat) (tid : BitVec 12) (aborted : Nat) (s : State) : Out :=
  onArrival (unitOk engine) (.drainedNotice engine tid aborted) s fun s =>
    match s.router.quiesce with
    | some q =>
      if q.tid == tid && q.phase == 1 && q.owing.contains engine then
        let since := match s.slotOf tid with
          | some (_, x) => if engine == 0x16 && x.final == 2 then q.since + (s.now - x.since) else q.since
          | none => q.since
        let q := { q with owing := q.owing.filter (· != engine), aborted := q.aborted + aborted, since := since }
        let s := s.setQuiesce (some q)
        if q.owing.isEmpty then s.quiesceDiscard q
        else if q.owing == [0x16] then
          match s.slotOf tid with
          | some (m, x) => if x.final == 0 then (s.setSlot m { x with final := 1 }).finalStep m else s
          | none => s
        else s
      else s
    | none => s

/-- SCRUBBED_NOTICE (R331): with the last one the tenant is quiesced. -/
def execScrubbedNotice (engine : Nat) (tid : BitVec 12) (s : State) : Out :=
  onArrival (unitOk engine) (.scrubbedNotice engine tid) s fun s =>
    match s.router.quiesce with
    | some q =>
      if q.tid == tid && q.phase == 3 then
        let q := { q with owing := q.owing.filter (· != engine) }
        if q.owing.isEmpty then
          let s := s.setTenant tid { s.tenant tid with quiesced := true, quiescing := false }
          { s with router := { s.router with quiesce := none, qres := s.router.qres.done q.aborted } }
        else s.setQuiesce (some q)
      else s
    | none => s

/-! ### Commands (R331, R332, R458) -/

/-- A QUIESCE_CMD write with GO set (R331, R332, R458). -/
def State.quiesceGo (s : State) (tid : BitVec 12) : State :=
  let s := { s with router := { s.router with qtid := tid } }
  if s.router.quiesce.isSome then s.violate routerBlock
  else
    let s := { s with router := { s.router with qres := s.router.qres.accept } }
    let fail (code detail : Nat) : State := { s with router := { s.router with qres := s.router.qres.fail code detail } }
    if (s.tenant tid).quiescing then fail codeDrainExpired 0
    else
      match s.residentCore tid with
      | some c => fail codeResident c
      | none =>
        match s.usedSlots.find? fun e => e.2.tid == tid && e.2.st == .standby with
        | some (m, _) => fail codeMirrorStandby m
        | none =>
          let s := s.setTenant tid { s.tenant tid with quiescing := true }
          (s.setQuiesce (some ⟨tid, 1, blockUnits, 0, s.now⟩)).blockTenant tid

/-- QUIESCE_CMD_GO (R331, R332, R458). -/
def execQuiesceCmdGo (tid : BitVec 12) (s : State) : Out := .next (s.quiesceGo tid)

/-- The mirror engine is between the final RESUME and the last SENT, which R459 does not count. -/
def State.finalRelease (s : State) (t : BitVec 12) : Bool :=
  match s.slotOf t with
  | some (_, x) => x.final == 2 && x.phase == .none
  | none => false

/-- QUIESCE_DRAIN_EXPIRED (R332). -/
def execQuiesceDrainExpired (s : State) : Out :=
  .next (
    match s.router.quiesce with
    | some q =>
      if q.since + s.drainLimit < s.now && !(q.owing == [0x16] && s.finalRelease q.tid) then
        let stat := ((q.owing.head?).map unitStat).getD 15
        let src := ((q.owing.head?).map fun u => srcCode 0 0 u).getD routerSrc
        let s := { s with router := { s.router with quiesce := none, qres := s.router.qres.fail codeDrainExpired stat } }
        s.fault src 0x44 (some q.tid) stat
      else s
    | none => s)

/-! ### TE_CTL -/

/-- A tenant that is made usable again (R333, R460). -/
def State.unblockTenant (s : State) (t : BitVec 12) : State :=
  let g := s.guest
  let s := { s with
    qps := tmap (fun (q : Qp) => if q.tid == t then { q with blocked := false } else q) s.qps,
    lanes := tmap (fun (x : Lane) => { x with blocked := x.blocked.filter (· != t) }) s.lanes,
    guest := { g with
      streams := tmap (fun (x : Stream) => if x.tid == t then { x with blocked := false } else x) g.streams } }
  let s := match s.slotOf t with
    | some (m, x) => s.setSlot m { x with stopped := false, final := 0 }
    | none => s
  ((s.qps.filter fun e => e.2.tid == t).map (·.1)).foldl (fun s n => (s.kickSend n).kickRecv n) s

/-- A write of TE_CTL. -/
def State.tenantWrite (s : State) (t : BitVec 12) (v : Word) : State :=
  let s := s.setTenant t ((s.tenant t).write v)
  if bit v 63 && !(s.tenant t).quiescing then s.unblockTenant t else s

/-- TE_CTL_WRITE (R318, R324, R333). -/
def execTeCtlWrite (tid : BitVec 12) (value : Word) (s : State) : Out := 
  .next ((s.reserved routerBlock (maskBits 63 60 ||| maskBits 42 40 ||| maskBits 25 16) value).tenantWrite tid value)

end Sys2Proof.Machine
end

