-- ==== Sys2Proof/Machine/Power.lean ====
section
/-! DEFINITION. Power, voltage and time (Chapter 16): drains of switched domains, closing and waking, wakes of the package,
the AVSBus masters, the governor, and the time base. -/

namespace Sys2Proof.Machine

/-! ### Drains (R23, R24, R413, R420) -/

/-- A unit stops and drains, with its power on (R420, R500). -/
def State.beginStop (s : State) (d : Nat) : State :=
  let x := s.dom d
  if x.st == .run && !x.inReset then
    let s := if 684 ≤ d ∧ d < 696 then s.scrubStop (d - 684) else s
    (s.setDom d { x with stopped := true, resetting := false, drainSince := some s.now }).push d false
  else s

/-- A core loads its defaults and seeds and may fetch from RESET_ENTRY. -/
def State.loadCoreSection (s : State) (g : Nat) : State :=
  let w (o n : Nat) : Word := BitVec.ofNat 64 (s.img secCache o n 0)
  let l1 := w (0x20 + 4 * g) 4
  let l2 := w (0x920 + 2 * g) 2
  s.modCore g fun c =>
    let c := (((c.setReg srCacheEn (w 0 8)).setReg srPfCtl (w 8 8)).setReg 0x142 l1).setReg 0x143 l2
    { c with run := .running, lfsrI := seedOf (l1.setWidth 16), lfsrC := seedOf ((l1 >>> 16).setWidth 16),
             lfsr2 := seedOf (l2.setWidth 16) }

/-- A core leaves reset: it fetches once the section has come. -/
def State.leaveReset (s : State) (g : Nat) : State :=
  if s.hasSection true (g / 48) then s.loadCoreSection g
  else s.modCore g fun c => { c with run := .waitSection }

/-- A unit drains before it is held in reset (R23, R496). -/
def State.beginReset (s : State) (d : Nat) : State :=
  let x := s.dom d
  if x.st == .run && !x.inReset then
    (s.setDom d { x with stopped := true, resetting := true, drainSince := some s.now }).push d true
  else if x.st == .retained then (s.clearUnit d).setDom d { x with st := .run, inReset := true, stopped := false }
  else s

/-- The drain under way loses the unit's arrays. -/
def Dom.loses (x : Dom) : Bool := if x.st == .closing then !x.retain else x.resetting

/-- The unit is held in reset at its reset values. -/
def State.holdReset (s : State) (d : Nat) : State :=
  let s := s.clearUnit d
  let s := if d < 576 then s.setCore d { s.core d with run := .reset } else s
  s.setDom d { s.dom d with inReset := true, resetting := false, drainSince := none, stopped := false }

/-! ### Actions of Sequencer rows on domains (R57, R412–R415, R496, R500) -/

/-- A stopped unit takes work again; what waited at its door is passed on. -/
def State.releaseUnit (s : State) (d : Nat) : State :=
  let x := s.dom d
  if x.st == .run && x.stopped && !x.inReset then
    ((s.setDom d { x with stopped := false, resetting := false, drainSince := none }).dropStale d).flushDoor d
  else s

/-- RESTORE: a RETAINED domain wakes, a stopped one is released. -/
def State.restoreDom (s : State) (d : Nat) : State :=
  let s := { s with power := { s.power with asleep := s.power.asleep.filter (· != d) } }
  let x := s.dom d
  if x.st == .retained then s.startWake d else s.releaseUnit d

/-- POWER_OFF or RETAIN at one domain; an uncore waits for the cores of its die. -/
def State.closeDom (s : State) (d : Nat) (retain : Bool) : State :=
  let s := { s with power := { s.power with asleep := s.power.asleep.filter (· != d) } }
  let x := s.dom d
  let code := if retain then 2 else 3
  match x.st with
  | .off => s
  | .retained => if retain then s else (s.setDom d { x with req := 3 }).startWake d
  | .run =>
    if x.inReset && d < 712 then (s.setDom d { x with retain := retain }).endClose d
    else if 712 ≤ d && d < 716 &&
        ((baseParts (d - 712)).any fun p => (s.dom p).st != .retained && (s.dom p).st != .off) then
      s.setDom d { x with req := code }
    else if decide (672 ≤ d) && decide (d < 684) &&
        ((coresOf (d - 672)).any fun g => (s.dom g).st != .retained && (s.dom g).st != .off) then
      s.setDom d { x with req := code }
    else s.beginClose d retain
  | _ => s.setDom d { x with req := code }

/-- RESET_RELEASE at one domain: the unit starts from its reset values. -/
def State.releaseReset (s : State) (d : Nat) : State :=
  let x := s.dom d
  if x.st == .run && x.inReset then
    let s := s.setDom d { x with inReset := false, stopped := false, resetting := false }
    if d < 576 then (s.resetCore d).leaveReset d else s.flushDoor d
  else s

/-- An action, by its ACTION code, begins at a domain. -/
def State.doAct (s : State) (d a : Nat) : State :=
  match a with
  | 3 => s.powerOnDom d
  | 4 => s.closeDom d false
  | 5 => s.closeDom d true
  | 6 => s.restoreDom d
  | 7 => s.beginReset d
  | 8 => s.releaseReset d
  | 9 => s.beginStop d
  | _ => s

/-- A domain is at work on an action: it closes, wakes or drains, or it is an uncore that waits for the parts of its die. -/
def State.atWork (s : State) (d : Nat) : Bool :=
  let x := s.dom d
  x.st == .closing || x.st == .waking || x.drainSince.isSome ||
    (x.st == .run && decide (2 ≤ x.req) && ((decide (672 ≤ d) && decide (d < 684)) || decide (712 ≤ d)))

/-- An action reaches a domain: it begins once those sent before it have ended (R19, R57). -/
def State.sendAct (s : State) (d a : Nat) : State :=
  let x := s.dom d
  if s.atWork d || !x.todo.isEmpty then s.setDom d { x with todo := x.todo ++ [a] } else s.doAct d a

/-- An action has ended: those that waited follow in order. -/
def State.nextActs (s : State) (d : Nat) : State :=
  (List.range (s.dom d).todo.length).foldl (fun s _ =>
    let x := s.dom d
    match x.todo with
    | a :: rest => if s.atWork d then s else (s.setDom d { x with todo := rest }).doAct d a
    | [] => s) s

/-- The drain is over: the command it served is applied; a door that closes does so next. -/
def State.endDrain (s : State) (d : Nat) : State :=
  let x := s.dom d
  if x.st == .closing then s.setDom d { x with drainSince := none }
  else if x.resetting then s.holdReset d
  else
    let s := s.setDom d { x with drainSince := none }
    if s.power.sleep.any fun p => p.owing.contains d then s.send (.sleepAnswer d true) else s

/-- UNIT_DRAINED (R23): more is pushed out of the unit; once nothing is owed the command is applied. -/
def execUnitDrained (d : Nat) (s : State) : Out :=
  onWf (switchOk d)
    (let x := s.dom d
     if x.drainSince.isNone || x.st == .retained || x.st == .off then s
     else
       let s := s.push d x.loses
       if s.drained d x.loses then (s.endDrain d).nextActs d else s)

/-- Lines whose data a unit still owes. -/
def State.owedData (s : State) (d : Nat) (off : Bool) : List Nat :=
  if d < 576 then
    let c := s.core d
    c.sb.map (fun e => e.pa / 64) ++
      (c.evict.filterMap fun e => if e.st == .m || e.st == .o then some e.line else none) ++
      (if off then c.l2.filterMap fun e => if e.2.st == .m || e.2.st == .o then some e.2.line else none else [])
  else s.owes d off

/-- DRAIN_LIMIT_EXPIRY (R24): one fault for each address still owed, then the command is applied. -/
def execDrainLimitExpiry (d : Nat) (s : State) : Out :=
  onWf (switchOk d)
    (let x := s.dom d
     match x.drainSince with
     | none => s
     | some t =>
       if s.now < t + s.drainLimit || x.st == .retained || x.st == .off then s
       else
         let owed := (s.owedData d x.loses).eraseDups
         let s := owed.foldl (fun s l => s.fault (s.domSrc d) 0x12 none (64 * l)) s
         let s := if d < 576 then
             { s with hier := { s.hier with lost := s.hier.lost ++ owed.map fun l => (d, l) } }
           else s
         (s.endDrain d).nextActs d)

/-- A close of an uncore that a row of its die asked for follows the last of the die's other domains (R415, R496). -/
def State.uncoreNext (s : State) (d : Nat) : State :=
  let x := s.dom d
  let open_ := decide (712 ≤ d) && (baseParts (d - 712)).any fun p => (s.dom p).st != .off && (s.dom p).st != .retained
  if 2 ≤ x.req && x.req ≤ 3 && !s.reqForbidden d x.req && !open_ then
    if x.st == .run then (s.setDom d { x with req := 0 }).beginClose d (x.req == 2) else s.pendingReq d
  else s

/-- The uncore that a core's, bank group's or stack controller's domain shares its die with. -/
def uncoreOf (d : Nat) : Option Nat :=
  if d < 576 then some (uncoreDomain (d / 48)) else if d < 672 then some (baseUncore ((d - 576) / 24))
  else if 684 ≤ d ∧ d < 696 then some (baseUncore ((d - 684) / 3)) else none

/-- DOMAIN_CLOSE_COMPLETE (R413): the door closes and the switch opens once the drain has ended. -/
def execDomainCloseComplete (d : Nat) (s : State) : Out :=
  onWf (switchOk d)
    (let x := s.dom d
     if x.st == .closing && x.drainSince.isNone then
       let s := ((s.endClose d).pendingReq d).nextActs d
       match uncoreOf d with
       | some u => s.uncoreNext u
       | none => s
     else s)

/-- DOMAIN_WAKE_COMPLETE (R414, R415, R417): a core waits for its uncore. -/
def execDomainWakeComplete (d : Nat) (s : State) : Out :=
  onWf (switchOk d)
    (if (s.dom d).st == .waking && (576 ≤ d || (s.dom (uncoreDomain (d / 48))).st == .run) then
       ((s.endWake d).pendingReq d).nextActs d
     else s)

/-! ### Wakes of the package (R418, R419, R422) -/

/-- Whether a package-state table is running or queued. -/
def packageEntry (p : Nat) : Bool := p == purposeHold || p == purposeOff

def State.entryQueued (s : State) : Bool := s.seq.queue.any fun r => packageEntry r.purpose

/-- A queued entry to Hold or Off is withdrawn. -/
def State.withdrawEntry (s : State) : State :=
  let gone := s.seq.queue.filter fun r => packageEntry r.purpose && s.abortable r.purpose
  let s := { s with seq := { s.seq with queue := s.seq.queue.filter fun r => !gone.contains r } }
  gone.foldl (fun s r => s.reportReq r false 0 codeAborted 0) s

/-- A wake source matters now: in Hold or Off, or during or before an entry. -/
def State.wakeCounts (s : State) : Bool :=
  s.power.pkg == 2 || s.power.pkg == 3 || packageEntry s.runningPurpose || s.entryQueued

/-- The event of a wake from Hold or Off (Table 19-6). -/
def State.wakeEvent (s : State) : State :=
  s.sendEvent 5 (leBytes 8 (2 * s.power.wakeSmbus.toNat + s.power.wakeTimer.toNat))

/-- A wake source fires. -/
def State.wake (s : State) : State :=
  if packageEntry s.runningPurpose then
    if (s.seq.run.any fun r => r.committed) || !s.abortable s.runningPurpose then
      { s with power := { s.power with wakeAfter := true } }
    else s.seqAbort
  else if s.power.pkg == 2 then
    if s.runningPurpose == purposeExitHold || s.runningPurpose == purposeFullReset then s
    else s.wakeEvent.queueReq ⟨purposeExitHold, 0, 0⟩
  else if s.power.pkg == 3 then if s.seq.active.isSome then s.wakeEvent.send (.fullReset 4) else s
  else
    let s := if s.seq.queue.any fun r => packageEntry r.purpose && !s.abortable r.purpose then
        { s with power := { s.power with wakeAfter := true } } else s
    s.withdrawEntry

/-- WAKE_TIMER (R419): TIME has reached WAKE_TIME. -/
def execWakeTimer (s : State) : Out :=
  .next (
    if s.power.wakeTime.toNat ≤ s.now && !s.power.timerFired && s.wakeCounts then
      ({ s with power := { s.power with timerFired := true, wakeTimer := true } } : State).wake
    else s)

/-- The address that the SMBus target answers at (R486). -/
def State.smbAddress (s : State) : BitVec 7 := 0x30 + s.board.smbAddr.setWidth 7

/-- SMBUS_QUICK_COMMAND (R373, R419). -/
def execSmbusQuickCommand (addr : BitVec 7) (write : Bool) (s : State) : Out :=
  .next (
    if addr == s.smbAddress && write && !s.board.cold && s.wakeCounts then
      ({ s with power := { s.power with wakeSmbus := true } } : State).wake
    else s)

/-- PKG_STATE.STATE (Table 16-3). -/
def State.pkgState (s : State) : Nat :=
  if s.seq.active.isNone then 3
  else if s.power.pkg == 2 || s.power.pkg == 3 then s.power.pkg
  else if (List.range 712).all fun d => !s.domEnabled d || s.portOff d || (s.dom d).st == .run then 0
  else 1

/-- Some persistent-log record is unacknowledged (R451). -/
def State.unacked (s : State) : Nat := (s.fc.plog.filter fun e => !e.2.acked).length

/-- SMBUS_READ_BYTE (R373): every other command code is not acknowledged. -/
def execSmbusReadByte (addr : BitVec 7) (code : Byte) (s : State) : Out :=
  .next (
    if addr == s.smbAddress && !s.board.cold then
      let a : Option Byte :=
        if code == 0 then some (BitVec.ofNat 8 s.pkgState)
        else if code == 1 then some (if s.unacked == 0 then 0 else 1)
        else if code == 2 then some 0x48
        else none
      { s with out := s.out ++ [.smbus a] }
    else s)

/-! ### AVSBus (R425, R426, R444) -/

/-- A request reaches the master of its rail. -/
def State.avsAsk (s : State) (r mv limit : Nat) (row : Bool) : State :=
  let m := avsMaster r
  let q := s.avsQueue m
  let s := s.setAvs m (q ++ [⟨r, mv, false, false, s.now + limit, row⟩])
  if q.isEmpty then s.avsDrive m else s

/-- What the target of the running row answers: 1 acknowledged or met, 2 error or failed. -/
def State.seqAnswer (s : State) (n : Nat) : State :=
  match s.seq.run with
  | some r => if r.waiting && r.outcome == 0 then { s with seq := { s.seq with run := some { r with outcome := n } } } else s
  | none => s

/-- A request has failed (R426, R444, R500). -/
def State.avsFail (s : State) (m : Nat) (x : AvsReq) : State :=
  let s := if x.row then s.seqAnswer 2
    else
      let r := s.rail x.rail
      let ts := (r.failTimes.filter fun t => s.now < t + 1000000000) ++ [s.now]
      (s.setRail x.rail { r with
        fails := satInc 16 r.fails, failTimes := ts, abandoned := r.abandoned || decide (16 < ts.length) }).fault
        (srcCode 0 0 (0x1B + m)) 0x71 none x.rail
  s.avsNext m

/-- AVS_RESPONSE (R426): the answer to a voltage write. -/
def execAvsResponse (master : Nat) (good : Bool) (s : State) : Out :=
  onWf (masterOk master)
    (match s.avsQueue master with
     | x :: q =>
       if x.polling then s
       else if good then
         let s := s.setAvs master ({ x with polling := true } :: q)
         { s with out := s.out ++ [.avsStatus master (avsSelect x.rail)] }
       else if x.second then s.avsFail master x
       else (s.setAvs master ({ x with second := true } :: q)).avsDrive master
     | [] => s)

/-- AVS_STATUS_READ (R426): VDone ends the request; without it the master reads again. -/
def execAvsStatusRead (master : Nat) (vdone : Bool) (s : State) : Out :=
  onWf (masterOk master)
    (match s.avsQueue master with
     | x :: _ =>
       if !x.polling then s
       else if vdone then
         let s := s.setRail x.rail { s.rail x.rail with nowMv := x.mv }
         (if x.row then s.seqAnswer 1 else s).avsNext master
       else { s with out := s.out ++ [.avsStatus master (avsSelect x.rail)] }
     | [] => s)

/-- AVS_REQUEST_FAIL (R426): the limit of the master's request has passed. -/
def execAvsRequestFail (master : Nat) (s : State) : Out :=
  onWf (masterOk master)
    (match s.avsQueue master with
     | x :: _ => if x.deadline ≤ s.now then s.avsFail master x else s
     | [] => s)

/-! ### The governor (R328, R408, R429, R430, R466) -/

/-- One class of one base die at the end of an interval: its RATE and QUOTA. -/
def State.governClass (s : State) (d q : Nat) : State :=
  let k := 8 * d + q
  let cls := BitVec.ofNat 3 q
  let pct := s.img secQos 1 1 10
  let rateMax := s.qosField q 8 4 6000000
  let quotaMax := s.qosField q 2 2 256
  let rs := max 1 (pct * rateMax / 100)
  let qs := max 1 ((pct * quotaMax + 99) / 100)
  let sum (f : BitVec 3 → Nat) : Nat := (List.range 8).foldl (fun a r => a + f (BitVec.ofNat 3 r)) 0
  let rate := s.rate d cls
  let room := 6000000 - sum (s.rate d)
  let rate := if s.qos.starved.contains k && 0 < room then min (rate + min rs room) rateMax
    else if 2 * tget s.qos.used k 0 < 100 * rate then max (rate - rs) (s.qosField q 4 4 1000)
    else rate
  let quota := s.quota d cls
  let qroom := 256 - sum (s.quota d)
  let quota := if s.qos.declined.contains k && 0 < qroom then min (quota + min qs qroom) quotaMax
    else if 2 * tget s.qos.occ k 0 < 256 * quota then max (quota - qs) (s.qosField q 0 2 0)
    else quota
  let level := s.bucketNow d cls
  { s with qos := { s.qos with
      rate := tput s.qos.rate k rate, quota := tput s.qos.quota k quota,
      bucket := tput s.qos.bucket k (min level (rate * 10000), s.now) } }

/-- R328 over every enabled base die, classes from 7 down. -/
def State.governQos (s : State) : State :=
  let s := if s.qos.run then
      s.bases.foldl (fun s d => (List.range 8).reverse.foldl (fun s q => s.governClass d q) s) s
    else s
  { s with qos := { s.qos with
      intervals := s.qos.intervals + 1, used := [], starved := [], declined := [], occ := [] } }

/-- The throttle of the mirrored tenants (R408): S is 19,000,000 bytes × MIRROR_SHARE ÷ 100 ÷ the tenants of the class. -/
def State.governMirror (s : State) : State :=
  let live (x : Slot) : Bool := x.active && (x.st == .guarded || x.st == .syncing)
  let all := (s.mirror.slots.filter fun e => live e.2).map fun e => (e.1, s.tenantCls e.2.tid)
  all.foldl (fun s e =>
    let x := s.slot e.1
    let n := (all.filter fun a => a.2 == e.2).length
    let share := 190000 * s.qosField e.2.toNat 0x10 1 12
    let level := if share < n * x.volume then min 15 (x.level + 1)
      else if 2 * n * x.volume < share then x.level - 1
      else x.level
    s.setSlot e.1 { x with level := level, volume := 0 }) s

/-- The rail of a compute die may be asked for a voltage now: no table runs, it is not given up, nothing is pending. -/
def State.railFree (s : State) (r : Nat) : Bool :=
  s.seq.run.isNone && !(s.rail r).abandoned && !((s.avsQueue (avsMaster r)).any fun x => x.rail == r)

/-- Thermal and power steps of one compute die (R429, R430). -/
def State.governDie (s : State) (c : Nat) : State :=
  let t := tget s.power.sensor c 25
  let lim := s.img secPower 4 1 95
  let now := tget s.power.dieLevel c 0
  let r := s.rail c
  let ask (mv : Nat) : State := if s.railFree c && mv != r.nowMv then s.avsAsk c mv 1000000 false else s
  let (heat, s) :=
    if lim ≤ t then (min 15 (now + 2), if 600 < r.nowMv then ask (max 600 (r.nowMv - 10)) else s)
    else if lim ≤ t + 5 then (min 15 (now + 1), s)
    else if t + 10 < lim then
      if now == 0 then (0, if r.nowMv < r.setMv then ask (min r.setMv (r.nowMv + 10)) else s) else (now - 1, s)
    else (now, s)
  let power := if s.power.ceil < s.power.now then min 15 (now + 1)
    else if 100 * s.power.now < 95 * s.power.ceil then max (now - 1) heat
    else now
  let hot := decide (lim + 10 < t)
  let fresh := hot && !s.power.critical.contains c
  let s := { s with power := { s.power with
    dieLevel := tput s.power.dieLevel c (max heat power), thermal := tput s.power.thermal c heat,
    critical := if hot then insertNew s.power.critical c else s.power.critical.filter (· != c) } }
  if fresh then s.fault (srcCode 2 c 0x40) 0x72 none t else s

/-- Those who report to the governor once an interval, by class × 16 + index (R430). -/
def State.reporters (s : State) : List (Nat × BitVec 16) :=
  [(0, srcCode 0 0 0)] ++ (s.bases.map fun n => (16 + n, srcCode 1 n 0x60)) ++
    (s.stacks.map fun k => (48 + k, srcCode 3 k 0))

/-- The rail currents give POWER_NOW, in W (R430). -/
def State.readPower (s : State) (ma : List Nat) : State :=
  let s := (List.range 24).foldl (fun s r => s.setRail r { s.rail r with milliamps := ma.getD r 0 }) s
  let uw (r : Nat) : Nat := (s.rail r).nowMv * (s.rail r).milliamps
  let total := (List.range 24).foldl (fun a r => a + uw r) 0
  { s with power := { s.power with
      now := min 65535 (total / 1000000), outside := (total - uw 23) / 1000000 } }

/-- GOVERNOR_INTERVAL (R328, R408, R429, R430): the currents of rails 0 to 23 are read; then every adjustment. -/
def execGovernorInterval (milliamps : List Nat) (s : State) : Out :=
  .next (
    if s.seq.active.isNone || s.power.pkg == 3 then s
    else
      let s := s.readPower milliamps
      let s := s.reporters.foldl (fun s e =>
        let a := tget s.power.age e.1 0 + 1
        let s := { s with power := { s.power with age := tput s.power.age e.1 a } }
        if a == 10 then s.fault e.2 0x73 none 0 else s) s
      if s.isFenced 1430 then s
      else
        let s := (s.governQos).governMirror
        ((List.range 12).filter s.computeEn).foldl (fun s c => s.governDie c) s)

/-- DIE_BUDGET_REPORT (R430): a base die names the hottest of its sensors beneath each of its compute dies. -/
def execDieBudgetReport (cls die _watts : Nat) (temps : List Nat) (s : State) : Out :=
  onWf (reporterOk cls die)
    (let s := { s with power := { s.power with age := tput s.power.age (16 * cls + die) 0 } }
     if cls == 1 then
       (List.range 3).foldl (fun s i =>
         match temps[i]? with
         | some t => { s with power := { s.power with sensor := tput s.power.sensor (3 * die + i) t } }
         | none => s) s
     else s)

/-- A write of POWER_CEIL (Table 16-5). -/
def State.putCeil (s : State) (v : Word) : State :=
  { s with power := { s.power with ceil := max 1200 (min (fld v 0 16) (s.img secPower 2 2 2400)) } }

/-- POWER_CEIL_WRITE (Table 16-5). -/
def execPowerCeilWrite (v : Word) (s : State) : Out := .next ((s.reserved powerBlock (maskBits 15 0) v).putCeil v)

/-! ### The time base (R432, R443) -/

/-- The rate error of the internal oscillator while the reference is lost, in parts per 10^9: a free value within 50 ppm. -/
def State.oscillator (s : State) : Int :=
  if s.board.clocks.contains 0 then (fld (Config.freeWord s.free) 0 32 % 100001 : Int) - 50000 else 0

/-- Reference periods of 6.4 ns pass. -/
def State.advance (s : State) (n : Nat) : State :=
  let rate : Int := 1000000000 + s.time.slew.toInt + s.oscillator
  { s with
    time := { s.time with sub := s.time.sub + 64 * n * rate.toNat },
    free := if s.board.clocks.contains 0 then s.free + 1 else s.free }

/-- TIME_BASE_UPDATE (R432): the periods since the last one have passed. -/
def execTimeBaseUpdate (periods : Nat) (s : State) : Out := .next (s.advance periods)

/-- The time base's block. -/
def timeBlock : Nat := hubBlock 0x8000000

/-- A write of TB_STEP (R432). -/
def State.stepTime (s : State) (v : Word) : State :=
  { s with time := { s.time with sub := s.time.sub + fld v 0 32 * 10 ^ 10 } }

/-- A write of TB_SLEW (R432): clamped to ±200,000. -/
def State.slewTime (s : State) (v : Word) : State :=
  let x : Int := (v.extractLsb' 0 32).toInt
  { s with time := { s.time with slew := BitVec.ofInt 32 (max (-200000) (min 200000 x)) } }

/-- TB_STEP (R432). -/
def execTbStep (v : Word) (s : State) : Out := .next ((s.reserved timeBlock (maskBits 31 0) v).stepTime v)

/-- TB_SLEW (R432). -/
def execTbSlew (v : Word) (s : State) : Out := .next ((s.reserved timeBlock (maskBits 31 0) v).slewTime v)

end Sys2Proof.Machine
end

