-- ==== Sys2Proof/Machine/Float.lean ====
section
/-! DEFINITION. IEEE 754-2019 arithmetic on binary64 and binary32 (R83): every operation computes exactly on integers and
rounds once, to nearest, ties to even. -/

namespace Sys2Proof.Machine

/-- A binary format: exponent bits and stored significand bits. -/
structure Fmt where
  eb : Nat
  mb : Nat
  deriving DecidableEq, Repr

def f64 : Fmt := ⟨11, 52⟩
def f32 : Fmt := ⟨8, 23⟩

/-- A decoded number: a finite value is (−1)^s × m × 2^e. -/
inductive Fp where
  | nan
  | inf (s : Bool)
  | fin (s : Bool) (m : Nat) (e : Int)
  deriving DecidableEq, Repr

/-- Exponent of the last place of a subnormal. -/
def Fmt.emin (f : Fmt) : Int := 2 - 2 ^ (f.eb - 1) - f.mb

/-- The encoding of positive infinity. -/
def Fmt.infBits (f : Fmt) : Nat := (2 ^ f.eb - 1) * 2 ^ f.mb

/-- The canonical quiet NaN (R83). -/
def Fmt.nanBits (f : Fmt) : Nat := f.infBits + 2 ^ (f.mb - 1)

/-- The value an encoding stands for. -/
def fpDecode (f : Fmt) (b : Nat) : Fp :=
  let s := b / 2 ^ (f.eb + f.mb) % 2 == 1
  let e := b / 2 ^ f.mb % 2 ^ f.eb
  let m := b % 2 ^ f.mb
  if e == 2 ^ f.eb - 1 then (if m == 0 then .inf s else .nan)
  else if e == 0 then .fin s m f.emin
  else .fin s (m + 2 ^ f.mb) (f.emin + e - 1)

/-- The sign bit's weight. -/
def fpSign (f : Fmt) (s : Bool) : Nat := if s then 2 ^ (f.eb + f.mb) else 0

/-- Number of significant bits. -/
def bitLen (m : Nat) : Nat := if m == 0 then 0 else Nat.log2 m + 1

/-- Round (−1)^s × m × 2^e to nearest, ties to even. -/
def fpRound (f : Fmt) (s : Bool) (m : Nat) (e : Int) : Nat :=
  if m == 0 then fpSign f s
  else
    let q : Int := max (e + bitLen m - (f.mb + 1)) f.emin
    let n : Nat :=
      if q ≤ e then m * 2 ^ (e - q).toNat
      else
        let d := (q - e).toNat
        let t := m / 2 ^ d
        let r := m % 2 ^ d
        let half := 2 ^ (d - 1)
        if r > half || (r == half && t % 2 == 1) then t + 1 else t
    let b := (q - f.emin).toNat * 2 ^ f.mb + n
    fpSign f s + (if b < f.infBits then b else f.infBits)

/-- Encode a decoded number (finite numbers rounded). -/
def fpEncode (f : Fmt) : Fp → Nat
  | .nan => f.nanBits
  | .inf s => fpSign f s + f.infBits
  | .fin s m e => fpRound f s m e

def signed (s : Bool) (m : Nat) : Int := if s then -(m : Int) else m

/-- The exact sum of two decoded numbers, as a decoded number. -/
def fpAddExact : Fp → Fp → Fp
  | .nan, _ => .nan
  | _, .nan => .nan
  | .inf s, .inf t => if s == t then .inf s else .nan
  | .inf s, .fin _ _ _ => .inf s
  | .fin _ _ _, .inf t => .inf t
  | .fin s m e, .fin t n g =>
    let k := min e g
    let v := signed s (m * 2 ^ (e - k).toNat) + signed t (n * 2 ^ (g - k).toNat)
    if v == 0 then .fin (s && t) 0 k else .fin (v < 0) v.natAbs k

/-- The exact product of two decoded numbers. -/
def fpMulExact : Fp → Fp → Fp
  | .nan, _ => .nan
  | _, .nan => .nan
  | .inf s, .inf t => .inf (s != t)
  | .inf s, .fin t n _ => if n == 0 then .nan else .inf (s != t)
  | .fin s m _, .inf t => if m == 0 then .nan else .inf (s != t)
  | .fin s m e, .fin t n g => .fin (s != t) (m * n) (e + g)

def fpNegate : Fp → Fp
  | .nan => .nan
  | .inf s => .inf (!s)
  | .fin s m e => .fin (!s) m e

def fpAdd (f : Fmt) (a b : Nat) : Nat := fpEncode f (fpAddExact (fpDecode f a) (fpDecode f b))
def fpSub (f : Fmt) (a b : Nat) : Nat := fpEncode f (fpAddExact (fpDecode f a) (fpNegate (fpDecode f b)))
def fpMul (f : Fmt) (a b : Nat) : Nat := fpEncode f (fpMulExact (fpDecode f a) (fpDecode f b))

/-- a × b + c with one rounding. -/
def fpFma (f : Fmt) (a b c : Nat) : Nat :=
  fpEncode f (fpAddExact (fpMulExact (fpDecode f a) (fpDecode f b)) (fpDecode f c))

def fpDiv (f : Fmt) (a b : Nat) : Nat :=
  match fpDecode f a, fpDecode f b with
  | .nan, _ => f.nanBits
  | _, .nan => f.nanBits
  | .inf _, .inf _ => f.nanBits
  | .inf s, .fin t _ _ => fpEncode f (.inf (s != t))
  | .fin s _ _, .inf t => fpSign f (s != t)
  | .fin s m e, .fin t n g =>
    if n == 0 then (if m == 0 then f.nanBits else fpEncode f (.inf (s != t)))
    else
      let k := f.mb + 3 + bitLen n
      let q := m * 2 ^ k / n
      let sticky := if m * 2 ^ k % n == 0 then 0 else 1
      fpRound f (s != t) (2 * q + sticky) (e - g - k - 1)

/-- The integer square root, one result bit for each unit of fuel. -/
def isqrt (n : Nat) : Nat → Nat
  | 0 => 0
  | k + 1 =>
    let r := 2 * isqrt (n / 4) k
    if (r + 1) * (r + 1) ≤ n then r + 1 else r

def fpSqrt (f : Fmt) (a : Nat) : Nat :=
  match fpDecode f a with
  | .nan => f.nanBits
  | .inf s => if s then f.nanBits else f.infBits
  | .fin s m e =>
    if m == 0 then fpSign f s
    else if s then f.nanBits
    else
      let odd := (e % 2 == 1)
      let m1 := if odd then 2 * m else m
      let e1 := if odd then e - 1 else e
      let k := f.mb + 3
      let v := m1 * 4 ^ k
      let r := isqrt v (f.mb + f.mb + 10)
      let sticky := if r * r == v then 0 else 1
      fpRound f false (2 * r + sticky) (e1 / 2 - k - 1)

/-- Ordered comparison: a < b, false with a NaN. -/
def fpLt (f : Fmt) (a b : Nat) : Bool :=
  match fpDecode f a, fpDecode f b with
  | .nan, _ => false
  | _, .nan => false
  | .inf s, .inf t => s && !t
  | .inf s, .fin _ _ _ => s
  | .fin _ _ _, .inf t => !t
  | .fin s m e, .fin t n g =>
    let k := min e g
    signed s (m * 2 ^ (e - k).toNat) < signed t (n * 2 ^ (g - k).toNat)

/-- Ordered comparison: a = b, false with a NaN. -/
def fpEq (f : Fmt) (a b : Nat) : Bool :=
  match fpDecode f a, fpDecode f b with
  | .nan, _ => false
  | _, .nan => false
  | .inf s, .inf t => s == t
  | .fin s m e, .fin t n g =>
    let k := min e g
    signed s (m * 2 ^ (e - k).toNat) == signed t (n * 2 ^ (g - k).toNat)
  | _, _ => false

/-- The sign bit of an encoding. -/
def fpNeg (f : Fmt) (a : Nat) : Bool := a / 2 ^ (f.eb + f.mb) % 2 == 1

/-- minimumNumber, with −0 below +0 (R83). -/
def fpMin (f : Fmt) (a b : Nat) : Nat :=
  match fpDecode f a, fpDecode f b with
  | .nan, .nan => f.nanBits
  | .nan, _ => b
  | _, .nan => a
  | _, _ => if fpLt f a b then a else if fpLt f b a then b else if fpNeg f a then a else b

/-- maximumNumber, with −0 below +0 (R83). -/
def fpMax (f : Fmt) (a b : Nat) : Nat :=
  match fpDecode f a, fpDecode f b with
  | .nan, .nan => f.nanBits
  | .nan, _ => b
  | _, .nan => a
  | _, _ => if fpLt f b a then a else if fpLt f a b then b else if fpNeg f a then b else a

/-- FCVTI: toward zero, saturating, NaN to 0 (R83). -/
def fpToInt64 (a : Word) : Word :=
  match fpDecode f64 a.toNat with
  | .nan => 0
  | .inf s => if s then BitVec.intMin 64 else BitVec.intMax 64
  | .fin s m e =>
    let t : Nat := if 0 ≤ e then m * 2 ^ e.toNat else m / 2 ^ (-e).toNat
    if s then (if t ≥ 2 ^ 63 then BitVec.intMin 64 else BitVec.ofInt 64 (-(t : Int)))
    else (if t ≥ 2 ^ 63 then BitVec.intMax 64 else BitVec.ofNat 64 t)

/-- FCVTF: the signed integer rounded to binary64. -/
def fpOfInt64 (a : Word) : Word :=
  let v := a.toInt
  BitVec.ofNat 64 (fpRound f64 (v < 0) v.natAbs 0)

end Sys2Proof.Machine
end

