-- ==== Sys2Proof/Machine/Collector.lean ====
section
/-! DEFINITION. The fault collector (Chapter 17): severity and escalation, reactions, fences, the loss of a base die, reference
clocks, and the requests for resets. -/

namespace Sys2Proof.Machine

def collectorBlock : Nat := hubBlock 0x100000

/-- The hub logic outside VAON runs: an image is active, the package is not Off, and no row has powered it off or holds it in
reset (R496). -/
def State.hubOn (s : State) : Bool :=
  s.seq.active.isSome && s.power.pkg != 3 && (s.dom hubLogic).st == .run && !(s.dom hubLogic).inReset

/-! ### Severity and numbering (R436, R437) -/

/-- The Octost severities of Table 17-3, used with no image (R497). -/
def octostSeverity (kind : Nat) : Nat :=
  if [0x25, 0x26, 0x80, 0x81].contains kind then 5
  else if [0x07, 0x27].contains kind then 2
  else if [0x03, 0x20, 0x23, 0x30, 0x52, 0x70].contains kind then 0
  else 1

/-- The severity of a message: the first override that matches, else the byte of its kind (R436). -/
def State.severity (s : State) (src : BitVec 16) (kind : BitVec 8) : Nat :=
  match s.seq.active with
  | none => octostSeverity kind.toNat
  | some im =>
    let fits (i : Nat) : Bool :=
      let o := 0x110 + 8 * i
      let diff : BitVec 16 := src ^^^ BitVec.ofNat 16 (im.sec secFault o 2)
      diff &&& BitVec.ofNat 16 (im.sec secFault (o + 2) 2) == 0 &&
        (im.sec secFault (o + 5) 1 % 2 == 1 || im.sec secFault (o + 4) 1 == kind.toNat)
    match (List.range (im.sec secFault 4 2)).find? fits with
    | some i => im.sec secFault (0x110 + 8 * i + 6) 1
    | none => im.sec secFault (0x10 + kind.toNat) 1

/-- Store and number a message; the level computed and its record (R437). -/
def State.storeFault (s : State) (src : BitVec 16) (kind : BitVec 8) (tid : Option (BitVec 12)) (addr : Nat) :
    Nat × State :=
  let f := s.fc
  let pair := 16 * src.toNat + kind.toNat / 16
  let esc : Bool := decide (f.acked < tget f.newest pair 0)
  let sev := s.severity src kind
  let level := if esc then min 5 (sev + 1) else sev
  let n := f.last + 1
  let r := faultRecord src kind tid level esc addr n
  let full : Bool := match tfind? f.log (n % 1024) with
    | some old => decide (f.acked < fld old 0 32)
    | none => false
  let s := { s with fc := { f with
    last := n, log := tput f.log (n % 1024) r, newest := tput f.newest pair n,
    overwritten := if full == true then satInc 32 f.overwritten else f.overwritten,
    noted := if 1 ≤ level then n else f.noted } }
  let s := s.sendEvent 2 (toBytes r 16)
  (level, if 2 ≤ level then s.plogWrite r else s)

/-! ### FAULT_NOTIFY (R438) -/

/-- FAULT_NOTIFY is pending on NOTIFY_CORE while an unacknowledged record of level 1 or above stands, and at H on the cores
that a level-3 reaction named. -/
def State.notifyCores (s : State) : State :=
  let f := s.fc
  let on := f.notifyEn && decide (f.acked < f.noted)
  let stops := f.stops.filter fun x => decide (f.acked < x.1)
  let upd (e : Nat × Core) : Nat × Core :=
    (e.1, { e.2 with notify := on && e.1 == f.notifyCore.toNat, notifyH := stops.any fun x => x.2 == e.1 })
  { s with fc := { f with stops := stops }, cores := s.cores.map upd }

/-! ### Fences (R439–R441, Table 17-6) -/

/-- A fenced core: its retired stores and its L2 drain and the domain is powered off; a domain that does not run is off at
once, and a retained core's modified lines are lost (R440). -/
def State.fenceCore (s : State) (g : Nat) : State :=
  let x := s.dom g
  match x.st with
  | .run => if x.inReset then s.setDom g { x with st := .off, todo := [] } else
      let s := s.modCore g fun c => { c with stall := .none }
      (s.setDom g { x with
        st := .closing, retain := false, resetting := false, stopped := false, drainSince := some s.now, todo := [] }).push g true
  | .off => s
  | _ =>
    let owed := (s.owedData g true).eraseDups
    let s := owed.foldl (fun s l => s.fault (s.domSrc g) 0x12 none (64 * l)) s
    let s := { s with hier := { s.hier with lost := s.hier.lost ++ owed.map fun l => (g, l) } }
    (s.clearUnit g).setDom g { s.dom g with st := .off, drainSince := none, req := 0, held := [], todo := [] }

/-- A slice writes its modified lines to DRAM; what was clean goes. -/
def State.fenceSlice (s : State) (h : Nat) : State :=
  let s := (s.slice h).lines.foldl (fun s e => s.slotWrite h e.1 e.2) s
  s.setSlice h { s.slice h with lines := [] }

/-- What follows from the loss of the memory of some stacks (R467, R468). -/
def State.memoryLost (s : State) : State := s.evictLost.mirrorLost

/-- Work of an engine's node is abandoned. -/
def State.abandonNode (s : State) (node : Nat) : State :=
  { s with readers := s.readers.filter fun r => r.node != node, writers := s.writers.filter fun w => w.node != node }

/-- The cores of a compute die that the image assigns. -/
def State.coresOn (s : State) (c : Nat) : List Nat := (coresOf c).filter s.coreEnabled

/-- Apply a fence: to a unit by its number in `fenced`. -/
def State.fenceUnit (s : State) (u : Nat) : State :=
  if s.isFenced u then s
  else
    let s := { s with fenced := s.fenced ++ [u] }
    if u < 576 then s.fenceCore u
    else if 684 ≤ u ∧ u < 696 then s.memoryLost
    else if 696 ≤ u ∧ u < 704 then s.portFenced (u - 696)
    else if 704 ≤ u ∧ u < 708 then s.laneFenced (u - 704)
    else if 708 ≤ u ∧ u < 710 then s.abandonNode (engineNode (u - 708))
    else if u == 710 then s.breakPair 0
    else if u == 711 then s.guestFence true
    else if 1000 ≤ u ∧ u < 1384 then s.fenceSlice (u - 1000)
    else if 1410 ≤ u ∧ u < 1422 then
      (s.coresOn (u - 1410)).foldl (fun s g =>
        if s.isFenced g then s else { s with fenced := s.fenced ++ [g] }.fenceCore g) s
    else s

/-- A fence's unit has finished what fencing asks of it. -/
def State.fenceDone (s : State) (u : Nat) : Bool :=
  if u < 576 then (s.dom u).st == .off
  else if 1000 ≤ u ∧ u < 1384 then (s.slice (u - 1000)).lines.isEmpty
  else if 1410 ≤ u ∧ u < 1422 then (s.coresOn (u - 1410)).all fun g => (s.dom g).st == .off
  else if 684 ≤ u ∧ u < 696 then (s.mc (u - 684)).queue.isEmpty
  else true

/-- FENCE_COMPLETE (R441): a compute die's uncore goes off after its cores; then the status bit sets. -/
def execFenceComplete (u : Nat) (s : State) : Out :=
  onWf (fenceOk u)
    (if !s.isFenced u || s.fc.done.contains u then s
     else
       let s := if 1000 ≤ u ∧ u < 1384 then s.fenceSlice (u - 1000) else s
       if s.fenceDone u then
         let s := if 1410 ≤ u ∧ u < 1422 then
             let d := uncoreDomain (u - 1410)
             s.setDom d { s.dom d with st := .off, drainSince := none }
           else s
         let cores := if 1410 ≤ u ∧ u < 1422 then s.coresOn (u - 1410) else []
         { s with fc := { s.fc with done := (cores ++ [u]).foldl insertNew s.fc.done } }
       else s)

/-- The fence that a source names (Table 17-2): none for a unit whose fence is a full reset or the loss of a base die. -/
def State.fenceOf (s : State) (src : BitVec 16) : Option Nat :=
  let cls := fld src 12 4
  let die := fld src 8 4
  let unit := fld src 0 8
  if cls == 0 then if 8 ≤ unit ∧ unit ≤ 0x17 then some (unitDomain unit) else if unit == 4 then some 1430 else none
  else if cls == 1 then if unit < 0x60 then some (1000 + 96 * die + unit) else none
  else if cls == 2 then if unit < 0x34 then s.coreOfTile die unit else some (1410 + die)
  else if cls == 3 then some (stackDomain die)
  else some guestDomain

/-! ### Loss of a base die (R445) -/

/-- The collector reports a base die lost. -/
def State.loseBase (s : State) (n : Nat) : State :=
  if s.fc.lost.contains n then s else s.fault (srcCode 1 n 0x60) 0x81 none n

/-- Lines homed on a base die leave every cache, modified data and all. -/
def State.dropHomed (s : State) (n : Nat) : State :=
  let here (line : Nat) : Bool := (s.locate line).any fun p => p.base == n
  let clean (c : Core) : Core := { c with
    l1i := c.l1i.filter fun e => !here e.2.line, l1d := c.l1d.filter fun e => !here e.2.line,
    l2 := c.l2.filter fun e => !here e.2.line, fmap := c.fmap.filter fun e => !here e.2.line,
    evict := c.evict.filter fun e => !here e.line, haze := c.haze.filter fun e => !here e.line }
  { s with
    cores := tmap clean s.cores,
    hier := { s.hier with
      txns := s.hier.txns.filter (fun e => !here e.1), queues := s.hier.queues.filter (fun e => !here e.1),
      wq := s.hier.wq.filter (fun e => !here e.1),
      order := { s.hier.order with posted := tdel s.hier.order.posted n } } }

/-- The steps that follow a base die's loss below level 5, in NUMA mode. -/
def State.baseLost (s : State) (n : Nat) : State :=
  let three := [3 * n, 3 * n + 1, 3 * n + 2]
  let s := three.foldl (fun s c => s.fenceUnit (1410 + c)) s
  let s := { s with fenced := if s.isFenced (1400 + n) then s.fenced else s.fenced ++ [1400 + n],
                    fc := { s.fc with lost := insertNew s.fc.lost n } }
  let s := three.foldl (fun s k => (s.setMc k { s.mc k with queue := [] }).fenceUnit (stackDomain k)) s
  ((s.dropHomed n).memoryLost).queueReq ⟨purposeRehome, n, 0⟩

/-! ### Reactions (Table 17-5) -/

/-- A full reset is asked for unless one waits or runs. -/
def State.askReset (s : State) : State :=
  if s.runningPurpose == purposeFullReset || (s.seq.head.any fun r => r.purpose == purposeFullReset) || s.fc.caused then s
  else { s with fc := { s.fc with caused := true } }.send (.fullReset 0)

/-- Level 3: the tenant's entry is stopped, and the cores with it resident hold FAULT_NOTIFY at H (R438). -/
def State.stopTenant (s : State) (t : BitVec 12) (seq : Nat) : State :=
  let cs := (List.range 576).filter fun c => s.coreEnabled c && s.residentOf c == t
  let s := { s with fc := { s.fc with stops := s.fc.stops ++ cs.map fun c => (seq, c) } }
  s.blockTenant t

/-- Level 2 or 4 for the unit a source names. -/
def State.fenceSource (s : State) (src : BitVec 16) (die : Bool) : State :=
  let cls := fld src 12 4
  if cls == 1 && (die || decide (0x60 ≤ fld src 0 8)) then s.loseBase (fld src 8 4)
  else if cls == 2 && die then s.fenceUnit (1410 + fld src 8 4)
  else
    match s.fenceOf src with
    | some u => if die && u == 1430 then s.askReset else s.fenceUnit u
    | none => if cls == 0 then s.askReset else s

/-- The reaction to a stored message, by the level computed and the source it is laid on. Level 5 includes the fence of level
4, but not the loss of a base die, which R445 lays on levels 2 and 4 (notes/assumptions/27.md). -/
def State.react (s : State) (level : Nat) (src : BitVec 16) (tid : Option (BitVec 12)) (seq : Nat) : State :=
  let s := match tid with
    | some t => if 3 ≤ level then s.stopTenant t seq else s
    | none => s
  let s := if level == 2 || (level == 3 && tid.isNone) then s.fenceSource src false
    else if level == 4 then s.fenceSource src true
    else if level == 5 then (if fld src 12 4 == 1 then s else s.fenceSource src true).askReset
    else s
  s.notifyCores

/-- The pairs of a base die toward every other enabled station are lost (R445). -/
def State.cutOff (s : State) (n : Nat) : Bool :=
  (s.bases ++ [4]).all fun x => x == n || s.fc.pairs.contains (x, n)

/-- FAULT_MESSAGE (R433, R437, R438, R442, R445). -/
def execFaultMessage (source : BitVec 16) (kind : BitVec 8) (tid : Option (BitVec 12)) (addr : Nat) (s : State) : Out :=
  onArrival true (.faultMessage source kind tid addr) s fun s =>
    let (level, s) := s.storeFault source kind tid addr
    let seq := s.fc.last
    if s.seq.active.isNone then s
    else if kind == 0x81 then
      let n := fld source 8 4
      if level == 5 || s.img secHome 0 1 0 != 0 then (s.askReset).notifyCores
      else if s.fc.lost.contains n then s.notifyCores
      else (s.baseLost n).notifyCores
    else
      let s := if kind == 0x25 then
          let here := if fld source 12 4 == 1 then fld source 8 4 else 4
          let far := addr % 8
          let s := { s with fc := { s.fc with
            pairs := if s.fc.pairs.contains (here, far) then s.fc.pairs else s.fc.pairs ++ [(here, far)] } }
          if far < 4 && s.cutOff far then s.loseBase far else s
        else s
      s.react level (if kind == 0x27 then BitVec.ofNat 16 addr else source) tid seq

/-- FC_ACKED_WRITE (Table 17-7). -/
def State.fcAck (s : State) (v : Word) : State :=
  let n := fld v 0 32
  if n < s.fc.acked then s.violate collectorBlock
  else { s with fc := { s.fc with acked := n } }.notifyCores

def execFcAckedWrite (v : Word) (s : State) : Out := 
  .next (if s.hubOn then (s.reserved collectorBlock (maskBits 31 0) v).fcAck v else s)

/-- ACKNOWLEDGE_STARVATION (R442): the Steward finds a base-die agent starved, which is the loss of that die. -/
def execAcknowledgeStarvation (agent starving : BitVec 16) (s : State) : Out :=
  .next (
    if fld starving 12 4 == 1 && fld starving 0 8 == 0x60 then s.loseBase (fld starving 8 4 % 4)
    else s.fault agent 0x27 none starving.toNat)

/-! ### Reference clocks (R443) -/

/-- The unit that reports an island's loss: the time base, port P0 for the SerDes, AVS0, the management port. -/
def islandSrc (i : Nat) : BitVec 16 := srcCode 0 0 ([0x18, 8, 0x1B, 0x1A].getD i 0x18)

/-- REFERENCE_CLOCK_LOST (R443): the links of the Ethernet island go down; while it stands no link is ready, and on its return
those that were trained are ready again. -/
def execReferenceClockLost (island : Nat) (s : State) : Out :=
  onWf (masterOk island)
    (if s.board.clocks.contains island then s
     else
       let s := { s with board := { s.board with clocks := s.board.clocks ++ [island] } }
       let s := if island == 1 then
           (List.range 8).foldl (fun s p => s.portCount p fun x => { x with partner := 0 }) s
         else s
       s.fault (islandSrc island) 0x74 none island)

/-- REFERENCE_CLOCK_RETURN (R443): the reference has stood for 1 ms. -/
def execReferenceClockReturn (island : Nat) (s : State) : Out :=
  onWf (masterOk island) { s with board := { s.board with clocks := s.board.clocks.filter (· != island) } }

/-! ### RESET_CMD (R447, R448) -/

/-- Why a reset of a compute die or a core cannot be asked for: 0 when it can. -/
def State.resetRefusal (s : State) (cls index : Nat) : Nat :=
  if cls == 1 then 0
  else if cls == 2 then
    if !s.computeEn index then codeFieldInvalid
    else if s.fc.lost.contains (index / 3) then codeNotPermitted else 0
  else if cls == 3 then
    if 576 ≤ index || !s.coreEnabled index then codeFieldInvalid
    else if s.isFenced (1410 + index / 48) || s.fc.lost.contains (index / 144) then codeNotPermitted else 0
  else codeFieldInvalid

/-- A reset that was asked for and accepted; `by_` 1 for RESET_CMD, 2 for Brixmen. -/
def State.startReset (s : State) (cls index by_ : Nat) : State :=
  if cls == 1 then s.send (.fullReset by_)
  else if cls == 2 then s.cutAll (s.coresOn index) ⟨purposeDieReset, index, by_⟩
  else s.cutAll [index] ⟨purposeCoreReset, index, by_⟩

/-- A write of RESET_CMD with GO set. -/
def State.resetCmd (s : State) (cls : BitVec 3) (index : BitVec 10) : State :=
  if s.fc.rres.status == 1 then s.violate collectorBlock
  else
    let s := { s with fc := { s.fc with rclass := cls, rindex := index, rres := s.fc.rres.accept } }
    let bad := s.resetRefusal cls.toNat index.toNat
    if bad != 0 then { s with fc := { s.fc with rres := s.fc.rres.fail bad 0 } }
    else s.startReset cls.toNat index.toNat 1

/-- RESET_CMD_FULL (R447). -/
def execResetCmdFull (index : BitVec 10) (s : State) : Out := .next (if s.hubOn then s.resetCmd 1 index else s)
/-- RESET_CMD_COMPUTE_DIE (R448). -/
def execResetCmdComputeDie (index : BitVec 10) (s : State) : Out := .next (if s.hubOn then s.resetCmd 2 index else s)
/-- RESET_CMD_CORE (R448). -/
def execResetCmdCore (index : BitVec 10) (s : State) : Out := .next (if s.hubOn then s.resetCmd 3 index else s)

end Sys2Proof.Machine
end

