-- ==== Sys2Proof/Machine/Fabric.lean ====
section
/-! DEFINITION. The fabric and the Jetstream ring (Chapter 09): the paths of flits, their buffers, arbiters and checks, ring
frames, replays, tags. -/

namespace Sys2Proof.Machine

/-! ### Ring frames (R279–R281) -/

def State.pair (s : State) (src dst : Nat) : Pair := tget s.hier.pairs (5 * src + dst) Pair.initial
def State.setPair (s : State) (src dst : Nat) (p : Pair) : State :=
  { s with hier := { s.hier with pairs := tput s.hier.pairs (5 * src + dst) p } }

/-- The channel that carries the next frame of a pair: its channels in turn (R279). -/
def Pair.channel (p : Pair) : Option Nat := p.active[p.turn % max 1 p.active.length]?

/-- A station puts a frame on the ring: the flit, its SEQ, whether NAK or IDLE. -/
def State.ringPut (s : State) (src dst : Nat) (flit : BitVec 592) (seq : BitVec 7) (nak idle : Bool) : State :=
  let p := s.pair src dst
  match p.channel with
  | none => s
  | some ch =>
    let s := s.setPair src dst { p with turn := (p.turn + 1) % max 1 p.active.length }
    let r := s.pair dst src
    (s.setPair dst src { r with owesAck := false }).send (.ringFrameReceive src dst ch (ringFrame flit seq r.got nak idle))

/-- A message leaves a station in a frame, which the station keeps until it is acknowledged (R280). -/
def State.ringSend (s : State) (src dst : Nat) (f : FlitInfo) (m : Instr) : State :=
  let p := s.pair src dst
  (s.setPair src dst { p with seq := p.seq + 1, unacked := p.unacked ++ [(p.seq, f.wire, m)] }).ringPut src dst f.wire p.seq
    false false

/-- The pair can take another frame: it has a channel, and fewer than 64 frames are not acknowledged. -/
def Pair.open_ (p : Pair) : Bool := decide (p.unacked.length < 64) && !p.active.isEmpty

/-- A message is in a frame that the receiving station has not passed on. -/
def State.inFrame (s : State) (src dst : Nat) (m : Instr) : Bool :=
  let p := s.pair src dst
  p.unacked.any fun u => u.2.2 == m && u.1 != p.got && decide ((u.1 - p.got).toNat ≤ 64)

/-- The station passes a flit on (R280): its bits say which message it is. The sender's own message, which also knows what no
field of the flit carries, goes on where its flit is the one that came. -/
def State.passOn (s : State) (sent : Option (BitVec 592 × Instr)) (flit : BitVec 592) : State :=
  let m := match sent with
    | some u => if u.1 == flit then some u.2 else s.unflit flit
    | none => s.unflit flit
  match m with
  | some m => if s.inflight.contains m then s else s.send m
  | none => s

/-- Every frame that is not acknowledged leaves again (R280). -/
def State.ringReplay (s : State) (src dst : Nat) : State :=
  let p := s.pair src dst
  if p.unacked.isEmpty then s
  else
    let s := s.setPair src dst { p with replays := satInc 32 p.replays }
    p.unacked.foldl (fun s u => s.ringPut src dst u.2.1 u.1 false false) s

/-- A channel leaves its pair (R281). -/
def State.removeChannel (s : State) (src dst ch : Nat) : State :=
  let p := s.pair src dst
  let act := p.active.erase ch
  let s := s.setPair src dst
    { p with active := act, removed := p.removed + 1, fails := tdel p.fails ch, gone := p.gone ++ [ch] }
  let s := s.fault (stationSrc dst) 0x23 none ch
  let s := if act.length < 8 then s.fault (stationSrc dst) 0x24 none src else s
  if act.isEmpty then s.fault (stationSrc dst) 0x25 none src else s

/-- The frame is discarded and the last SEQ received in order is sent back with NAK. -/
def State.ringNak (s : State) (src dst : Nat) : State := s.ringPut dst src 0 0 true true

/-- A station receives a frame (R280). -/
def State.ringReceive (s : State) (src dst ch : Nat) (frame : BitVec 768) : State :=
  let p := s.pair src dst
  if src == dst || !(p.active.contains ch) then s
  else
    let fb := s.fabBlock (stationFab dst)
    let bad (s : State) : State :=
      let fb := s.fabBlock (stationFab dst)
      let s := s.setFab (stationFab dst) { fb with crcFail := satInc 32 fb.crcFail }
      let p := s.pair src dst
      let ts := ((tget p.fails ch []).filter fun t => decide (s.now < t + 1000000)) ++ [s.now]
      let s := s.setPair src dst { p with fails := tput p.fails ch ts }
      let s := if ts.length ≥ 16 then s.removeChannel src dst ch else s
      s.ringNak src dst
    match rsCorrect ((toBytes frame 96).map (·.toNat)) with
    | none => bad s
    | some (w, fixed) =>
      let bytes : List Byte := w.map fun n => BitVec.ofNat 8 n
      let s := if fixed then s.setFab (stationFab dst) { fb with fec := satInc 32 fb.fec } else s
      if crcFrame (bytes.take 76) != ofBytes 32 ((bytes.drop 76).take 4) then bad s
      else
        let link := leNat ((bytes.drop 74).take 2)
        let seq : BitVec 7 := BitVec.ofNat 7 (link / 512)
        let ack : BitVec 7 := BitVec.ofNat 7 (link / 4)
        let q := s.pair dst src
        let s := match q.unacked.findIdx? fun u => u.1 == ack with
          | some i => s.setPair dst src { q with unacked := q.unacked.drop (i + 1) }
          | none => s
        let s := if link.testBit 1 then s.ringReplay dst src else s
        if link.testBit 0 then s
        else
          let p := s.pair src dst
          if seq == p.got + 1 then
            let s := s.setPair src dst { p with got := seq, owesAck := true }
            s.passOn ((p.unacked.find? fun u => u.1 == seq).map (·.2)) (ofBytes 592 (bytes.take 74))
          else if (seq - (p.got + 1)).toNat < 64 then s.ringNak src dst
          else s.setPair src dst { p with owesAck := true }

/-- RING_FRAME_RECEIVE (R280). -/
def execRingFrameReceive (src dst channel : Nat) (frame : BitVec 768) (s : State) : Out :=
  onArrival (stationOk src && stationOk dst && channelOk channel) (.ringFrameReceive src dst channel frame) s fun s =>
    s.ringReceive src dst channel frame

/-- RING_REPLAY_TIMEOUT (R280). -/
def execRingReplayTimeout (src dst : Nat) (s : State) : Out :=
  onWf (stationOk src && stationOk dst) (s.ringReplay src dst)

/-- RING_IDLE_DUE (R280): station src owes dst an acknowledgement. -/
def execRingIdleDue (src dst : Nat) (s : State) : Out :=
  onWf (stationOk src && stationOk dst)
    (if (s.pair dst src).owesAck then s.ringPut src dst 0 0 false true else s)

/-! ### Paths (R260–R262) -/

/-- Where a node sits: the input of its router that it feeds. -/
def State.seat (s : State) (node : Nat) : Spot :=
  if node < 576 then .tile (node / 48) (s.tileOf node) 0
  else if node < 0x3C0 then .base ((node - 0x240) / 96) ((node - 0x240) % 96) 0
  else if node < 0x3CC then .base ((node - 0x3C0) / 3) (Config.edgeRouter ((node - 0x3C0) / 3) ((node - 0x3C0) % 3)) 0
  else if 0x3DE ≤ node ∧ node < 0x3E2 then .base (node - 0x3DE) (Config.edgeRouter (node - 0x3DE) 3) 0
  else if 0x3E2 ≤ node ∧ node < 0x3EE then .tile (node - 0x3E2) (Config.agentTile (node - 0x3E2)) 0
  else .hub (Config.hubRouter node) 0

/-- The routers between two of a mesh of width w, X first, then Y, each with the input port the flit comes in by: 1 from the
left, 2 from the right, 3 from above, 4 from below. -/
def xyPath (w a b : Nat) : List (Nat × Nat) :=
  let w := max 1 w
  let xa := a % w
  let xb := b % w
  let ya := a / w
  let yb := b / w
  (if xa ≤ xb then (List.range (xb - xa)).map fun i => (w * ya + xa + i + 1, 1)
    else (List.range (xa - xb)).map fun i => (w * ya + xa - i - 1, 2)) ++
  (if ya ≤ yb then (List.range (yb - ya)).map fun i => (w * (ya + i + 1) + xb, 3)
    else (List.range (ya - yb)).map fun i => (w * (ya - i - 1) + xb, 4))

/-- A way through a mesh from the router `a`, entered by port `p`, to `b`, in a channel class. -/
def meshPath (at_ : Nat → Nat → Spot) (w a p b : Nat) (inbound : Bool) : List (Spot × Bool) :=
  ((a, p) :: xyPath w a b).map fun r => (at_ r.1 r.2, inbound)

/-- DOWN_TILE of a tile of a compute die. -/
def State.downTile (s : State) (c t : Nat) : Nat := s.img secRoutes (52 * c + t) 1 0xFF

/-- R262: the path of a message, place by place, with the channel class of each: outbound until it leaves the ring or climbs
a vertical port. Ports 5 and 6 of a router face the vertical port and the ring station. -/
def State.pathOf (s : State) (src dst : Nat) : List (Spot × Bool) :=
  let up (v u d : Nat) : List (Spot × Bool) := (.up d v, true) :: meshPath (.tile d) 13 v 5 u true
  /- The base die's part, from the router and port where it enters: to the station, or to the destination. -/
  let across (n r p : Nat) (inbound : Bool) : List (Spot × Bool) :=
    match s.seat dst with
    | .tile d u _ =>
      let v := s.downTile d u
      meshPath (.base n) 12 r p (Config.landing d v) inbound ++ up v u d
    | .base _ q _ => meshPath (.base n) 12 r p q inbound
    | _ => meshPath .hub Config.hubWidth r p (Config.hubRouter dst) inbound
  let a := stationOf src
  let b := stationOf dst
  let leave (n r p : Nat) : List (Spot × Bool) :=
    if a == b then across n r p false
    else
      (if n == 4 then meshPath .hub Config.hubWidth r p Config.hubStation false
        else meshPath (.base n) 12 r p (Config.edgeRouter n 4) false) ++
      (.ring a b, false) :: across b (if b == 4 then Config.hubStation else Config.edgeRouter b 4) 6 true
  match s.seat src with
  | .tile c t _ =>
    match s.seat dst with
    | .tile d u _ => if c == d then meshPath (.tile c) 13 t 0 u false else
      let v := s.downTile c t
      meshPath (.tile c) 13 t 0 v false ++ (.down c v, false) :: leave a (Config.landing c v) 5
    | _ =>
      let v := s.downTile c t
      meshPath (.tile c) 13 t 0 v false ++ (.down c v, false) :: leave a (Config.landing c v) 5
  | .base n r _ => leave n r 0
  | _ => leave 4 (Config.hubRouter src) 0

/-! ### Buffers (R271) -/

/-- The fabric block of the die whose router a place is an input of; none for a vertical port and the ring. -/
def Spot.die : Spot → Option Nat
  | .tile c _ _ => some (5 + c)
  | .base n _ _ => some (1 + n)
  | .hub _ _ => some 0
  | _ => none

/-- Table 9-5: the flits of one virtual network and channel class that a place holds. -/
def Spot.room : Spot → Nat
  | .tile _ _ _ => 4
  | .base _ _ _ => 4
  | .hub _ _ => 4
  | .down _ _ => 8
  | .up _ _ => 8
  | .ring _ _ => 64
  | .node _ => 0

/-- The router a place is an input of, and the input's number. -/
def Spot.router : Spot → Spot
  | .tile c t _ => .tile c t 0
  | .base n r _ => .base n r 0
  | .hub r _ => .hub r 0
  | p => p
def Spot.port : Spot → Nat
  | .tile _ _ p => p
  | .base _ _ p => p
  | .hub _ p => p
  | _ => 0

/-- The virtual network of a flit under way, and its CLASS. -/
def State.flightVn (s : State) (f : Flight) : Nat := ((s.flitOf f.msg).map (·.vn)).getD 0
def State.flightCls (s : State) (f : Flight) : Nat := ((s.flitOf f.msg).map (·.hdr.cls.toNat)).getD 0

/-- A slot is free at a place for a virtual network: the sender holds a credit (R271). -/
def State.credit (s : State) (place : Spot × Bool) (vn : Nat) : Bool :=
  decide ((s.hier.flights.countP fun f => f.path.head? == some place && s.flightVn f == vn) < place.1.room)

/-- The next place of a path can take the flit; the node at the end of the path always does (R273). -/
def State.nextFree (s : State) (path : List (Spot × Bool)) (vn : Nat) : Bool :=
  match path with
  | _ :: (.ring a b, o) :: _ => s.credit (.ring a b, o) vn && (s.pair a b).open_
  | _ :: p :: _ => s.credit p vn
  | _ => true

def State.putFlights (s : State) (l : List Flight) : State := { s with hier := { s.hier with flights := l } }

/-- A flit moves to the next place of its path, behind those that are there (R263). -/
def State.moveOn (s : State) (f : Flight) : State :=
  s.putFlights (s.hier.flights.filter (· != f) ++ [{ f with path := f.path.drop 1, passed := 0 }])

/-- The flit of a message where it is: a message that no flit stands for enters the first buffer of its path. -/
def State.enter (s : State) (m : Instr) (f : FlitInfo) : State :=
  if s.hier.flights.any (·.msg == m) then s
  else
    let path := s.pathOf f.src f.dst
    match path.head? with
    | some p => if s.credit p f.vn then s.putFlights (s.hier.flights ++ [⟨m, path, 0⟩]) else s
    | none => s

/-- A flit in a vertical port, or passed on by a ring station, enters the router behind it once that has a slot. -/
def State.settle (s : State) (m : Instr) : State :=
  match s.hier.flights.find? (·.msg == m) with
  | none => s
  | some f =>
    match f.path with
    | (p, _) :: _ =>
      let held := match p with
        | .ring a b => s.inFrame a b m
        | _ => false
      if p.die.isNone && !held && s.nextFree f.path (s.flightVn f) then s.moveOn f else s
    | [] => s

/-! ### Arbiters (R272) -/

/-- The output of its router that a flit waits at: the place it feeds, or the node at the end of the path. -/
def State.outputOf (s : State) (f : Flight) : Spot :=
  match f.path with
  | _ :: (p, _) :: _ => p
  | _ => .node (((s.flitOf f.msg).map (·.dst)).getD 0)

/-- The first flit of its buffer. -/
def State.isFirst (s : State) (f : Flight) : Bool :=
  (s.hier.flights.find? fun g => g.path.head? == f.path.head? && s.flightVn g == s.flightVn f) == some f

/-- A flit waits at the same output of the same router as another. -/
def State.sameOutput (s : State) (f g : Flight) : Bool :=
  (g.path.head?).map (·.1.router) == (f.path.head?).map (·.1.router) && s.outputOf g == s.outputOf f

/-- The flits that ask for an output: the first of each buffer of the router that has a credit. -/
def State.asking (s : State) (f : Flight) : List Flight :=
  s.hier.flights.filter fun g => s.sameOutput f g && s.isFirst g && s.nextFree g.path (s.flightVn g)

def State.arbiter (s : State) (out : Spot) : Arbiter := (s.hier.arbs.find? (·.out == out)).getD ⟨out, 3, []⟩
def State.setArbiter (s : State) (a : Arbiter) : State :=
  { s with hier := { s.hier with arbs := s.hier.arbs.filter (·.out != a.out) ++ [a] } }

/-- How many steps after `last` a cyclic turn over `n` reaches `x`. -/
def turnsTo (n last x : Nat) : Nat := (x + n - last % n - 1) % n

/-- The key of an arbiter's turn of input ports: virtual network and channel class. -/
def portKey (vn : Nat) (inbound : Bool) : Nat := 2 * vn + inbound.toNat
def Flight.inbound (f : Flight) : Bool := ((f.path.head?).map (·.2)).getD false
def Flight.port (f : Flight) : Nat := ((f.path.head?).map (·.1.port)).getD 0

/-- R272: whether the arbiter grants a flit of those that ask. A flit that 32 grants passed over comes first; else the
virtual network whose turn it is, and in it and in one channel class the highest CLASS, and of those the input port whose
turn it is. Between the channel classes of a virtual network the manual names no order. -/
def State.granted? (s : State) (f : Flight) : Bool :=
  let fs := s.asking f
  let a := s.arbiter (s.outputOf f)
  let vn := s.flightVn f
  if fs.any fun g => decide (32 ≤ g.passed) then (fs.find? fun g => decide (32 ≤ g.passed)) == some f
  else
    fs.contains f && (fs.all fun g => decide (turnsTo 4 a.vn vn ≤ turnsTo 4 a.vn (s.flightVn g))) &&
      fs.all fun g => s.flightVn g != vn || g.inbound != f.inbound || decide (s.flightCls g < s.flightCls f) ||
        (s.flightCls g == s.flightCls f &&
          decide (turnsTo 7 (tget a.ports (portKey vn f.inbound) 6) f.port ≤
            turnsTo 7 (tget a.ports (portKey vn f.inbound) 6) g.port))

/-- The grant: the turns move on, the flits it passed over count it, and the flit goes to its next place, in a frame where
that is the ring. -/
def State.grant (s : State) (f : Flight) (i : FlitInfo) : State :=
  let a := s.arbiter (s.outputOf f)
  let late (g : Flight) : Flight := if g != f && s.sameOutput f g then { g with passed := g.passed + 1 } else g
  let s := (s.putFlights (s.hier.flights.map late)).setArbiter
    { a with vn := i.vn, ports := tput a.ports (portKey i.vn f.inbound) f.port }
  let s := s.moveOn f
  match f.path with
  | _ :: (.ring x y, _) :: _ => s.ringSend x y i f.msg
  | _ => s

/-! ### Checks at a router (R267) -/

/-- The source of a discarded flit: the router's die. -/
def fabSrc (die : Nat) : BitVec 16 :=
  if die == 0 then srcCode 0 0 0x19 else if die ≤ 4 then srcCode 1 (die - 1) 0x61 else srcCode 2 (die - 5) 0x41

/-- The routers of a die forward: those of a compute die while its uncore domain runs, whatever its cores do (R261). -/
def State.routersRun (s : State) (die : Nat) : Bool := decide (die < 5) || s.runs (uncoreDomain (die - 5))

/-- A message is replaced by its poisoned copy, in flight and in the fabric. -/
def State.poisonFlit (s : State) (m : Instr) : State :=
  { s with inflight := s.inflight.map fun x => if x == m then poisonMsg x else x,
           hier := { s.hier with flights := s.hier.flights.map fun f => if f.msg == m then { f with msg := poisonMsg m } else f } }

/-- What a router finds in a flit is counted; the flit is lost, or goes on, with POISON where a payload word is
uncorrectable. -/
def State.checked (s : State) (die : Nat) (m : Instr) (f : FlitInfo) (words : List WordErr) (routeOk : Bool) :
    Option Instr × State :=
  let ce := (words.take 9).countP (· == .corrected)
  let ue := (words.take 9).countP (· == .uncorrectable)
  let bad (i : Nat) : Bool := words[i]? == some .uncorrectable
  let fb := s.fabBlock die
  let s := s.setFab die { fb with meshCe := min (fb.meshCe + ce) (2 ^ 32 - 1),
                                  meshUe := min (fb.meshUe + ue + (!routeOk).toNat) (2 ^ 32 - 1) }
  if bad 0 || (f.addressed && bad 8) || !routeOk then (none, (s.arrive m).fault (fabSrc die) 0x20 none 0)
  else if ue > 0 then (some (poisonMsg m), s.poisonFlit m)
  else (some m, s)

/-- FLIT_HOP (R267): message number `flit` of those under way passes the router of a die that it is at, which finds `words`
in its nine words and the route word's parity right or wrong, and whose arbiter grants it the output. A message that is not
at a router of the die, has no slot to enter the fabric, no credit for its next place, or is not the one that the arbiter
grants, stays where it is. -/
def State.flitHop (s : State) (die flit : Nat) (words : List WordErr) (routeOk : Bool) : State :=
  match s.inflight[flit]? with
  | none => s
  | some m =>
    match s.flitOf m with
    | none => s
    | some i =>
      let t := (s.enter m i).settle m
      match t.hier.flights.find? (·.msg == m) with
      | none => s
      | some f =>
        if (f.path.head?).bind (·.1.die) != some die || !t.routersRun die || !t.granted? f then s
        else
          match t.checked die m i words routeOk with
          | (none, t) => t
          | (some m', t) => t.grant { f with msg := m' } { i with poison := i.poison || m' != m }

/-- FLIT_HOP (R267). -/
def execFlitHop (die flit : Nat) (words : List WordErr) (routeOk : Bool) (s : State) : Out :=
  onWf (fabOk die) (s.flitHop die flit words routeOk)

/-! ### Tags (R275–R277) -/

/-- TAG_RESERVE_EXPIRY (R276). -/
def execTagReserveExpiry (node tag : Nat) (s : State) : Out :=
  onWf (nodeOk node && tagOk tag)
    (let t := s.tag node tag
     if t.reserved && decide (t.since + s.drainLimit ≤ s.now) then
       s.setTag node tag { t with reserved := false, req := none, lateData := none, lateGo := false }
     else s)

/-- RETRY_REISSUE (R269): the request that a door answered RETRY leaves again unchanged; a home's layer-1 request is
named by its line. -/
def execRetryReissue (node tag : Nat) (wrLine : Option Nat) (s : State) : Out :=
  onWf (nodeOk node && tagOk tag)
    (if 0x240 ≤ node ∧ node < 0x3C0 then
       match wrLine with
       | some l => s.homeReissue l
       | none => s
     else
       let t := s.tag node tag
       match t.req with
       | some m => if t.retry then (s.setTag node tag { t with retry := false }).send m else s
       | none => s)

end Sys2Proof.Machine
end

