-- ==== Sys2Proof/Machine/Regs.lean ====
section
/-! DEFINITION. Register windows (R28–R32) and what a read or a write of each register does: the package identity block, the
hub blocks, the L3 control, fabric and stack-controller blocks; R8's count of reserved bits; an access of a core to device
space. -/

namespace Sys2Proof.Machine

/-- BLOCK_TYPE and INSTANCE. -/
def Blk.kind : Blk → Nat × Nat
  | .ident => (0x0001, 0)
  | .collector => (0x000A, 0)
  | .router => (0x0002, 0)
  | .qos => (0x0003, 0)
  | .security => (0x0004, 0)
  | .power => (0x0005, 0)
  | .guest => (0x0006, 0)
  | .mailbox => (0x0007, 0)
  | .time => (0x0008, 0)
  | .mirror => (0x0013, 0)
  | .hubFab => (0x0009, 0)
  | .port p => (0x0011, p)
  | .engine e => (0x0012, e)
  | .lane l => (0x0014, l)
  | .l3 n => (0x0110, n)
  | .baseFab n => (0x0009, 0x10 + n)
  | .stack k => (0x0310, k)
  | .compFab c => (0x0009, 0x20 + c)

/-- The answer of a domain's door to a register access of a unit that serves its registers while fenced. -/
def State.doorPast (s : State) (d : Nat) : Nat × State :=
  let r := ({ s with fenced := [] } : State).door d false
  (r.1.code, { r.2 with fenced := s.fenced })

def State.doorCode (s : State) (d : Nat) : Nat × State :=
  let r := s.door d false
  (r.1.code, r.2)

/-- Whether a block answers: 0, or the code of the Err it or its door gives (R28, R497, Table 16-2, Table 17-6). -/
def State.blkErr (s : State) (b : Blk) : Nat × State :=
  let hub (r : Nat × State) : Nat × State := if s.hubOn then r else (3, s)
  let base (n : Nat) (r : Nat × State) : Nat × State :=
    if !s.baseEn n then (1, s) else if s.power.pkg == 3 then (3, s) else if s.fc.lost.contains n then (6, s)
    else if (s.dom (baseUncore n)).st == .run && !(s.dom (baseUncore n)).inReset then r else (3, s)
  match b with
  | .power | .mailbox | .time => (0, s)
  | .ident | .collector | .router | .qos | .security | .hubFab => hub (0, s)
  | .port p => hub (if s.portRole p == 0 then (3, s) else s.doorPast (696 + p))
  | .engine e => hub (s.doorCode (708 + e))
  | .lane l => hub (s.doorPast (laneDomain l))
  | .mirror => hub (s.doorCode 710)
  | .guest => hub (s.doorPast guestDomain)
  | .l3 n => base n (0, s)
  | .baseFab n => base n (0, s)
  | .stack k => base (k / 3) (s.doorCode (stackDomain k))
  | .compFab c => if s.computeEn c then (if s.power.pkg == 3 then (3, s) else s.doorCode (uncoreDomain c)) else (1, s)

/-! ### Blocks whose registers are not given elsewhere: each register as its value and the bits that are not reserved -/

def full : Word := BitVec.allOnes 64
def nat64 (n : Nat) : Word := BitVec.ofNat 64 n

/-- The package identity block (Tables 1-9 to 1-12). -/
def State.identReg (s : State) (off : Nat) : Option (Word × Word) :=
  if off == 0x10 then some (0x1248B1B100000000, maskBits 63 32)
  else if off == 0x18 then
    some (nat64 (s.img secDieMap 4 2 0 % 4096 * 2 ^ 16 + s.img secDieMap 0 1 0 % 16 * 256 + s.guest.present.toNat),
      maskBits 27 16 ||| maskBits 11 8 ||| 1)
  else if off == 0x20 then
    some (nat64 ((List.range 12).foldl (fun a c => a +
      (if s.computeEn c then (Config.dieIsB1 c).toNat else 15) * 16 ^ c) 0), maskBits 47 0)
  else if off == 0x28 then some (nat64 s.caps, maskBits 6 0)
  else none

/-- The fenced units of a list of (bit, fence number), as a number; a bit stands once the fence's column is done (R441). -/
def State.fenceBits (s : State) (l : List (Nat × Nat)) : Nat :=
  l.foldl (fun a e => if s.isFenced e.2 && s.fc.done.contains e.2 then a + 2 ^ e.1 else a) 0

def bitsFrom (lo first n : Nat) : List (Nat × Nat) := (List.range n).map fun i => (lo + i, first + i)

/-- The fault collector (Table 17-7). -/
def State.collectorReg (s : State) (off : Nat) : Option (Word × Word) :=
  let f := s.fc
  if off == 0x10 then some (nat64 (f.notifyEn.toNat * 2 ^ 63 + f.notifyCore.toNat), maskBits 63 63 ||| maskBits 9 0)
  else if off == 0x18 then some (nat64 (f.overwritten * 2 ^ 32 + f.last), full)
  else if off == 0x20 then some (nat64 f.acked, maskBits 31 0)
  else if off == 0x28 then some (nat64 (f.rclass.toNat * 2 ^ 60 + f.rindex.toNat), maskBits 63 60 ||| maskBits 9 0)
  else if off == 0x30 then some (f.rres.word, full)
  else if off == 0x38 then some (nat64 (s.unacked * 2 ^ 32 + f.dropped), maskBits 40 0)
  else if 0x100 ≤ off ∧ off < 0x148 then
    some (nat64 (s.fenceBits (bitsFrom 0 (8 * (off - 0x100)) 64)), full)
  else if off == 0x148 then
    some (nat64 (s.fenceBits (bitsFrom 32 684 12 ++ bitsFrom 28 1400 4 ++ bitsFrom 16 1410 12 ++
      (List.range 16).map fun i => (i, unitDomain (8 + i)))), maskBits 43 0)
  else if 0x150 ≤ off ∧ off < 0x190 then
    let n := (off - 0x150) / 16
    if off % 16 == 0 then some (nat64 (s.fenceBits (bitsFrom 0 (1000 + 96 * n) 64)), full)
    else some (nat64 (s.fenceBits (bitsFrom 0 (1064 + 96 * n) 32)), maskBits 31 0)
  else if 0x10000 ≤ off ∧ off < 0x14000 then
    some ((tget f.log ((off - 0x10000) / 16) 0).extractLsb' (8 * (off % 16)) 64, full)
  else if 0x20000 ≤ off ∧ off < 0x21000 then
    let r : BitVec 128 := ((tfind? f.plog ((off - 0x20000) / 16)).map (·.data)).getD 0
    some (r.extractLsb' (8 * (off % 16)) 64, full)
  else none

/-- The QoS block (Table 11-6). -/
def State.qosReg (s : State) (off : Nat) : Option (Word × Word) :=
  if off == 0x10 then some (boolWord s.qos.run, 1)
  else if off == 0x18 then some (s.qos.intervals, full)
  else if 0x100 ≤ off ∧ off < 0x200 then
    let i := (off - 0x100) / 8
    let q : BitVec 3 := BitVec.ofNat 3 i
    some (nat64 (s.rate (i / 8) q * 2 ^ 32 + s.quota (i / 8) q), maskBits 63 32 ||| maskBits 8 0)
  else if 0x10000 ≤ off ∧ off < 0x30000 then some (tget s.qos.tstat ((off - 0x10000) / 8) 0, full)
  else none

/-- The effective pace level of a core (R428). -/
def State.mirrorLevel (s : State) (g : Nat) : Nat := ((s.slotOf (s.residentOf g)).map fun e => e.2.level).getD 0
def State.dieLevelOf (s : State) (g : Nat) : Nat := tget s.power.dieLevel (g / 48) 0
def State.paceLevel (s : State) (g : Nat) : Nat := max (s.dieLevelOf g) (s.mirrorLevel g)

/-- SEQ_STATUS (Table 2-14). -/
def State.seqStatus (s : State) : Nat :=
  match s.seq.run with
  | none => 0
  | some r =>
    let row := ((r.stack.head?).map (·.row)).getD 0
    (s.seq.head.length + s.seq.queue.length) * 2 ^ 41 + (r.stack.length - 1) * 2 ^ 38 + r.unwinding.isSome.toNat * 2 ^ 37 +
      r.committed.toNat * 2 ^ 36 + row * 2 ^ 24 + r.req.purpose * 2 ^ 16 + r.req.param

/-- STATE of DOM_CTL (Table 16-5). -/
def DomSt.code : DomSt → Nat
  | .run => 0
  | .closing => 1
  | .retained => 2
  | .off => 3
  | .waking => 4

/-- A package-state table runs (PKG_STATE.TRANSIT). -/
def State.inTransit (s : State) : Bool := s.power.transit || [5, 6, 7].contains s.runningPurpose

/-- The power and Sequencer block (Tables 2-12 to 2-15 and 16-5). -/
def State.powerReg (s : State) (off : Nat) : Option (Word × Word) :=
  let p := s.power
  let q := s.seq
  let at_ (im : Option Image) (o n : Nat) : Nat := (im.map fun i => i.le o n).getD 0
  if off == 0x10 then
    some (nat64 (q.lastFailed.toNat * 2 ^ 34 + q.pending.isSome.toNat * 2 ^ 33 + q.active.isSome.toNat * 2 ^ 32 +
      at_ q.active 0x20 4), maskBits 34 0)
  else if off == 0x18 then some (nat64 (at_ q.active 0x18 8), full)
  else if off == 0x20 then some (nat64 (at_ q.pending 0x18 8), full)
  else if off == 0x28 then some (q.load.word, full)
  else if off == 0x30 then some (nat64 s.seqStatus, maskBits 45 0)
  else if off == 0x38 then some (q.res.word, full)
  else if off == 0x40 then some (nat64 (8 * s.inTransit.toNat + s.pkgState), maskBits 3 0)
  else if off == 0x48 then some (zext64 p.target, maskBits 63 63 ||| 3)
  else if off == 0x50 then some (p.res.word, full)
  else if off == 0x58 then some (p.wakeTime, full)
  else if off == 0x60 then some (nat64 (2 * p.wakeSmbus.toNat + p.wakeTimer.toNat), 3)
  else if off == 0x68 then some (nat64 p.ceil, maskBits 15 0)
  else if off == 0x70 then some (nat64 p.now, maskBits 15 0)
  else if 0x100 ≤ off ∧ off < 0x1C8 then
    let r := s.rail ((off - 0x100) / 8)
    some (nat64 (r.abandoned.toNat * 2 ^ 48 + r.fails * 2 ^ 32 + r.setMv * 2 ^ 16 + r.nowMv), maskBits 48 0)
  else if 0x10000 ≤ off ∧ off < 0x10000 + 8 * 712 then
    let x := s.dom ((off - 0x10000) / 8)
    some (nat64 (x.st.code * 2 ^ 61 + x.auto.toNat * 2 ^ 58), maskBits 63 58)
  else if 0x20000 ≤ off ∧ off < 0x20000 + 8 * 576 then
    let g := (off - 0x20000) / 8
    some (nat64 (s.mirrorLevel g * 256 + s.dieLevelOf g * 16 + s.paceLevel g), maskBits 11 0)
  else none

/-- The time base (Table 16-5). -/
def State.timeReg (s : State) (off : Nat) : Option (Word × Word) :=
  if off == 0x10 then some (nat64 s.now, full)
  else if off == 0x18 then some (0, maskBits 31 0)
  else if off == 0x20 then some (zext64 s.time.slew, maskBits 31 0)
  else none

/-- The Steward mailbox (Table 19-8). -/
def State.mailboxReg (s : State) (off : Nat) : Option (Word × Word) :=
  let m := s.mgmt
  if off == 0x10 then some (m.res.word, full)
  else if off == 0x18 then some (nat64 (m.auth * 2 ^ 48 + m.stale * 2 ^ 32 + m.rate * 2 ^ 16 + m.malformed), full)
  else if off == 0x20 then some (nat64 (m.plen * 2 ^ 32 + m.ip.toNat), maskBits 37 0)
  else none

/-- A register of a statistics record (Table 9-13). -/
def Stat.reg (x : Stat) (off : Nat) : Option (Word × Word) :=
  if off == 0 then some (boolWord x.freeze, 3)
  else if off == 8 then some (x.rdBytes, full) else if off == 0x10 then some (x.wrBytes, full)
  else if off == 0x18 then some (x.requests, full) else if off == 0x20 then some (x.timeouts, full)
  else if off == 0x28 then some (x.late, full) else if off == 0x30 then some (x.retries, full)
  else if 0x40 ≤ off ∧ off < 0xC0 then some (tget x.hist ((off - 0x40) / 8) 0, full)
  else none

/-- A write of STAT_CTL (Table 9-14). -/
def Stat.ctl (x : Stat) (v : Word) : Stat :=
  if bit v 1 then { Stat.initial with freeze := bit v 0 } else { x with freeze := bit v 0 }

/-- The statistics record a register of a fabric block belongs to: cores by number, hub record r at 1,024 + r (R286). -/
def statAt (b : Blk) (off : Nat) : Option Nat :=
  let r := (off - 0x1000) / 0x100
  if off < 0x1000 then none
  else match b with
    | .hubFab => if r < 33 then some (1024 + r) else none
    | .compFab c => if r < 48 then some (48 * c + r) else none
    | _ => none

/-- A fabric block: `die` 0 for the hub, 1 + n for a base die, 5 + c for a compute die (R286). -/
def State.fabReg (s : State) (b : Blk) (die off : Nat) : Option (Word × Word) :=
  let f := s.fabBlock die
  if off == 0x10 then some (nat64 (f.meshUe * 2 ^ 32 + f.meshCe), full)
  else if die < 5 && off == 0x18 then some (nat64 (f.crcFail * 2 ^ 32 + f.fec), full)
  else if die < 5 && decide (0x20 ≤ off ∧ off < 0x48) then
    let src := if die == 0 then 4 else die - 1
    let p := s.pair src ((off - 0x20) / 8)
    some (nat64 (p.replays * 2 ^ 32 + p.removed * 256 + p.active.length), maskBits 63 32 ||| maskBits 15 0)
  else match statAt b off with
    | some r => (tget s.hier.stats r Stat.initial).reg (off % 0x100)
    | none => none

/-- The L3 control block (Tables 7-6 to 7-8, 8-6, 8-7, R307, Table 10-8). -/
def State.l3Reg (s : State) (n off : Nat) : Option (Word × Word) :=
  let i := off % 0x40
  if 0x1000 ≤ off ∧ off < 0x2800 then
    let x := s.slice (96 * n + (off - 0x1000) / 0x40)
    if i == 0 then some (zext64 x.ctl, maskBits 8 0)
    else if i == 8 then some (zext64 x.seed, maskBits 15 0)
    else if i == 0x10 then some (nat64 (x.ue * 2 ^ 32 + x.ce), full)
    else if i == 0x18 then some (nat64 (x.recalls * 2 ^ 32 + x.ordered), full)
    else if i == 0x20 then some (nat64 (x.snoopTimeouts * 2 ^ 32 + x.stale), full)
    else none
  else if 0x8000 ≤ off ∧ off < 0x9800 then
    let x := s.slice (96 * n + (off - 0x8000) / 0x40)
    if i < 0x20 then some (tget x.remap (i / 8) 0, maskBits 63 63 ||| maskBits 27 16 ||| maskBits 3 0)
    else if i == 0x20 then some (x.flipLo, full)
    else if i == 0x28 then
      some (nat64 (x.armed.toNat * 2 ^ 17 + x.flipWin.toNat * 256 + x.flipHi.toNat), maskBits 17 16 ||| maskBits 10 0)
    else none
  else none

/-- A stack-controller block (Tables 10-3 to 10-8). -/
def State.stackReg (s : State) (k off : Nat) : Option (Word × Word) :=
  let m := s.mc k
  if off == 0x10 then some (nat64 (m.ue * 2 ^ 28 + m.ce), maskBits 63 63 ||| maskBits 55 0)
  else if off == 0x18 then some (zext64 m.symbols, maskBits 35 0)
  else if off == 0x20 then some (m.scrubBase, maskBits 51 0)
  else if off == 0x28 then some (m.scrubLen, full)
  else if off == 0x30 then some (nat64 (m.gap.toNat * 2 ^ 32 + m.mode.toNat), maskBits 63 62 ||| maskBits 47 32 ||| 3)
  else if off == 0x38 then some (m.res.word, full)
  else if off == 0x40 then some (nat64 (m.cnt3 * 2 ^ 32 + m.cnt1), full)
  else if off == 0x48 then some (nat64 (m.cntP * 2 ^ 32 + m.cnt2), full)
  else if off == 0x50 then some (m.first, maskBits 63 63 ||| maskBits 51 0)
  else if off == 0x58 then some (m.last, maskBits 63 63 ||| maskBits 51 0)
  else if off == 0x60 then some (m.worst, maskBits 63 62 ||| maskBits 35 0)
  else if off == 0x80 then some (m.flipLo, full)
  else if off == 0x88 then
    some (nat64 (m.armed.toNat * 2 ^ 17 + m.flipWin.toNat * 256 + m.flipHi.toNat), maskBits 17 16 ||| maskBits 10 0)
  else if 0x100 ≤ off ∧ off < 0x180 then
    some (tget m.remap ((off - 0x100) / 8) 0, maskBits 63 62 ||| maskBits 21 0)
  else none

/-- A queue-engine block (Table 13-3). -/
def State.engineReg (s : State) (e off : Nat) : Option (Word × Word) :=
  let x := s.eng e
  if off == 0x10 then some (x.cmd, maskBits 63 60 ||| maskBits 17 0)
  else if off == 0x18 then some (x.addr, maskBits 51 6)
  else if off == 0x20 then some (x.res.word, full)
  else if 0x80000 ≤ off ∧ off < 0xC0000 then some (0, maskBits 17 0)
  else none

/-- The bits that are not reserved in the registers of the blocks whose tables stand with their units: the interrupt
router (Tables 11-3 and 11-4), the security block (Table 12-4), ports (Tables 13-2 and 13-10), the firewall (Table 13-9),
lanes (Table 14-1) and the mirror engine (Table 15-1). -/
def pvMask (off : Nat) : Word := if off % 16 == 0 then full else maskBits 63 40 ||| maskBits 31 0

def regMask (b : Blk) (off : Nat) : Word :=
  let pvCtl : Word := maskBits 63 63 ||| maskBits 35 0
  match b with
  | .router =>
    if off == 0x10 then maskBits 51 21 ||| 1 else if off == 0x18 then maskBits 63 63 ||| maskBits 11 0
    else if 0x10000 ≤ off then
      (if off % 32 == 0 then maskBits 63 60 ||| maskBits 42 40 ||| maskBits 25 16 else targetMask)
    else full
  | .security =>
    if off == 0x10 then maskBits 63 63 ||| maskBits 51 6 else if off == 0x20 then maskBits 63 32 ||| 1
    else if 0x10000 ≤ off then maskBits 22 16 ||| maskBits 12 8 ||| maskBits 7 4 ||| maskBits 2 0 else full
  | .port _ =>
    if off == 0x10 then maskBits 11 8 ||| maskBits 4 4 ||| maskBits 1 0
    else if off == 0x60 then pvCtl
    else if 0x800 ≤ off ∧ off < 0x900 then pvMask off
    else if 0x40000 ≤ off then (if off % 16 == 0 then maskBits 63 63 ||| maskBits 59 0 else maskBits 16 0)
    else full
  | .guest =>
    if off == 0x10 then maskBits 7 0 else if off == 0x18 then maskBits 15 0 else if off == 0x20 then pvCtl
    else if 0x100 ≤ off ∧ off < 0x300 then
      (if off % 32 == 0 then maskBits 63 61 ||| maskBits 51 12
       else if off % 32 == 8 then maskBits 51 12 else maskBits 15 0)
    else if 0x400 ≤ off ∧ off < 0x500 then
      (if off % 16 == 0 then maskBits 63 63 ||| maskBits 19 16 ||| maskBits 11 0 else full)
    else pvMask off
  | .lane _ =>
    if off == 0x10 then maskBits 63 62 ||| maskBits 51 6 else if off == 0x18 then 3
    else if off == 0x30 then maskBits 47 0 else full
  | .mirror =>
    if off == 0x10 then maskBits 63 58 ||| maskBits 43 32 ||| maskBits 27 0
    else if off == 0x18 then maskBits 15 0 else if off == 0x20 then maskBits 51 21
    else if off == 0x30 then maskBits 63 60 ||| maskBits 51 6
    else if off == 0x60 then pvCtl
    else if 0x800 ≤ off ∧ off < 0x900 then pvMask off
    else if 0x1000 ≤ off ∧ off % 32 == 0 then maskBits 63 60 ||| maskBits 43 0
    else if 0x1000 ≤ off ∧ off % 32 == 16 then maskBits 3 0 else full
  | _ => full

/-- A register as its value and the bits that are not reserved; none where no register is listed. -/
def State.regGet (s : State) (b : Blk) (blk off : Nat) : Option (Word × Word) :=
  if off == 0 then
    some (nat64 (b.kind.1 * 2 ^ 32 + b.kind.2 * 2 ^ 24 + 2 ^ 16 + 1), maskBits 47 0)
  else if off == 8 then some (nat64 (tget s.viol blk 0), maskBits 63 63 ||| maskBits 31 0)
  else
    let own (r : Option Word) : Option (Word × Word) := r.map fun v => (v, regMask b off)
    match b with
    | .ident => s.identReg off
    | .collector => s.collectorReg off
    | .router => own (s.routerRead off)
    | .qos => s.qosReg off
    | .security => own (s.secRead off)
    | .power => s.powerReg off
    | .guest => own (s.guestRegRead off)
    | .mailbox => s.mailboxReg off
    | .time => s.timeReg off
    | .mirror => own (s.mirrorReg off)
    | .hubFab => s.fabReg b 0 off
    | .port p => own (s.portReg p off)
    | .engine e => s.engineReg e off
    | .lane l => own (s.laneReg l off)
    | .l3 n => s.l3Reg n off
    | .baseFab n => s.fabReg b (1 + n) off
    | .stack k => s.stackReg k off
    | .compFab c => s.fabReg b (5 + c) off

/-! ### Writes -/

/-- PKG_CMD and SET_PKG_STATE are refused (R418, R423): no image, not in Run or Idle, or a package table is queued, held as
a cut, or running. -/
def State.pkgBusy (s : State) : Bool :=
  let table (p : Nat) : Bool := p == 5 || p == 6 || p == 7
  s.seq.active.isNone || !decide (s.pkgState < 2) || table s.runningPurpose ||
    (s.seq.queue.any fun r => table r.purpose) || (s.seq.head.any fun r => table r.purpose) ||
    (s.sec.cuts.any fun c => decide (16 ≤ c.2.1) && table (cutReq c.2.1).purpose)

def codeSleepRefused : Nat := 0x160
def codePkgStateInvalid : Nat := 0x161

/-- Hold or Off is asked for and accepted: it cuts every domain. -/
def State.pkgEnter (s : State) (target by_ : Nat) : State :=
  s.cutAll ((List.range 712).filter s.domEnabled) ⟨if target == 2 then purposeHold else purposeOff, 0, by_⟩

/-- A write of PKG_CMD (R418, R423). -/
def State.pkgCmd (s : State) (v : Word) : State :=
  let s := { s with power := { s.power with target := v.setWidth 2 } }
  if !bit v 63 then s
  else
    let s := { s with power := { s.power with res := s.power.res.accept } }
    let fail (code : Nat) : State := { s with power := { s.power with res := s.power.res.fail code 0 } }
    let t := fld v 0 2
    if s.pkgBusy then fail codePkgStateInvalid
    else if t < 2 then fail codeFieldInvalid
    else s.pkgEnter t 1

/-- PKG_CMD_HOLD and PKG_CMD_OFF (R418). -/
def execPkgCmdHold (s : State) : Out := .next (s.pkgCmd 0x8000000000000002)
def execPkgCmdOff (s : State) : Out := .next (s.pkgCmd 0x8000000000000003)

/-- A write of the power and Sequencer block. -/
def State.powerPut (s : State) (off : Nat) (v : Word) : State :=
  let p := s.power
  if off == 0x48 then s.pkgCmd v
  else if off == 0x58 then { s with power := { p with wakeTime := v, timerFired := false } }
  else if off == 0x60 then
    { s with power := { p with wakeSmbus := p.wakeSmbus && !bit v 1, wakeTimer := p.wakeTimer && !bit v 0 } }
  else if off == 0x68 then s.putCeil v
  else if 0x10000 ≤ off ∧ off < 0x10000 + 8 * 712 then
    let d := (off - 0x10000) / 8
    let s := s.setDom d { s.dom d with auto := bit v 58 }
    if fld v 59 2 == 0 then s else s.domReq d (fld v 59 2)
  else s

/-- A write of a slice's registers (Tables 7-6, 7-7, 10-8, R307). -/
def State.l3Put (s : State) (n off : Nat) (v : Word) : State :=
  let i := off % 0x40
  if 0x1000 ≤ off ∧ off < 0x2800 then
    let h := 96 * n + (off - 0x1000) / 0x40
    let x := s.slice h
    if i == 0 then
      let x := { x with ctl := v.setWidth 8 }
      s.setSlice h (if bit v 8 then { x with ue := 0, ce := 0 } else x)
    else if i == 8 then s.setSlice h { x with seed := v.setWidth 16, lfsr := seedOf (v.setWidth 16) }
    else s
  else if 0x8000 ≤ off ∧ off < 0x9800 then
    let h := 96 * n + (off - 0x8000) / 0x40
    if i < 0x20 then s.sliceRemapReg h (i / 8) v
    else if i == 0x20 then s.setSlice h { s.slice h with flipLo := v }
    else if i == 0x28 then s.flipCtl true h v
    else s
  else s

/-- A write of a stack-controller block. -/
def State.stackPut (s : State) (k off : Nat) (v : Word) : State :=
  let m := s.mc k
  if off == 0x10 then s.mcErr k v
  else if off == 0x18 then s.setMc k { m with symbols := m.symbols &&& ~~~ v.setWidth 36 }
  else if off == 0x20 then s.setMc k { m with scrubBase := v &&& maskBits 51 0 }
  else if off == 0x28 then s.setMc k { m with scrubLen := v }
  else if off == 0x30 then s.scrubCmd k v
  else if off == 0x80 then s.setMc k { m with flipLo := v }
  else if off == 0x88 then s.flipCtl false k v
  else if 0x100 ≤ off ∧ off < 0x180 then s.remapReg k ((off - 0x100) / 8) v
  else s

/-- A write of the interrupt router. -/
def State.routerPut (s : State) (off : Nat) (v : Word) : State :=
  let r := s.router
  if off == 0x10 then { s with router := { r with pitBase := v &&& (maskBits 51 21 ||| 1) } }
  else if off == 0x18 then
    if bit v 63 then s.quiesceGo (v.setWidth 12) else { s with router := { r with qtid := v.setWidth 12 } }
  else if 0x100 ≤ off ∧ off < 0x300 then
    let n := (off - 0x100) / 8
    { s with router := { r with summary := r.summary.filter fun t => !(t / 64 == n && bit v (t % 64)) } }
  else if 0x10000 ≤ off ∧ off < 0x30000 then
    let t : BitVec 12 := BitVec.ofNat 12 ((off - 0x10000) / 32)
    match off % 32 with
    | 0 => s.tenantWrite t v
    | 8 => s.setTenant t { s.tenant t with target0 := v &&& targetMask }
    | 16 => s.setTenant t { s.tenant t with target1 := v &&& targetMask }
    | _ => s
  else s

/-- A write of the fault collector. -/
def State.collectorPut (s : State) (off : Nat) (v : Word) : State :=
  if off == 0x10 then
    { s with fc := { s.fc with notifyEn := bit v 63, notifyCore := v.setWidth 10 } }.notifyCores
  else if off == 0x20 then s.fcAck v
  else if off == 0x28 then
    if bit v 63 then s.resetCmd ((v >>> 60).setWidth 3) (v.setWidth 10)
    else { s with fc := { s.fc with rclass := (v >>> 60).setWidth 3, rindex := v.setWidth 10 } }
  else s

/-- A write of an engine block; `tid` is the writer's, which a doorbell is checked against (R358). -/
def State.enginePut (s : State) (e : Nat) (tid : BitVec 12) (off : Nat) (v : Word) : State :=
  if off == 0x10 then s.qpCmd e v
  else if off == 0x18 then s.setEng e { s.eng e with addr := v &&& maskBits 51 6 }
  else if 0x80000 ≤ off ∧ off < 0xC0000 then s.ring e tid ((off - 0x80000) / 8) v
  else s

/-- What a write does to a block's registers, beyond R8's count. -/
def State.regPut (s : State) (b : Blk) (blk : Nat) (tid : BitVec 12) (off : Nat) (v : Word) : State :=
  if off == 8 then (if bit v 63 then { s with viol := tput s.viol blk 0 } else s)
  else
    match b with
    | .ident => s
    | .collector => s.collectorPut off v
    | .router => s.routerPut off v
    | .qos => if off == 0x10 && !s.seq.loaded then { s with qos := { s.qos with run := bit v 0 } } else s
    | .security =>
      if off == 0x10 then
        if bit v 63 then s.wardenGo (fld v 6 46) else { s with sec := { s.sec with req := fld v 6 46 } }
      else s
    | .power => s.powerPut off v
    | .guest => s.guestRegWrite off v
    | .mailbox => s
    | .time =>
      if off == 0x18 then s.stepTime v
      else if off == 0x20 then s.slewTime v else s
    | .mirror => s.mirrorWrite off v
    | .port p => s.portWrite p off v
    | .engine e => s.enginePut e tid off v
    | .lane l => s.laneRegWrite l off v
    | .l3 n => s.l3Put n off v
    | .stack k => s.stackPut k off v
    | .hubFab | .baseFab _ | .compFab _ =>
      match statAt b off with
      | some r => if off % 0x100 == 0 then { s with hier := { s.hier with stats := tmod s.hier.stats r Stat.initial fun x => x.ctl v } } else s
      | none => s

/-- A write of a register that its block serves: R8's count, then the write's effect. -/
def State.regWrite (s : State) (b : Blk) (blk : Nat) (tid : BitVec 12) (off : Nat) (v : Word) : State :=
  let mask := ((s.regGet b blk off).map (·.2)).getD 0
  let s := if off == 8 && bit v 63 then s else s.reserved blk mask v
  s.regPut b blk tid off v

/-- REQ of DOM_CTL names a domain of a die that is not enabled (R423); with no image it counts in VIOLATION instead (R43). -/
def State.reqUnmapped (s : State) (b : Blk) (off : Nat) (v : Word) : Bool :=
  b == .power && s.seq.active.isSome && decide (0x10000 ≤ off ∧ off < 0x10000 + 8 * 712) && fld v 59 2 != 0 &&
    !s.domEnabled ((off - 0x10000) / 8)

/-- A write of REMAPn whose row is being copied: its response waits for the copy and the switch (R306, R31). -/
def State.copies (s : State) (b : Blk) (off : Nat) (v : Word) : Bool :=
  match b with
  | .stack k => decide (0x100 ≤ off ∧ off < 0x180) && bit v 63 && bit v 62 &&
      (s.mc k).copying.any fun c => c.1 == (off - 0x100) / 8 && c.2.1 == remapRow v
  | _ => false

/-- The response of a write to a register is still to come. -/
def State.regPends (s : State) (pa : Nat) (wr : Option Word) : Bool :=
  (blkOf pa).any fun b => wr.any fun v => s.copies b (pa % 2 ^ 20) v

/-- An access of `n` bytes to a register window: the Err code, 0 when it succeeds, with the value read (R28, R30). -/
def State.regAccess (s : State) (tid : BitVec 12) (pa n : Nat) (wr : Option Word) : (Nat × Word) × State :=
  match blkOf pa with
  | none => ((1, 0), s)
  | some b =>
    let blk := pa / 2 ^ 20 * 2 ^ 20
    let off := pa % 2 ^ 20
    let (e, s) := s.blkErr b
    if e != 0 then ((e, 0), s)
    else if n != 8 || pa % 8 != 0 then ((2, 0), s.violate blk)
    else
      match wr with
      | none => ((0, ((s.regGet b blk off).map (·.1)).getD 0), s)
      | some v =>
        if s.reqUnmapped b off v then ((1, 0), s)
        else if s.copies b off v then ((0, 0), s)
        else ((0, 0), s.regWrite b blk tid off v)

/-! ### Accesses of a core to device space (R29) -/

/-- The part of a guest-window access that lies in one 32-byte half, as a partial write. -/
def guestPart (pa n : Nat) (v : BitVec 256) : Part :=
  ⟨v <<< (8 * (pa % 32)), BitVec.ofNat 32 ((2 ^ n - 1) * 2 ^ (pa % 32)), BitVec.ofNat 6 (pa % 64 / 32 * 32), false⟩

/-- An access to the guest window (R376): the answer that has come for it, or the request sent for it. -/
def State.guestAccess (s : State) (g pa n : Nat) (wr : Option (BitVec 256)) : Option (Nat × BitVec 256) × State :=
  let mine (x : Nat × Nat × Nat × Line) : Bool := x.1 == g
  match takeFirst mine s.guest.answers with
  | some ((_, a, code, d), rest) =>
    let s := s.modGuest fun q => { q with answers := rest }
    if a == pa then (some (code, BitVec.ofNat 256 (fld d (8 * (pa % 64)) (8 * n))), s) else (none, s)
  | none =>
    let out := ((s.guest.host.any fun x => x.2.1.node == g)) ||
      (s.inflight.any fun m => match m with
        | .guestWindowAccess h _ _ => h.node == g
        | _ => false)
    if out then (none, s)
    else
      let c := s.core g
      let op : GuestOp := match wr with
        | none => .rd
        | some v => .wrp (guestPart pa n v)
      match s.newHdr g c.tid c.cls with
      | none => (none, s)
      | some h =>
        let m : Instr := .guestWindowAccess h (pa - 0xF100000000000) op
        let t := s.tag g h.tag
        (none, (s.setTag g h.tag { t with req := some m, since := s.now }).send m)

/-- A register access of a node without tags (a core's instruction, the Steward), first issued at `since` (R269, R274): RETRY
is counted and the access issued again, unchanged, with its timer running; at TIMEOUT_NS of its class it ends as TIMEOUT. A
write whose response is still to come waits in the same way. No message code of Table 8-2 carries such an access (notes/assumptions/53.md): the register node answers it at once, its code
is the result. Answers the code and the value, none after RETRY, and the running timer. -/
def State.initReg (s : State) (node : Nat) (src : BitVec 16) (tid : BitVec 12) (cls : Nat) (since : Option Nat) (pa n : Nat)
    (wr : Option Word) : Option (Nat × Word) × Option Nat × State :=
  let t0 := since.getD s.now
  if since.isSome && decide (t0 + s.timeoutNs cls ≤ s.now) then
    (some (5, 0), none, (s.stat node fun x => { x with timeouts := x.timeouts + 1 }).fault src 0x21 (some tid) pa)
  else
    let s := if since.isSome then s else s.stat node fun x => { x with requests := x.requests + 1 }
    let ((e, v), s) := s.regAccess tid pa n wr
    if e == 4 then (none, some t0, s.stat node fun x => { x with retries := x.retries + 1 })
    else if e == 0 && s.regPends pa wr then (none, some t0, s)
    else (some (e, v), none, s)

/-- A core's access to a register. -/
def State.coreReg (s : State) (g pa n : Nat) (wr : Option (BitVec 256)) : Option (Nat × BitVec 256) × State :=
  let c := s.core g
  let (r, t, s) := s.initReg g (s.coreSrc g) c.tid 1 c.devSince pa n (wr.map fun v => v.setWidth 64)
  (r.map fun x => (x.1, x.2.setWidth 256), s.modCore g fun c => { c with devSince := t })

/-- A core's access to device space: none while it waits, else the error code (0 when it succeeds) and the value read. -/
def State.coreDev (s : State) (g pa n : Nat) (wr : Option (BitVec 256)) : Option (Nat × BitVec 256) × State :=
  if isGuestWindow pa then
    if !s.guest.present then (some (1, 0), s) else s.guestAccess g pa n wr
  else s.coreReg g pa n wr

/-! ### Rows that are register writes -/

/-- CLR_ERR (R226): a SLICE_CTL write with CLR_ERR. -/
def execClrErr (h : Nat) (v : Word) (s : State) : Out :=
  onWf (sliceOk h) (if bit v 8 && s.baseEn (h / 96) then
       (s.reserved (l3Block (h / 96)) (maskBits 8 0) v).l3Put (h / 96) (0x1000 + 0x40 * (h % 96)) v
     else s)

/-- SLICE_LFSR_WRITE (R200). -/
def execSliceLfsrWrite (h : Nat) (v : Word) (s : State) : Out :=
  onWf (sliceOk h) 
    (if s.baseEn (h / 96) then
       (s.reserved (l3Block (h / 96)) (maskBits 15 0) v).l3Put (h / 96) (0x1008 + 0x40 * (h % 96)) v
     else s)

/-- VIOLATION_CLEAR (R32): a write of a block's VIOLATION register with CLEAR. -/
def execViolationClear (block : Nat) (v : Word) (s : State) : Out :=
  onWf (paOk block)
    (match blkOf block with
     | some b =>
       let r := s.blkErr b
       if r.1 == 0 && bit v 63 then r.2.regPut b (block / 2 ^ 20 * 2 ^ 20) 0 8 v else r.2
     | none => s)

/-- STAT_CLEAR (R287): a STAT_CTL write with CLEAR. -/
def execStatClear (r : Nat) (v : Word) (s : State) : Out :=
  onWf (statOk r)
    (if bit v 1 then
       let s := s.reserved (if r < 576 then 0xF001000000000 + r / 48 * 0x100000000 + 0x200000 else hubBlock 0x9000000) 3 v
       { s with hier := { s.hier with stats := tmod s.hier.stats r Stat.initial fun x => x.ctl v } }
     else s)

/-- PV_CLEAR (R380): a PV_CTL write with CLEAR, of port u, of the mirror engine (8) or of the firewall (9). -/
def execPvClear (u : Nat) (v : Word) (s : State) : Out :=
  onWf (pvOk u)
    (let s := s.reserved (if u < 8 then portBlock u else if u == 8 then mirrorBlock else guestBlock)
       (maskBits 63 63 ||| maskBits 35 0) v
     if u < 8 then s.portWrite u 0x60 v else if u == 8 then s.mirrorWrite 0x60 v else s.guestRegWrite 0x20 v)

end Sys2Proof.Machine
end

