-- ==== Sys2Proof/Machine/Operands.lean ====
section
/-! DEFINITION. How an instruction runs: fetch checks, operands in memory and in frame slots, stores, and the step that
every instruction takes (Chapters 03 to 05). -/

namespace Sys2Proof.Machine

/-! ### Debug matches (R122) -/

/-- Matches fire at the present level and outside enclave mode (Table 4-7). -/
def Ctx.dbgOn (x : Ctx) : Bool :=
  let lv := fld (x.reg 0x188) 12 2
  !x.em && decide (x.pl ≤ lv)

/-- The first byte of an access that a data breakpoint watches. -/
def Ctx.dbp (x : Ctx) (acc : Access) (va : Word) (n : Nat) : Option Word :=
  let ctl := x.reg 0x188
  if x.dbgOn then
    (List.range 4).findSome? fun i =>
      let on := (bit ctl (4 + i) && (acc == .load || acc == .atomic)) || (bit ctl (8 + i) && (acc == .store || acc == .atomic))
      if on then
        ((List.range n).find? fun j => (va + BitVec.ofNat 64 j) >>> 3 == x.reg (0x184 + i) >>> 3).map
          fun j => va + BitVec.ofNat 64 j
      else none
  else none

/-- An instruction breakpoint on this instruction. -/
def Ctx.ibp (x : Ctx) : Bool :=
  x.dbgOn && (List.range 4).any fun i => bit (x.reg 0x188) i && x.pc == x.reg (0x180 + i)

/-! ### Accesses and their pieces (R74, R149) -/

/-- One part of an access that lies within a line: its translation, virtual address, and place in the access. -/
structure Piece where
  tr : Tr
  va : Word
  off : Nat
  n : Nat
  deriving DecidableEq, Repr

/-- Exceptions of the second half of a split access are marked so (R115). -/
def inSecondHalf {α : Type} (a : Exec α) : Exec α := fun s =>
  match a s with
  | .error (.exc e) s => .error (.exc { e with split := true }) s
  | r => r

/-- Translate an access of `n` bytes: one piece, or two halves (R149). -/
def pieces (x : Ctx) (acc : Access) (va : Word) (n : Nat) : Exec (List Piece) := do
  match x.dbp acc va n with
  | some a => raise 0x0C a
  | none =>
    let k := 64 - va.toNat % 64
    if n ≤ k then
      let t ← translate x acc va
      pure [⟨t, va, 0, n⟩]
    else
      let t ← translate x acc va
      let vb := va + BitVec.ofNat 64 k
      let u ← inSecondHalf (translate x acc vb)
      if isDevice t.pa then raise 0x07 va
      else if isDevice u.pa then raise 0x07 vb true
      else
        modify fun s => s.dueEvent x.g 0x019
        pure [⟨t, va, 0, k⟩, ⟨u, vb, k, n - k⟩]

/-! ### Reading memory (R147, R150) -/

/-- The byte that the youngest store-buffer entry covering a physical address holds. -/
def Core.sbByte (c : Core) (pa : Nat) : Option Byte :=
  c.sb.reverse.findSome? fun e =>
    if e.pa ≤ pa && pa < e.pa + 32 && e.mask.getLsbD (pa - e.pa) then some (byteOf e.data (pa - e.pa)) else none

/-- A proven demand access to cached memory trains the L2's trackers and may request lines ahead (R208, R209); those that
cannot leave at once wait. -/
def State.train (s : State) (x : Ctx) (line : Nat) (miss : Bool) : State :=
  let c := s.core x.g
  let ctl := c.eff srPfCtl
  if !c.l2On || !bit ctl 0 || c.unproven line then s
  else
    let lf := lfsrNext c.lfsr2
    let (ts, ls, used) := trackStep c.trackers x.g (streamHash x.pc) line (fld ctl 4 4 + 1) (fld ctl 8 2 + 1) miss 32 lf.toNat
    let want := ls.filter fun l => (c.inL2 l).isNone && !c.waits l && !(c.pfWait.any fun p => p.1 == l)
    (s.setCore x.g { c with
      trackers := ts, lfsr2 := if used then lf else c.lfsr2,
      pfWait := c.pfWait ++ want.map fun l => (l, x.hint c) }).prefetchOn x.g

/-- Read the bytes of one piece that lies in memory: from the store buffer, or from its line (R147). -/
def readBytes (x : Ctx) (p : Piece) : Exec Nat := do
  let c := (← get).core x.g
  let bs := (List.range p.n).map fun i => c.sbByte (p.tr.pa + i)
  if bs.all (·.isSome) then
    modify fun s => s.once x 0x018 x.pc.toNat
    pure (leNat (bs.map fun b => b.getD 0))
  else if bs.any (·.isSome) then waitNow
  else
    let line := p.tr.pa / 64
    match ← readLine x line p.tr.uc .data with
    | .inr _ => raise 0x07 p.va
    | .inl d =>
      if d.poison then raise 0x41 p.va
      else
        modify fun s => if p.tr.uc then s else s.train x line ((s.core x.g).seen.contains (0x00B, line))
        pure (lineBytes d (p.tr.pa % 64) p.n)

/-- Read the bytes of one piece. DESIGN CHOICE (log 51): where the second half of a split load is poisoned, EADDR is that
half's first byte and SPLIT stays clear; R150 says "data address". -/
def readPiece (x : Ctx) (p : Piece) : Exec Nat := do
  if isDevice p.tr.pa then
    let s ← get
    if !(s.core x.g).sb.isEmpty then waitNow
    else
      let (r, s) := s.coreDev x.g p.tr.pa p.n none
      set s
      match r with
      | none => waitNow
      | some (code, v) => if code == 0 then pure v.toNat else raise 0x07 p.va
  else readBytes x p

/-- Read an access of `n` bytes. -/
def readMem (x : Ctx) (va : Word) (n : Nat) : Exec Nat := do
  let ps ← pieces x .load va n
  let v ← ps.foldlM (fun a p => do
    let v ← readPiece x p
    pure (a + 2 ^ (8 * p.off) * v)) 0
  modify fun s => s.dueEvent x.g 0x007
  pure v

/-! ### Storing (R146, R151) -/

/-- One store of an instruction: where it goes and its bytes, the piece's own at their place in the access. -/
structure Store where
  p : Piece
  data : BitVec 256
  deriving DecidableEq, Repr

/-- The bytes of the piece alone. -/
def Store.bytes (w : Store) : BitVec 256 := w.data >>> (8 * w.p.off) &&& BitVec.ofNat 256 (2 ^ (8 * w.p.n) - 1)

def Store.dev (w : Store) : Bool := isDevice w.p.tr.pa

/-- The store-buffer entry of a store. -/
def sbEntry (x : Ctx) (c : Core) (w : Store) : SbEntry :=
  { pa := w.p.tr.pa, data := w.bytes, mask := BitVec.ofNat 32 (2 ^ w.p.n - 1), uncached := w.p.tr.uc, sent := false,
    tid := c.tid, hash := x.hint c, va := w.p.va, pc := x.pc }

/-- A frame-map entry's physical address. -/
def FrameEntry.pa (e : FrameEntry) : Nat := 64 * e.line + fld e.va 0 6

/-- A non-frame store drops the frame-map entries it overlaps; that is the flush of R79 (R143, R140). -/
def State.frameHit (s : State) (g : Nat) (es : List SbEntry) : State :=
  let c := s.core g
  let hit (e : Nat × FrameEntry) : Bool :=
    es.any fun b => (List.range 32).any fun i => b.mask.getLsbD i && e.2.pa ≤ b.pa + i && b.pa + i < e.2.pa + 8
  if c.fmap.any hit then
    ((s.setCore g { c with fmap := c.fmap.filter fun e => !hit e }).hazeFlush g).dueEvent g 0x017
  else s

/-- Enter a slot's value in the frame-operand map, if its line is in L1D. -/
def Core.frameFill (c : Core) (va : Word) (line : Nat) (v : Word) : Core :=
  match c.fmap.find? fun e => e.2.va == va with
  | some (k, _) => { c with fmap := tput c.fmap k ⟨va, line, v⟩ }
  | none =>
    if !c.l1dOn || (c.inL1d line).isNone then c
    else
      let (k, lf) := pickWay c.fmap 0 64 c.lfsrC
      { c with fmap := tput c.fmap k ⟨va, line, v⟩, lfsrC := lf }

/-- A frame-form store writes its slot's entry, and drops an entry that holds the same bytes under another address (R79,
R142). DESIGN CHOICE (log 51): a store that misses the map allocates an entry when its line is in L1D, as a read does; R142
states allocation for reads only. -/
def Core.frameStore (c : Core) (w : Store) : Core :=
  let c := { c with fmap := c.fmap.filter fun e => !(e.2.pa == w.p.tr.pa && (e.2.va != w.p.va || w.p.tr.uc)) }
  if w.p.tr.uc then c else c.frameFill w.p.va (w.p.tr.pa / 64) (w.data.setWidth 64)

/-- Stores to memory enter the store buffer in order (R146), and train the prefetcher (R208). -/
def State.bufferStores (s : State) (x : Ctx) (ws : List Store) (frame : Bool) : State :=
  let es := ws.map fun w => sbEntry x (s.core x.g) w
  let s := s.modCore x.g fun c => { c with sb := c.sb ++ es, due := c.due ++ es.map fun _ => 0x008 }
  let s := if frame then s.modCore x.g fun c => ws.foldl (fun c w => c.frameStore w) c else s.frameHit x.g es
  es.foldl (fun s e =>
    let c := s.core x.g
    let line := e.pa / 64
    if e.uncached || !c.l2On then s
    else
      let s := if c.l1dOn && (c.inL1d line).isNone then s.once x 0x009 line else s
      s.train x line (c.inL2 line).isNone) s

/-- Device-space stores in order, all or none: an instruction that raises an exception changes nothing (R96). Where one
cannot be answered now, or fails, only its own attempt stands. -/
def devStores (x : Ctx) (ws : List Store) : Exec Unit := fun s0 =>
  let r : Except (Stop × State) State := ws.foldl (fun r w => r.bind fun s =>
    match s.coreDev x.g w.p.tr.pa w.p.n (some w.bytes) with
    | (some (0, _), s) => .ok s
    | (some _, _) => .error (.exc { code := 0x07, addr := w.p.va }, (s0.coreDev x.g w.p.tr.pa w.p.n (some w.bytes)).2)
    | (none, _) => .error (.wait, (s0.coreDev x.g w.p.tr.pa w.p.n (some w.bytes)).2)) (.ok s0)
  match r with
  | .ok s => .ok () s
  | .error (e, s) => .error e s

/-- Whether device-space stores would fail now: their exception is raised before any store of the instruction (R96). -/
def devProbe (x : Ctx) (ws : List Store) : Exec Unit := fun s =>
  match devStores x ws s with
  | .error (.exc e) t => .error (.exc e) t
  | _ => .ok () s

/-- The stores of one instruction in ascending order (R97, R151). A device-space store waits until every earlier store is
visible (R136): at the start the instruction waits; after stores of its own to memory, these enter the store buffer and the
rest is kept until they are visible. -/
def storePieces (x : Ctx) (ws : List Store) (frame : Bool) : Exec Unit := do
  let c := (← get).core x.g
  let first := ws.takeWhile (·.dev)
  let mem := (ws.dropWhile (·.dev)).takeWhile fun w => !w.dev
  let rest := (ws.dropWhile (·.dev)).dropWhile fun w => !w.dev
  if c.sb.length + mem.length > 96 || (!first.isEmpty && !c.sb.isEmpty) then waitNow
  else
    devProbe x (rest.filter (·.dev))
    devStores x first
    modify fun s =>
      let s := s.bufferStores x mem frame
      if rest.isEmpty then s
      else s.modCore x.g fun c => { c with
        stall := .slots (rest.map fun w => (w.p.tr.pa, w.p.tr.uc, w.p.va, w.data.setWidth 64)) }

/-- The slots kept by an instruction whose earlier stores are now visible are stored; with the last it completes (R97). -/
def State.slotsGo (s : State) (g : Nat) : State :=
  let c := s.core g
  match c.stall with
  | .slots rest =>
    if !c.sb.isEmpty then s
    else
      let x := c.ctx g
      let ws : List Store := rest.map fun r => ⟨⟨⟨r.1, r.2.1⟩, r.2.2.1, 0, 8⟩, r.2.2.2.setWidth 256⟩
      match storePieces x ws true (s.setCore g { c with stall := .none }) with
      | .ok () t => if (t.core g).stall == .none then t.finishStall g else t
      | .error (.exc e) t => t.takeExc g x.sw e
      | .error .wait t => t.modCore g fun k => { k with stall := c.stall }
  | _ => s

/-- TSWITCH's pushes are visible: TID takes the new tenant, and the residency update leaves (R322 step 4). -/
def State.tenantGo (s : State) (g : Nat) (old new : BitVec 12) : State :=
  let s := s.modCore g fun c => { (c.setNow srTid (new.setWidth 64)).tlbFlush with stall := .tswitch old new [] }
  s.send (.residencyUpdate g new true)

/-- What waited until the core's stores are visible goes on. -/
def State.storesGo (s : State) (g : Nat) : State :=
  let c := s.core g
  if !c.sb.isEmpty then s
  else match c.stall with
    | .slots _ => s.slotsGo g
    | .tpush old new => s.tenantGo g old new
    | _ => s

/-- Store `n` bytes by a non-frame access. -/
def storeMem (x : Ctx) (va : Word) (n : Nat) (data : BitVec 256) : Exec Unit := do
  let ps ← pieces x .store va n
  storePieces x (ps.map fun p => ⟨p, data⟩) false

/-! ### Frame slots (R76–R80, R142) -/

def slotVa (c : Core) (k : Nat) : Word := c.f + BitVec.ofNat 64 (8 * k)

/-- Read slot k. -/
def slotRead (x : Ctx) (k : Nat) : Exec Word := do
  let va := slotVa ((← get).core x.g) k
  match x.dbp .load va 8 with
  | some a => raise 0x0C a
  | none =>
    let t ← translate x .load va
    let c := (← get).core x.g
    match c.fmap.find? fun e => e.2.va == va && e.2.pa == t.pa && !t.uc with
    | some e =>
      modify fun s => (s.once x 0x016 va.toNat).dueEvent x.g 0x007
      pure e.2.value
    | none =>
      let v ← readPiece x ⟨t, va, 0, 8⟩
      let w := BitVec.ofNat 64 v
      modify fun s =>
        let s := if t.uc then s else s.modCore x.g fun c => c.frameFill va (t.pa / 64) w
        s.dueEvent x.g 0x007
      pure w

/-- Source slots in ascending order, each read once (R95): their values by number. -/
def slotsRead (x : Ctx) (ks : List Nat) : Exec (Table Word) :=
  ((List.range 32).filter fun k => ks.contains k).foldlM (fun t k => do
    let v ← slotRead x k
    pure (tput t k v)) []

/-- Translate a destination slot (R95 step 7). -/
def slotDest (x : Ctx) (k : Nat) : Exec Piece := do
  let va := slotVa ((← get).core x.g) k
  match x.dbp .store va 8 with
  | some a => raise 0x0C a
  | none =>
    let t ← translate x .store va
    pure ⟨t, va, 0, 8⟩

/-- Write slots, all translations first, then the stores in ascending order (R95–R97). -/
def slotsWrite (x : Ctx) (vs : List (Nat × Word)) : Exec Unit := do
  let vs := vs.foldl (fun t v => tput t v.1 v.2) ([] : Table Word)
  let ps ← vs.mapM fun v => do
    let p ← slotDest x v.1
    pure ⟨p, v.2.setWidth 256⟩
  storePieces x ps true

/-! ### Format-A operands (R72, R73) -/

def opSize (size : BitVec 2) : Nat := 2 ^ size.toNat

/-- EA of a format-A instruction with the given unit. -/
def Ctx.ea (x : Ctx) (c : Core) (base : BitVec 2) (disp : BitVec 22) (unit : Nat) : Word :=
  (match base.toNat with | 0 => c.f | 1 => c.x | 2 => c.y | _ => x.pc) + sext64 disp * BitVec.ofNat 64 unit

/-- Whether a format-A access is a frame-form access (R77), and to which slot. -/
def frameForm (base size : BitVec 2) (disp : BitVec 22) : Option Nat :=
  if base == 0 && size == 3 && decide (disp.toNat < 32) then some disp.toNat else none

/-- The memory operand m as read. -/
def operandRead (x : Ctx) (base size : BitVec 2) (disp : BitVec 22) : Exec Nat := do
  match frameForm base size disp with
  | some k => return (← slotRead x k).toNat
  | none => readMem x (x.ea ((← get).core x.g) base disp (opSize size)) (opSize size)

/-- m sign-extended from its size. -/
def sextOf (size : BitVec 2) (m : Nat) : Word := (BitVec.ofNat (8 * opSize size) m).signExtend 64

/-- m := the low bytes of a register. -/
def operandWrite (x : Ctx) (base size : BitVec 2) (disp : BitVec 22) (v : Word) : Exec Unit := do
  match frameForm base size disp with
  | some k => slotsWrite x [(k, v)]
  | none => storeMem x (x.ea ((← get).core x.g) base disp (opSize size)) (opSize size) (v.setWidth 256)

/-! ### The step of an instruction -/

/-- A core can execute an instruction now: no broadcast that it has taken is still to be acknowledged (R188). -/
def State.canExec (s : State) (g : Nat) : Bool :=
  let c := s.core g
  s.coreRuns g && c.run == .running && c.stall == .none && !c.forced && !(c.bcasts.any (·.stores.isSome))

/-- The checks of fetching the instruction at P (R122, R170, R178): the word itself is what the command carries. -/
def fetch (x : Ctx) : Exec Unit := do
  let c := (← get).core x.g
  if x.ibp && !c.skipBp then raise 0x0C x.pc
  else
    let t ← translate x .fetch x.pc
    match ← readLine x (t.pa / 64) t.uc .instr with
    | .inr _ => raise 0x08 x.pc
    | .inl d => if d.poison then raise 0x40 x.pc

/-- What an instruction that stopped leaves of the core: no register has changed (R96), and its events of class Never do not
count; what it has read, filled and counted stays (R160). -/
def State.undo (s : State) (g : Nat) : State := s.modCore g fun c => { c with due := [] }

/-- R105, R109: the interrupt that a core takes at this boundary. -/
def State.intDue (s : State) (g : Nat) : Option Nat := (s.core g).takes s.now (s.core g).seenSw

/-- The entry of an interrupt, with EPC the instruction not yet started; in enclave mode it waits until every earlier store
is visible (R342). -/
def State.interrupt (s : State) (g code : Nat) : State :=
  let c := s.core g
  if swEm c.sw && !c.sb.isEmpty then s
  else s.enterExc g (max (c.intLevel code) (swPl c.seenSw)) false c.seenSw { code := code }

/-- What a core does at a boundary before it executes (R109, R206, R342): a failed store's DATA_ERROR, a STEP that waited, an
uncorrectable error of its arrays, the interrupt it takes; none where it goes on. -/
def State.boundary (s : State) (g : Nat) : Option State :=
  let c := s.core g
  match c.storeErr with
  | some e => some (s.dataError g e.1 e.2)
  | none =>
    if c.stepDue then
      some (if c.sb.isEmpty then (s.setCore g { c with stepDue := false }).takeExc g c.seenSw { code := 0x0D } else s)
    else if c.ueDue then
      some (if swEm c.sw && !c.sb.isEmpty then s
        else (s.setCore g { c with ueDue := false }).takeExc g c.seenSw { code := 0x43 })
    else (s.intDue g).map fun code => s.interrupt g code

/-- One instruction of core g: the body answers the next address, or none when the core now waits for an answer that will
complete it. A core that a retained domain's agent has marked first drops its translation entries (R189). An instruction that
must wait leaves the core at it: the same command comes again (log 50). -/
def State.coreStep (s : State) (g : Nat) (body : Ctx → Exec (Option Word)) (eret : Bool := false) : State :=
  if !s.canExec g then s
  else
    let s := if (s.core g).tlbMark then s.modCore g fun c => { c.tlbFlush with owners := [], tlbMark := false } else s
    match s.boundary g with
    | some t => t
    | none =>
      let x := (s.core g).ctx g
      match (do fetch x; body x) s with
      | .ok (some p) t => if (t.core g).stall == .none then t.retire g x.sw x.n p eret else t
      | .ok none t => t
      | .error .wait t => t.undo g
      | .error (.exc e) t => (t.undo g).takeExc g x.sw e

/-- Complete with the next instruction. -/
def done (x : Ctx) : Exec (Option Word) := pure (some (x.pc + 4))

/-- ILLEGAL unless a condition holds (R87). -/
def legal (ok : Bool) : Exec Unit := if ok then pure () else raise 0x01

/-- PRIVILEGE below a level (R100). -/
def needLevel (x : Ctx) (lv : Nat) : Exec Unit := if x.pl < lv then raise 0x02 else pure ()

/-- Change the core. -/
def setRegs (x : Ctx) (f : Core → Core) : Exec Unit := modify fun s => s.modCore x.g f

end Sys2Proof.Machine
end

