-- ==== Sys2Proof/Machine/Integer.lean ====
section
/-! DEFINITION. The integer, multiply and divide, and floating-point groups of format T (Tables 3-5, 3-6 and 3-8). -/

namespace Sys2Proof.Machine

/-- s[D] := f (s[SA], s[SB]). -/
def binary (x : Ctx) (d sa sb : BitVec 5) (f : Word → Word → Word) : Exec (Option Word) := do
  let v ← slotsRead x [sa.toNat, sb.toNat]
  slotsWrite x [(d.toNat, f (tget v sa.toNat 0) (tget v sb.toNat 0))]
  done x

/-- s[D] := f s[SA]; SB must be 0. -/
def unary (x : Ctx) (d sa sb : BitVec 5) (f : Word → Word) : Exec (Option Word) := do
  legal (sb == 0)
  let v ← slotsRead x [sa.toNat]
  slotsWrite x [(d.toNat, f (tget v sa.toNat 0))]
  done x

/-- A division: a divisor of 0 raises the divide exception (R82). -/
def divide (x : Ctx) (d sa sb : BitVec 5) (f : Word → Word → Word) : Exec (Option Word) := do
  let v ← slotsRead x [sa.toNat, sb.toNat]
  if tget v sb.toNat 0 == 0 then raise 0x03
  else
    slotsWrite x [(d.toNat, f (tget v sa.toNat 0) (tget v sb.toNat 0))]
    done x

/-- An instruction of a feature: ILLEGAL while its CAPS bit is clear (R41, R87). -/
def needCap (k : Nat) : Exec Unit := do legal ((← get).cap k)

/-! ### Integer operations (R82) -/

/-- Leading zero bits, `w` for 0. -/
def leadingZeros {w : Nat} (a : BitVec w) : Nat := ((List.range w).find? fun i => a.getLsbD (w - 1 - i)).getD w

/-- Trailing zero bits, `w` for 0. -/
def trailingZeros {w : Nat} (a : BitVec w) : Nat := ((List.range w).find? fun i => a.getLsbD i).getD w

/-- The bytes in reversed order. -/
def byteSwap (a : Word) : Word := ofBytes 64 (toBytes a 8).reverse

/-- A shift or rotate amount: the low 6 bits. -/
def shAmount (b : Word) : Nat := fld b 0 6

def mulHighS (a b : Word) : Word := BitVec.ofInt 64 (a.toInt * b.toInt / 2 ^ 64)
def mulHighU (a b : Word) : Word := BitVec.ofNat 64 (a.toNat * b.toNat / 2 ^ 64)

/-- A signed quotient that rounds toward zero; −2^63 ÷ −1 is −2^63. -/
def divS (a b : Word) : Word := BitVec.ofInt 64 (a.toInt.tdiv b.toInt)

/-- A signed remainder with the sign of the dividend. -/
def remS (a b : Word) : Word := BitVec.ofInt 64 (a.toInt.tmod b.toInt)

/-- A binary64 operation on slot values. -/
def float2 (f : Nat → Nat → Nat) (a b : Word) : Word := BitVec.ofNat 64 (f a.toNat b.toNat)

/-- ADD (Table 3-5, R88). -/
def execAdd (c : Nat) (d sa sb : BitVec 5) (s : State) : Out :=
  onWf (coreOk c) (s.coreStep c fun x => binary x d sa sb (· + ·))

/-- SUB (Table 3-5, R88). -/
def execSub (c : Nat) (d sa sb : BitVec 5) (s : State) : Out :=
  onWf (coreOk c) (s.coreStep c fun x => binary x d sa sb (· - ·))

/-- AND (Table 3-5, R88). -/
def execAndT (c : Nat) (d sa sb : BitVec 5) (s : State) : Out :=
  onWf (coreOk c) (s.coreStep c fun x => binary x d sa sb (· &&& ·))

/-- OR (Table 3-5, R88). -/
def execOrT (c : Nat) (d sa sb : BitVec 5) (s : State) : Out :=
  onWf (coreOk c) (s.coreStep c fun x => binary x d sa sb (· ||| ·))

/-- XOR (Table 3-5, R88). -/
def execXor (c : Nat) (d sa sb : BitVec 5) (s : State) : Out :=
  onWf (coreOk c) (s.coreStep c fun x => binary x d sa sb (· ^^^ ·))

/-- SHL (Table 3-5, R88). -/
def execShl (c : Nat) (d sa sb : BitVec 5) (s : State) : Out :=
  onWf (coreOk c) (s.coreStep c fun x => binary x d sa sb (fun a b => a <<< shAmount b))

/-- SHR (Table 3-5, R88). -/
def execShr (c : Nat) (d sa sb : BitVec 5) (s : State) : Out :=
  onWf (coreOk c) (s.coreStep c fun x => binary x d sa sb (fun a b => a >>> shAmount b))

/-- SAR (Table 3-5, R88). -/
def execSar (c : Nat) (d sa sb : BitVec 5) (s : State) : Out :=
  onWf (coreOk c) (s.coreStep c fun x => binary x d sa sb (fun a b => a.sshiftRight (shAmount b)))

/-- ROR (Table 3-5, R88). -/
def execRor (c : Nat) (d sa sb : BitVec 5) (s : State) : Out :=
  onWf (coreOk c) (s.coreStep c fun x => binary x d sa sb (fun a b => a.rotateRight (shAmount b)))

/-- MIN (Table 3-5, R88). -/
def execMin (c : Nat) (d sa sb : BitVec 5) (s : State) : Out :=
  onWf (coreOk c) (s.coreStep c fun x => binary x d sa sb (fun a b => if a.sle b then a else b))

/-- MAX (Table 3-5, R88). -/
def execMax (c : Nat) (d sa sb : BitVec 5) (s : State) : Out :=
  onWf (coreOk c) (s.coreStep c fun x => binary x d sa sb (fun a b => if a.sle b then b else a))

/-- MINU (Table 3-5, R88). -/
def execMinu (c : Nat) (d sa sb : BitVec 5) (s : State) : Out :=
  onWf (coreOk c) (s.coreStep c fun x => binary x d sa sb (fun a b => if a ≤ b then a else b))

/-- MAXU (Table 3-5, R88). -/
def execMaxu (c : Nat) (d sa sb : BitVec 5) (s : State) : Out :=
  onWf (coreOk c) (s.coreStep c fun x => binary x d sa sb (fun a b => if a ≤ b then b else a))

/-- SLT (Table 3-5, R88). -/
def execSlt (c : Nat) (d sa sb : BitVec 5) (s : State) : Out :=
  onWf (coreOk c) (s.coreStep c fun x => binary x d sa sb (fun a b => boolWord (a.slt b)))

/-- SLTU (Table 3-5, R88). -/
def execSltu (c : Nat) (d sa sb : BitVec 5) (s : State) : Out :=
  onWf (coreOk c) (s.coreStep c fun x => binary x d sa sb (fun a b => boolWord (a.ult b)))

/-- MOVS (Table 3-5, R88). -/
def execMovs (c : Nat) (d sa sb : BitVec 5) (s : State) : Out :=
  onWf (coreOk c) (s.coreStep c fun x => unary x d sa sb (fun a => a))

/-- CLZ (Table 3-5, R88). -/
def execClz (c : Nat) (d sa sb : BitVec 5) (s : State) : Out :=
  onWf (coreOk c) (s.coreStep c fun x => unary x d sa sb (fun a => BitVec.ofNat 64 (leadingZeros a)))

/-- CTZ (Table 3-5, R88). -/
def execCtz (c : Nat) (d sa sb : BitVec 5) (s : State) : Out :=
  onWf (coreOk c) (s.coreStep c fun x => unary x d sa sb (fun a => BitVec.ofNat 64 (trailingZeros a)))

/-- POPC (Table 3-5, R88). -/
def execPopc (c : Nat) (d sa sb : BitVec 5) (s : State) : Out :=
  onWf (coreOk c) (s.coreStep c fun x => unary x d sa sb (fun a => BitVec.ofNat 64 (popcount a.toNat 64)))

/-- BSWAP (Table 3-5, R88). -/
def execBswap (c : Nat) (d sa sb : BitVec 5) (s : State) : Out :=
  onWf (coreOk c) (s.coreStep c fun x => unary x d sa sb byteSwap)

/-- MUL (Table 3-6). -/
def execMul (c : Nat) (d sa sb : BitVec 5) (s : State) : Out :=
  onWf (coreOk c) (s.coreStep c fun x => binary x d sa sb (· * ·))

/-- MULH (Table 3-6). -/
def execMulh (c : Nat) (d sa sb : BitVec 5) (s : State) : Out :=
  onWf (coreOk c) (s.coreStep c fun x => do
    needCap 4
    binary x d sa sb mulHighS)

/-- MULHU (Table 3-6). -/
def execMulhu (c : Nat) (d sa sb : BitVec 5) (s : State) : Out :=
  onWf (coreOk c) (s.coreStep c fun x => do
    needCap 4
    binary x d sa sb mulHighU)

/-- DIV (Table 3-6, R82). -/
def execDiv (c : Nat) (d sa sb : BitVec 5) (s : State) : Out :=
  onWf (coreOk c) (s.coreStep c fun x => divide x d sa sb divS)

/-- DIVU (Table 3-6, R82). -/
def execDivu (c : Nat) (d sa sb : BitVec 5) (s : State) : Out :=
  onWf (coreOk c) (s.coreStep c fun x => divide x d sa sb (fun a b => a / b))

/-- REM (Table 3-6, R82). -/
def execRem (c : Nat) (d sa sb : BitVec 5) (s : State) : Out :=
  onWf (coreOk c) (s.coreStep c fun x => divide x d sa sb remS)

/-- REMU (Table 3-6, R82). -/
def execRemu (c : Nat) (d sa sb : BitVec 5) (s : State) : Out :=
  onWf (coreOk c) (s.coreStep c fun x => divide x d sa sb (fun a b => a % b))

/-! ### Floating point (R83) -/

/-- FADD (Table 3-8, R83). -/
def execFadd (c : Nat) (d sa sb : BitVec 5) (s : State) : Out :=
  onWf (coreOk c) (s.coreStep c fun x => binary x d sa sb (float2 (fpAdd f64)))

/-- FSUB (Table 3-8, R83). -/
def execFsub (c : Nat) (d sa sb : BitVec 5) (s : State) : Out :=
  onWf (coreOk c) (s.coreStep c fun x => binary x d sa sb (float2 (fpSub f64)))

/-- FMUL (Table 3-8, R83). -/
def execFmul (c : Nat) (d sa sb : BitVec 5) (s : State) : Out :=
  onWf (coreOk c) (s.coreStep c fun x => binary x d sa sb (float2 (fpMul f64)))

/-- FDIV (Table 3-8, R83). -/
def execFdiv (c : Nat) (d sa sb : BitVec 5) (s : State) : Out :=
  onWf (coreOk c) (s.coreStep c fun x => binary x d sa sb (float2 (fpDiv f64)))

/-- FMIN (Table 3-8, R83). -/
def execFmin (c : Nat) (d sa sb : BitVec 5) (s : State) : Out :=
  onWf (coreOk c) (s.coreStep c fun x => binary x d sa sb (float2 (fpMin f64)))

/-- FMAX (Table 3-8, R83). -/
def execFmax (c : Nat) (d sa sb : BitVec 5) (s : State) : Out :=
  onWf (coreOk c) (s.coreStep c fun x => binary x d sa sb (float2 (fpMax f64)))

/-- FSQRT (Table 3-8, R83). -/
def execFsqrt (c : Nat) (d sa sb : BitVec 5) (s : State) : Out :=
  onWf (coreOk c) (s.coreStep c fun x => unary x d sa sb fun a => BitVec.ofNat 64 (fpSqrt f64 a.toNat))

/-- FMA (Table 3-8): s[D] is a source too. -/
def execFma (c : Nat) (d sa sb : BitVec 5) (s : State) : Out :=
  onWf (coreOk c) (s.coreStep c fun x => do
    let v ← slotsRead x [sa.toNat, sb.toNat, d.toNat]
    let r := fpFma f64 (tget v sa.toNat 0).toNat (tget v sb.toNat 0).toNat (tget v d.toNat 0).toNat
    slotsWrite x [(d.toNat, BitVec.ofNat 64 r)]
    done x)

/-- FCVTI (Table 3-8, R83). -/
def execFcvti (c : Nat) (d sa sb : BitVec 5) (s : State) : Out :=
  onWf (coreOk c) (s.coreStep c fun x => unary x d sa sb fpToInt64)

/-- FCVTF (Table 3-8, R83). -/
def execFcvtf (c : Nat) (d sa sb : BitVec 5) (s : State) : Out :=
  onWf (coreOk c) (s.coreStep c fun x => unary x d sa sb fpOfInt64)

/-- FLT (Table 3-8, R83). -/
def execFlt (c : Nat) (d sa sb : BitVec 5) (s : State) : Out :=
  onWf (coreOk c) (s.coreStep c fun x => binary x d sa sb fun a b => boolWord (fpLt f64 a.toNat b.toNat))

/-- FEQ (Table 3-8, R83). -/
def execFeq (c : Nat) (d sa sb : BitVec 5) (s : State) : Out :=
  onWf (coreOk c) (s.coreStep c fun x => binary x d sa sb fun a b => boolWord (fpEq f64 a.toNat b.toNat))

end Sys2Proof.Machine
end

