-- ==== Sys2Proof/Machine/Side.lean ====
section
/-! DEFINITION. The crypto and CRC group of format T (Table 3-7, R89). -/

namespace Sys2Proof.Machine

/-- A pair is an even slot, a group a multiple of 4, an octet a multiple of 8 (R81). -/
def alignedSlot (n : Nat) (k : BitVec 5) : Bool := k.toNat % n == 0

/-- Slots k to k + n − 1. -/
def slotRange (k : BitVec 5) (n : Nat) : List Nat := (List.range n).map (k.toNat + ·)

/-- A pair's 128 bits, the lower slot in the low half. -/
def pairOf (v : Table Word) (k : BitVec 5) : BitVec 128 :=
  BitVec.ofNat 128 ((tget v k.toNat 0).toNat + 2 ^ 64 * (tget v (k.toNat + 1) 0).toNat)

/-- A pair of slots from 128 bits. -/
def pairSlots (k : BitVec 5) (r : BitVec 128) : List (Nat × Word) :=
  [(k.toNat, r.setWidth 64), (k.toNat + 1, (r >>> 64).setWidth 64)]

/-- An AES instruction on pairs. -/
def aesOp (x : Ctx) (d sa sb : BitVec 5) (f : BitVec 128 → BitVec 128 → BitVec 128) : Exec (Option Word) := do
  needCap 1
  legal (alignedSlot 2 d && alignedSlot 2 sa && alignedSlot 2 sb)
  let v ← slotsRead x (slotRange sa 2 ++ slotRange sb 2)
  slotsWrite x (pairSlots d (f (pairOf v sa) (pairOf v sb)))
  done x

/-- One SHA-2 round with words of `w` bits over the `n` slots from D, whose values and s[SA] `v` holds: the new slots. -/
def shaGroup (w n : Nat) (v : Table Word) (d sa : BitVec 5) : List (Nat × Word) :=
  let st := ((slotRange d n).map fun k => tget v k 0).foldr (fun a r => a.toNat + 2 ^ 64 * r) 0
  let ws : List (BitVec w) := (List.range 8).map fun i => BitVec.ofNat w (bitsOf st (w * i) w)
  let r := (shaRound w ws (BitVec.ofNat w (tget v sa.toNat 0).toNat)).foldr (fun a r => a.toNat + 2 ^ w * r) 0
  (List.range n).map fun i => (d.toNat + i, BitVec.ofNat 64 (bitsOf r (64 * i) 64))

/-- A SHA-2 round as an instruction. -/
def shaOp (x : Ctx) (w n : Nat) (d sa sb : BitVec 5) : Exec (Option Word) := do
  needCap 2
  legal (sb == 0 && alignedSlot n d)
  let v ← slotsRead x (slotRange d n ++ [sa.toNat])
  slotsWrite x (shaGroup w n v d sa)
  done x

/-- CRC-32C over the low `n` bytes of s[SB]. -/
def crcOp (x : Ctx) (d sa sb : BitVec 5) (n : Nat) : Exec (Option Word) := do
  needCap 3
  binary x d sa sb fun a b => (crc32c (a.setWidth 32) (toBytes b n)).setWidth 64

/-- AESE (Table 3-7). -/
def execAese (c : Nat) (d sa sb : BitVec 5) (s : State) : Out :=
  onWf (coreOk c) (s.coreStep c fun x => aesOp x d sa sb aesEnc)

/-- AESEL (Table 3-7). -/
def execAesel (c : Nat) (d sa sb : BitVec 5) (s : State) : Out :=
  onWf (coreOk c) (s.coreStep c fun x => aesOp x d sa sb aesEncLast)

/-- AESD (Table 3-7). -/
def execAesd (c : Nat) (d sa sb : BitVec 5) (s : State) : Out :=
  onWf (coreOk c) (s.coreStep c fun x => aesOp x d sa sb aesDec)

/-- AESDL (Table 3-7). -/
def execAesdl (c : Nat) (d sa sb : BitVec 5) (s : State) : Out :=
  onWf (coreOk c) (s.coreStep c fun x => aesOp x d sa sb aesDecLast)

/-- AESSUB (Table 3-7). -/
def execAessub (c : Nat) (d sa sb : BitVec 5) (s : State) : Out :=
  onWf (coreOk c) (s.coreStep c fun x => do
    needCap 1
    unary x d sa sb fun a => ofBytes 64 ((toBytes a 8).map sbox))

/-- SHA256R (Table 3-7). -/
def execSha256r (c : Nat) (d sa sb : BitVec 5) (s : State) : Out :=
  onWf (coreOk c) (s.coreStep c fun x => shaOp x 32 4 d sa sb)

/-- SHA512R (Table 3-7). -/
def execSha512r (c : Nat) (d sa sb : BitVec 5) (s : State) : Out :=
  onWf (coreOk c) (s.coreStep c fun x => shaOp x 64 8 d sa sb)

/-- SHA256W (Table 3-7). -/
def execSha256w (c : Nat) (d sa sb : BitVec 5) (s : State) : Out :=
  onWf (coreOk c) (s.coreStep c fun x => do
    needCap 2
    binary x d sa sb fun a b => (smallSig1 32 (a.setWidth 32) + smallSig0 32 (b.setWidth 32)).setWidth 64)

/-- SHA512W (Table 3-7). -/
def execSha512w (c : Nat) (d sa sb : BitVec 5) (s : State) : Out :=
  onWf (coreOk c) (s.coreStep c fun x => do
    needCap 2
    binary x d sa sb fun a b => smallSig1 64 a + smallSig0 64 b)

/-- CRC32CB (Table 3-7). -/
def execCrc32cb (c : Nat) (d sa sb : BitVec 5) (s : State) : Out :=
  onWf (coreOk c) (s.coreStep c fun x => crcOp x d sa sb 1)

/-- CRC32CH (Table 3-7). -/
def execCrc32ch (c : Nat) (d sa sb : BitVec 5) (s : State) : Out :=
  onWf (coreOk c) (s.coreStep c fun x => crcOp x d sa sb 2)

/-- CRC32CW (Table 3-7). -/
def execCrc32cw (c : Nat) (d sa sb : BitVec 5) (s : State) : Out :=
  onWf (coreOk c) (s.coreStep c fun x => crcOp x d sa sb 4)

/-- CRC32CD (Table 3-7). -/
def execCrc32cd (c : Nat) (d sa sb : BitVec 5) (s : State) : Out :=
  onWf (coreOk c) (s.coreStep c fun x => crcOp x d sa sb 8)

end Sys2Proof.Machine
end

