-- ==== Sys2Proof/Machine/Atomics.lean ====
section
/-! DEFINITION. The atomic group of format T (Table 3-10, R92, R93, R135). -/

namespace Sys2Proof.Machine

/-- What ACAS compares with: A, or X:A for 16 bytes. -/
def casValue (c : Core) (wide : Bool) : BitVec 128 :=
  if wide then BitVec.ofNat 128 (c.a.toNat + 2 ^ 64 * c.x.toNat) else c.a.setWidth 128

/-- An atomic: its checks in the order of R95, then the Atom request; the core waits for AtomData. Whether a store of the old
value to a destination in device space would fail is found before the atomic is sent, so that an instruction that raises an
exception changes nothing (R96; DESIGN CHOICE, log 51: one that fails only afterwards raises DATA_ERROR then). -/
def atomic (x : Ctx) (op : BitVec 4) (z : BitVec 4) (order : BitVec 2) (wide : Bool) (d sa sb : BitVec 5) :
    Exec (Option Word) := do
  legal (z == 0)
  if wide then needCap 5
  legal (!wide || (alignedSlot 2 d && alignedSlot 2 sb))
  let n := if wide then 2 else 1
  let v ← slotsRead x (sa.toNat :: slotRange sb n)
  let va := tget v sa.toNat 0
  if va.toNat % (8 * n) != 0 then raise 0x05 va
  else
    match x.dbp .atomic va (8 * n) with
    | some a => raise 0x0C a
    | none =>
      let t ← translate x .atomic va
      if isDevice t.pa then raise 0x06 va
      else
        let dst ← (slotRange d n).mapM fun k => slotDest x k
        devProbe x ((dst.map fun p => (⟨p, 0⟩ : Store)).filter (·.dev))
        let s ← get
        let c := s.core x.g
        if !c.sb.isEmpty then waitNow
        else
          let a : AtomOp :=
            { op := op, wide := wide, order := order, uncached := t.uc || !c.l2On,
              operand := if wide then pairOf v sb else (tget v sb.toNat 0).setWidth 128,
              compare := if op == 2 then casValue c wide else 0, poison := false }
          match s.coreIssue x.g fun h => .atom h t.pa a with
          | some (h, s) =>
            set ((s.dueEvent x.g 0x103).modCore x.g fun c =>
              { c with stall := .atomic h.tag va (dst.map fun p => (p.tr.pa, p.tr.uc, p.va)) })
            pure none
          | none => waitNow

/-- AFADD (Table 3-10). -/
def execAfadd (c : Nat) (z : BitVec 4) (order : BitVec 2) (wide : Bool) (d sa sb : BitVec 5) (s : State) : Out :=
  onWf (coreOk c) (s.coreStep c fun x => atomic x 0 z order wide d sa sb)

/-- ASWAP (Table 3-10). -/
def execAswap (c : Nat) (z : BitVec 4) (order : BitVec 2) (wide : Bool) (d sa sb : BitVec 5) (s : State) : Out :=
  onWf (coreOk c) (s.coreStep c fun x => atomic x 1 z order wide d sa sb)

/-- ACAS (Table 3-10). -/
def execAcas (c : Nat) (z : BitVec 4) (order : BitVec 2) (wide : Bool) (d sa sb : BitVec 5) (s : State) : Out :=
  onWf (coreOk c) (s.coreStep c fun x => atomic x 2 z order wide d sa sb)

/-- AMIN (Table 3-10). -/
def execAmin (c : Nat) (z : BitVec 4) (order : BitVec 2) (wide : Bool) (d sa sb : BitVec 5) (s : State) : Out :=
  onWf (coreOk c) (s.coreStep c fun x => atomic x 3 z order wide d sa sb)

/-- AMAX (Table 3-10). -/
def execAmax (c : Nat) (z : BitVec 4) (order : BitVec 2) (wide : Bool) (d sa sb : BitVec 5) (s : State) : Out :=
  onWf (coreOk c) (s.coreStep c fun x => atomic x 4 z order wide d sa sb)

/-- AMINU (Table 3-10). -/
def execAminu (c : Nat) (z : BitVec 4) (order : BitVec 2) (wide : Bool) (d sa sb : BitVec 5) (s : State) : Out :=
  onWf (coreOk c) (s.coreStep c fun x => atomic x 5 z order wide d sa sb)

/-- AMAXU (Table 3-10). -/
def execAmaxu (c : Nat) (z : BitVec 4) (order : BitVec 2) (wide : Bool) (d sa sb : BitVec 5) (s : State) : Out :=
  onWf (coreOk c) (s.coreStep c fun x => atomic x 6 z order wide d sa sb)

/-- AAND (Table 3-10). -/
def execAand (c : Nat) (z : BitVec 4) (order : BitVec 2) (wide : Bool) (d sa sb : BitVec 5) (s : State) : Out :=
  onWf (coreOk c) (s.coreStep c fun x => atomic x 7 z order wide d sa sb)

/-- AOR (Table 3-10). -/
def execAor (c : Nat) (z : BitVec 4) (order : BitVec 2) (wide : Bool) (d sa sb : BitVec 5) (s : State) : Out :=
  onWf (coreOk c) (s.coreStep c fun x => atomic x 8 z order wide d sa sb)

/-- AXOR (Table 3-10). -/
def execAxor (c : Nat) (z : BitVec 4) (order : BitVec 2) (wide : Bool) (d sa sb : BitVec 5) (s : State) : Out :=
  onWf (coreOk c) (s.coreStep c fun x => atomic x 9 z order wide d sa sb)

end Sys2Proof.Machine
end

