-- ==== Sys2Proof/Machine/System.lean ====
section
/-! DEFINITION. The system instructions of Table 4-8, interrupts (R109–R111, R314) and the counter instructions of
Table 5-11. -/

namespace Sys2Proof.Machine

/-! ### MFSR and MTSR -/

/-- MFSR and MTSR are legal, not trapped and permitted (R120; DEDUCED, notes/assumptions/44.md: the trap comes before
PRIVILEGE); the register's row. -/
def srCheck (x : Ctx) (opnd : BitVec 16) (write : Bool) : Exec Nat := do
  let n := fld opnd 0 10
  legal (!bit opnd 15)
  match srInfo n with
  | none => raise 0x01
  | some (r, w, d) =>
    legal (!((n == 0x101 || n == 0x102) && !x.em))
    match if write then w else some r with
    | none => raise 0x01
    | some lv =>
      if x.pl == 1 && bit (x.reg 0x18) (n / 64) then raise 0x61 (BitVec.ofNat 64 n)
      else
        needLevel x lv
        pure d

/-- MFSR (Table 4-8, R117, R120). -/
def execMfsr (c : Nat) (opnd : BitVec 16) (s : State) : Out :=
  onWf (coreOk c) (s.coreStep c fun x => do
    let _ ← srCheck x opnd false
    slotsWrite x [(fld opnd 10 5, (← get).srRead x.g (fld opnd 0 10))]
    done x)

/-- MTSR (Table 4-8, R116, R120). -/
def execMtsr (c : Nat) (opnd : BitVec 16) (s : State) : Out :=
  onWf (coreOk c) (s.coreStep c fun x => do
    let d ← srCheck x opnd true
    let n := fld opnd 0 10
    let v ← slotRead x (fld opnd 10 5)
    if n == 0x97 && bit v 63 && x.pl < 2 then raise 0x02
    else
      modify fun s => s.mtsrWrite x.g n v d
      done x)

/-! ### The status word -/

/-- MFSW (Table 4-8). -/
def execMfsw (c : Nat) (opnd : BitVec 16) (s : State) : Out :=
  onWf (coreOk c) (s.coreStep c fun x => do
    legal (fld opnd 5 11 == 0)
    slotsWrite x [(fld opnd 0 5, ((← get).core x.g).sw)]
    done x)

/-- One field of SW is written with its distance (R102): 16 for PL, 8 for IE, 4 for SS and EX. -/
def Core.swWrite (c : Core) (w : Nat) (v : Word) : Core :=
  let f := swField w
  let old := fld c.sw f.1 f.2
  let new := fld v f.1 f.2
  if old == new then c
  else
    let d := if w == 0x400 then 16 else if w == 0x401 then 8 else 4
    { c with sw := setFld c.sw f.1 f.2 new, win := c.win ++ [⟨w, BitVec.ofNat 64 old, d⟩] }

/-- MTSW (R101, R102). -/
def execMtsw (c : Nat) (opnd : BitVec 16) (s : State) : Out :=
  onWf (coreOk c) (s.coreStep c fun x => do
    legal (fld opnd 5 11 == 0)
    needLevel x 1
    let v ← slotRead x (fld opnd 0 5)
    if swPl v == 3 then raise 0x01
    else if x.pl < swPl v then raise 0x02
    else
      let pl := swPl ((← get).core x.g).sw
      setRegs x fun c => [0x400, 0x401, 0x402, 0x403].foldl (fun c w => c.swWrite w v) c
      modify fun s => if swPl (s.core x.g).sw != pl then (s.modCore x.g Core.predFlush).hazeFlush x.g else s
      done x)

/-! ### Waits for earlier work -/

/-- Every earlier store is visible, or the instruction waits (R124). -/
def drained (x : Ctx) : Exec Unit := do
  if ((← get).core x.g).sb.isEmpty then pure () else waitNow

/-- SYNC (R124). -/
def execSync (c : Nat) (opnd : BitVec 16) (s : State) : Out :=
  onWf (coreOk c) (s.coreStep c fun x => do
    legal (opnd == 0)
    drained x
    modify fun s => s.closeWindows x.g
    done x)

/-- IFENCE (R127). -/
def execIfence (c : Nat) (opnd : BitVec 16) (s : State) : Out :=
  onWf (coreOk c) (s.coreStep c fun x => do
    legal (opnd == 0)
    drained x
    modify fun s => s.hazeFlush x.g
    done x)

/-- FENCE (R134). -/
def execFence (c : Nat) (opnd : BitVec 16) (s : State) : Out :=
  onWf (coreOk c) (s.coreStep c fun x => do
    legal (opnd == 0)
    drained x
    done x)

/-! ### Calls to higher levels -/

/-- TRAP (Table 4-8). -/
def execTrap (c : Nat) (opnd : BitVec 16) (s : State) : Out :=
  onWf (coreOk c) (s.coreStep c fun _ => raise 0x09 (zext64 opnd) false true)

/-- SVC (Table 4-8). -/
def execSvc (c : Nat) (opnd : BitVec 16) (s : State) : Out :=
  onWf (coreOk c) (s.coreStep c fun _ => raise 0x0A (zext64 opnd) false true)

/-- HVC (Table 4-8). -/
def execHvc (c : Nat) (opnd : BitVec 16) (s : State) : Out :=
  onWf (coreOk c) (s.coreStep c fun x => do
    needLevel x 1
    raise 0x60 (zext64 opnd) false true)

/-- BREAK (Table 4-8). -/
def execBrk (c : Nat) (opnd : BitVec 16) (s : State) : Out :=
  onWf (coreOk c) (s.coreStep c fun _ => raise 0x0B (zext64 opnd) false true)

/-- R106: the return from an exception at level `t`, once its checks have passed. What is younger is fetched again. -/
def State.eret (s : State) (g t : Nat) : State :=
  let s := (s.closeWindows g).hazeFlush g
  let c := s.core g
  let b := excBase t
  let f := c.f
  let esw := c.reg (b + 1)
  let pl := swPl c.sw
  let em := swEm c.sw
  let sw := (esw &&& 0x3B) ||| (c.sw &&& 0x100)
  let c := { c with f := setFld (c.reg (b + 5)) 0 3 0, sw := sw }.setReg (b + 5) f
  let c := if em then (c.setReg 0x100 0).contextSwitch else if swPl sw != pl then c.predFlush else c
  s.setCore g c

/-- ERET (R106, R70). DESIGN CHOICE (log 51): ERET is counted as a transfer in BR_RETIRED; the kinds that R153 lists for the
predictor do not name it. -/
def execEret (c : Nat) (opnd : BitVec 16) (s : State) : Out :=
  onWf (coreOk c) (s.coreStep c (fun x => do
    legal (opnd == 0)
    needLevel x 1
    let k := (← get).core x.g
    let b := excBase x.pl
    let target := k.reg b
    if x.pl < swPl (k.reg (b + 1)) then raise 0x02
    else if fld target 0 2 != 0 then raise 0x04 target
    else
      modify fun s => (s.dueEvent x.g 0x004).eret x.g x.pl
      pure (some target)) true)

/-- WFI (R111): it ends at once while an interrupt is pending, which is taken at the next boundary if it can be (R109); else
the core waits with P at the next instruction. DESIGN CHOICE (log 51): a WFI that waits counts as a completed instruction, so
that with SW.SS = 1 STEP is raised as it begins to wait, and the entry ends the wait. -/
def execWfi (c : Nat) (opnd : BitVec 16) (s : State) : Out :=
  onWf (coreOk c) (s.coreStep c fun x => do
    legal (opnd == 0)
    needLevel x 1
    if x.pl == 1 && bit (x.reg 0x18) 16 then raise 0x62
    else
      modify fun s => s.modCore x.g fun k => if (k.pendingInts s.now).isEmpty then { k with run := .wfi } else k
      done x)

/-- GATE (R131): no effect when executed. -/
def execGate (c : Nat) (_opnd : BitVec 16) (s : State) : Out :=
  onWf (coreOk c) (s.coreStep c fun x => done x)

/-- PFLUSH (R125). -/
def execPflush (c : Nat) (opnd : BitVec 16) (s : State) : Out :=
  onWf (coreOk c) (s.coreStep c fun x => do
    legal (opnd == 0)
    setRegs x fun c => c.predFlush
    modify fun s => s.hazeFlush x.g
    done x)

/-- PBAR (R125). -/
def execPbar (c : Nat) (opnd : BitVec 16) (s : State) : Out :=
  onWf (coreOk c) (s.coreStep c fun x => do
    legal (opnd == 0)
    setRegs x fun c => { c.predFlush with sw := setBit c.sw 8 true }
    modify fun s => s.hazeFlush x.g
    done x)

/-! ### Counter instructions (Table 5-11) -/

/-- PMRD (Table 5-11). -/
def execPmrd (c : Nat) (opnd : BitVec 16) (s : State) : Out :=
  onWf (coreOk c) (s.coreStep c fun x => do
    legal (!bit opnd 15 && fld opnd 4 6 == 0)
    needLevel x (if bit (x.reg 0xE0) 3 then 0 else 1)
    slotsWrite x [(fld opnd 10 5, ((← get).core x.g).reg (0xC0 + fld opnd 0 4))]
    done x)

/-- PMCTL.EN is written with distance 1. -/
def pmEnable (x : Ctx) (opnd : BitVec 16) (on : Bool) : Exec (Option Word) := do
  legal (opnd == 0)
  needLevel x 1
  modify fun s => s.srWrite x.g 0xE0 (setBit ((s.core x.g).reg 0xE0) 0 on) 1
  done x

/-- PMSTOP (Table 5-11). -/
def execPmstop (c : Nat) (opnd : BitVec 16) (s : State) : Out :=
  onWf (coreOk c) (s.coreStep c fun x => pmEnable x opnd false)

/-- PMGO (Table 5-11). -/
def execPmgo (c : Nat) (opnd : BitVec 16) (s : State) : Out :=
  onWf (coreOk c) (s.coreStep c fun x => pmEnable x opnd true)

/-! ### Interrupts -/

/-- A core is at an instruction boundary at which it samples interrupts. -/
def State.atBoundary (s : State) (g : Nat) : Bool :=
  let c := s.core g
  s.coreRuns g && (c.run == .running || c.run == .wfi) && c.stall == .none && !c.forced && !c.stepDue && c.storeErr.isNone &&
    !c.ueDue && !(c.bcasts.any (·.stores.isSome))

/-- INTERRUPT_ENTRY (R105, R109): the interrupt taken at this boundary, with EPC the instruction not yet started. -/
def execInterruptEntry (c : Nat) (s : State) : Out :=
  onWf (coreOk c)
    (if s.atBoundary c then
       match s.intDue c with
       | none => s
       | some code => s.interrupt c code
     else s)

/-- A core in WFI with an interrupt pending (R111): the interrupt is taken if it can be, with EPC the instruction after WFI;
otherwise the core runs on. -/
def State.wakeWfi (s : State) (g : Nat) : State :=
  let k := s.core g
  if s.coreRuns g && k.run == .wfi && !(k.pendingInts s.now).isEmpty then
    match if s.atBoundary g then s.intDue g else none with
    | some code => s.interrupt g code
    | none => s.setCore g { k with run := .running }
  else s

/-- WFI_WAKE (R111). -/
def execWfiWake (c : Nat) (s : State) : Out := onWf (coreOk c) (s.wakeWfi c)

/-- TIMER_COMPARE (R314): the condition holds while TIME has reached TIMER_CMP_S; a core in WFI sees it. -/
def execTimerCompare (c : Nat) (s : State) : Out :=
  onWf (coreOk c) (if (s.core c).timer s.now then s.wakeWfi c else s)

/-- HTIMER_COMPARE (R314): the same for TIMER_CMP_H through DOORBELL. -/
def execHtimerCompare (c : Nat) (s : State) : Out :=
  onWf (coreOk c) (if (s.core c).htimer s.now then s.wakeWfi c else s)

/-- ICLR (Table 11-2). -/
def execIclr (c : Nat) (opnd : BitVec 16) (s : State) : Out :=
  onWf (coreOk c) (s.coreStep c fun x => do
    legal (fld opnd 2 14 == 0)
    needLevel x (if bit opnd 1 then 2 else 1)
    setRegs x fun k => { k with ipi := k.ipi && !bit opnd 0, doorbell := k.doorbell && !bit opnd 1 }
    done x)

/-- VINJ (Table 11-2, R315). -/
def execVinj (c : Nat) (opnd : BitVec 16) (s : State) : Out :=
  onWf (coreOk c) (s.coreStep c fun x => do
    legal (!bit opnd 15 && fld opnd 0 10 == 0)
    needLevel x 2
    let v ← slotRead x (fld opnd 10 5)
    modify fun s => s.send (.routerMessage (BitVec.ofNat 12 (fld v 16 12)) (BitVec.ofNat 9 (fld v 0 9)))
    done x)

end Sys2Proof.Machine
end

