-- ==== Sys2Proof/Machine/CacheOps.lean ====
section
/-! DEFINITION. Invalidation instructions and broadcasts (R183–R190), cache maintenance (R214–R223) and what a core's caches
do on their own: draining stores, Haze promotion, walks, evictions, the CACHE section. -/

namespace Sys2Proof.Machine

/-! ### Invalidation (R186–R190) -/

/-- The local effect of an invalidation: every entry, or those of one address and the whole walk cache (Table 6-10). -/
def Core.tlbi (c : Core) (va : Option Word) : Core :=
  match va with
  | none => c.tlbFlush
  | some v => { c.purgeVa v.toNat with wcache := [], fmap := [] }

/-- An invalidation instruction leaves no frame-map entry of its core (R143). -/
def Core.noFrames (c : Core) : Core := { c with fmap := [] }

/-- The compute-die agents pass a broadcast to every enabled core, acknowledging at once for those that R189 names. Answers
the cores whose acknowledgement is awaited. -/
def State.broadcast (s : State) (g : Nat) (tid : BitVec 12) (va : Option Word) : List Nat × State :=
  ((List.range 576).filter s.coreEnabled).foldl (fun (r : List Nat × State) c =>
    let s := r.2
    let x := s.dom c
    if s.unitFenced c || x.st == .off || x.inReset then r
    else if x.st == .retained || x.st == .waking then (r.1, s.modCore c fun k => { k with tlbMark := true })
    else
      (r.1 ++ [c], (s.modCore c fun k => { k with bcasts := k.bcasts ++ [⟨g, tid, va, s.now, none⟩] }).send
        (.tlbiBroadcastTake c g)))
    ([], s)

/-- The core takes a broadcast at its boundary (R188 steps 1 to 4): younger work is discarded, the matching entries go, and
the stores of the boundary are waited for. A core whose TID does not match is no target. -/
def State.bcastTake (s : State) (c : Nat) (b : Bcast) : State :=
  let k := s.core c
  if k.tid != b.tid then s.bcastEnd c b.issuer
  else
    let s := ((s.hazeFlush c).fresh c).modCore c fun k =>
      { k.tlbi b.va with bcasts := k.bcasts.map fun x =>
          if x.issuer == b.issuer then { x with stores := some k.sb.length } else x }
    s.bcastGo c

/-- Whether a core stands at an instruction boundary: it executes nothing that waits for an answer. -/
def Core.atRest (k : Core) : Bool :=
  match k.stall with
  | .none => k.run != .stopped
  | .bcast _ => true
  | _ => false

/-- A broadcast reaches core c: taken at its next boundary, or acknowledged by its agent (R188, R189). The message comes
again while the core is in the middle of an instruction. -/
def State.tlbiTake (s : State) (c issuer : Nat) : State :=
  let k := s.core c
  match k.bcasts.find? fun b => b.issuer == issuer && b.stores.isNone with
  | none => s
  | some b =>
    let x := s.dom c
    if s.unitFenced c || x.st == .off || x.inReset then s.bcastEnd c issuer
    else if x.st == .retained || x.st == .waking then (s.modCore c fun k => { k with tlbMark := true }).bcastEnd c issuer
    else if !k.atRest then s.send (.tlbiBroadcastTake c issuer)
    else s.bcastTake c b

/-- TLBI_BROADCAST_TAKE (R188). -/
def execTlbiBroadcastTake (c issuer : Nat) (s : State) : Out :=
  onArrival (coreOk c && coreOk issuer) (.tlbiBroadcastTake c issuer) s fun s => s.tlbiTake c issuer

/-- TLBI_ACK_TIMEOUT (R189, R274): a running core has not acknowledged within TIMEOUT_NS of class 0; the agent reports it,
acknowledges for it and marks it. -/
def execTlbiAckTimeout (c issuer : Nat) (s : State) : Out :=
  onWf (coreOk c && coreOk issuer)
    (if (s.core c).bcasts.any fun b => b.issuer == issuer && decide (b.since + s.timeoutNs 0 ≤ s.now) then
       ((s.fault (s.coreSrc c) 0x07 none 0).modCore c fun k => { k with tlbMark := true }).bcastEnd c issuer
     else s)

/-- The address operand of TLBIV, TLBIVB and the line instructions: slot k in [14:10], every other bit 0. -/
def slotOperand (x : Ctx) (opnd : BitVec 16) (lv : Nat) : Exec Word := do
  legal (!bit opnd 15 && fld opnd 0 10 == 0)
  needLevel x lv
  slotRead x (fld opnd 10 5)

/-- A local invalidation. -/
def localTlbi (x : Ctx) (va : Option Word) : Exec (Option Word) := do
  drained x
  setRegs x fun c => (c.tlbi va).noFrames
  modify fun s => s.hazeFlush x.g
  done x

/-- A broadcast form (R187). -/
def broadcastTlbi (x : Ctx) (tid : BitVec 12) (va : Option Word) : Exec (Option Word) := do
  drained x
  setRegs x Core.noFrames
  let (l, s) := ((← get).hazeFlush x.g).broadcast x.g tid va
  if l.isEmpty then
    set s
    done x
  else
    set (s.modCore x.g fun c => { c with stall := .bcast l })
    pure none

/-- TLBIV (Table 6-10). -/
def execTlbiv (c : Nat) (opnd : BitVec 16) (s : State) : Out :=
  onWf (coreOk c) (s.coreStep c fun x => do
    let v ← slotOperand x opnd 1
    localTlbi x (some v))

/-- TLBIALL (Table 6-10). -/
def execTlbiall (c : Nat) (opnd : BitVec 16) (s : State) : Out :=
  onWf (coreOk c) (s.coreStep c fun x => do
    legal (opnd == 0)
    needLevel x 1
    localTlbi x none)

/-- TLBIVB (Table 6-10). -/
def execTlbivb (c : Nat) (opnd : BitVec 16) (s : State) : Out :=
  onWf (coreOk c) (s.coreStep c fun x => do
    let v ← slotOperand x opnd 1
    broadcastTlbi x ((x.reg srTid).setWidth 12) (some v))

/-- TLBIALLB (Table 6-10). -/
def execTlbiallb (c : Nat) (opnd : BitVec 16) (s : State) : Out :=
  onWf (coreOk c) (s.coreStep c fun x => do
    legal (opnd == 0)
    needLevel x 1
    broadcastTlbi x ((x.reg srTid).setWidth 12) none)

/-- TLBITID (Table 6-10). -/
def execTlbitid (c : Nat) (opnd : BitVec 16) (s : State) : Out :=
  onWf (coreOk c) (s.coreStep c fun x => do
    let v ← slotOperand x opnd 2
    broadcastTlbi x (v.setWidth 12) none)

/-! ### Line instructions (R214–R218) -/

/-- The line a maintenance instruction names, none in device space. An address no die populates is UNMAPPED (R28). -/
def maintLine (x : Ctx) (va : Word) (acc : Access) : Exec (Option (Nat × Bool)) := do
  drained x
  let t ← translate x acc va
  if isDevice t.pa then pure none
  else if !(← get).isDram t.pa then raise 0x07 va
  else pure (some (t.pa / 64, t.uc))

/-- Send a request and wait for its last response (R251). -/
def maintRequest (x : Ctx) (va : Word) (mk : Hdr → Instr) : Exec (Option Word) := do
  match (← get).coreIssue x.g mk with
  | some (h, s) =>
    set (s.modCore x.g fun c => { c with stall := .maint va [h.tag] })
    pure none
  | none => waitNow

/-- CWB (R215). -/
def execCwb (c : Nat) (opnd : BitVec 16) (s : State) : Out :=
  onWf (coreOk c) (s.coreStep c fun x => do
    let va ← slotOperand x opnd 0
    match ← maintLine x va .load with
    | none => done x
    | some (line, _) => maintRequest x va fun h => .cwbreq h line)

/-- CFLUSH (R215). -/
def execCflush (c : Nat) (opnd : BitVec 16) (s : State) : Out :=
  onWf (coreOk c) (s.coreStep c fun x => do
    let va ← slotOperand x opnd 0
    match ← maintLine x va .load with
    | none => done x
    | some (line, _) => maintRequest x va fun h => .cflreq h line)

/-- The lines named leave the core's own arrays by Drop, any modified data discarded at the home, and stay in evict-pending
buffers until its last response (R216, R245, R251). Answers the tags; none while a buffer or tag is missing. -/
def State.dropLines (s : State) (g : Nat) (lines : List Nat) : Option (List Nat × State) :=
  lines.foldl (fun r line => r.bind fun r =>
    (r.2.evictAs g line .drop).map fun s => (r.1 ++ ((s.core g).evict.getLast?.map (·.tag)).toList, s)) (some ([], s))

/-- The instruction waits for the answers of the lines it gave up, and completes at once when there are none. -/
def maintWait (x : Ctx) (va : Word) (tags : List Nat) : Exec (Option Word) := do
  if tags.isEmpty then done x
  else
    setRegs x fun c => { c with stall := .maint va tags }
    pure none

/-- CINV (R216). -/
def execCinv (c : Nat) (opnd : BitVec 16) (s : State) : Out :=
  onWf (coreOk c) (s.coreStep c fun x => do
    let va ← slotOperand x opnd 2
    match ← maintLine x va .store with
    | none => done x
    | some (line, _) =>
      let s ← get
      if ((s.core x.g).inL2 line).isNone then
        setRegs x fun c => c.clearL1 line
        done x
      else
        match s.dropLines x.g [line] with
        | none => waitNow
        | some (tags, s) =>
          set s
          maintWait x va tags)

/-- CZERO (R217). -/
def execCzero (c : Nat) (opnd : BitVec 16) (s : State) : Out :=
  onWf (coreOk c) (s.coreStep c fun x => do
    let va ← slotOperand x opnd 0
    match ← maintLine x va .store with
    | none => done x
    | some (line, uc) =>
      let s ← get
      let c := s.core x.g
      if uc || !c.l1dOn then
        if s.hier.wrLines.any fun w => w.1 == x.g && w.2.1 == line then waitNow
        else
        let (ids, s) := s.writeMem x.g c.tid c.cls 4 (64 * line) (List.replicate 64 0) []
        if ids.isEmpty then waitNow
        else
          set (s.modCore x.g fun c => { (c.dropFrames line) with stall := .maint va (ids.map (·.1)) })
          pure none
      else if c.owns line then
        setRegs x fun c => ((c.fillL1d line).zeroOwned line).dropFrames line
        done x
      else if c.waits line then waitNow
      else
        match s.fillIssue x.g line 4 false .data fun h => .claim h line with
        | some (h, s) =>
          set (s.modCore x.g fun c => { (c.dropFrames line) with stall := .maint va [h.tag] })
          pure none
        | none => waitNow)

/-- A part of an instruction whose exceptions have no effect: none when it stops. -/
def attempt {α : Type} (a : Exec α) : Exec (Option α) := fun s =>
  match a s with
  | .ok v t => .ok (some v) t
  | .error _ _ => .ok none s

/-- CPF (R218): a request as a demand load would make, without exceptions. -/
def execCpf (c : Nat) (opnd : BitVec 16) (s : State) : Out :=
  onWf (coreOk c) (s.coreStep c fun x => do
    let v ← slotOperand x opnd 0
    drained x
    match ← attempt (translate x .load v) with
    | none => done x
    | some t =>
      let s ← get
      let c := s.core x.g
      let line := t.pa / 64
      if t.uc || isDevice t.pa || !s.isDram t.pa || !c.l2On || c.waits line then done x
      else if (c.inL2 line).isSome then
        setRegs x fun c => c.fillL1d line
        done x
      else
        match s.fillIssue x.g line 1 true .data fun h => .rds h line false none with
        | some (_, s) =>
          set s
          done x
        | none => done x)

/-! ### Set instructions (R219, R223, R251) -/

/-- The lines of an L2 set. -/
def Core.setLines (c : Core) (i : Nat) : List CLine := (c.l2.filter fun e => e.1 / 16 == i).map (·.2)

/-- Tags of a node that are free. -/
def State.tagsLeft (s : State) (node : Nat) : Nat :=
  ((List.range 256).filter fun t => let x := s.tag node t; x.req.isNone && !x.reserved).length

/-- DIRTY_LEFT clears once CFLUSHSET or CINVSET has run for all 1,024 sets since it set (R223). -/
def Core.noteCleaned (c : Core) (i : Nat) : Core :=
  if !bit (c.reg srCacheEn) 4 then c
  else
    let l := insertNew c.cleaned i
    if l.length == 1024 then { c.setReg srCacheEn (setBit (c.reg srCacheEn) 4 false) with cleaned := [] }
    else { c with cleaned := l }

/-- The lines of a set as the core holds them, L1D bytes merged (R194). -/
def Core.setHeld (c : Core) (i : Nat) : List CLine :=
  ((c.setLines i).map fun l => (c.merge l.line).inL2 l.line).filterMap fun e => e.map (·.2)

/-- Lines leave by their state (R212), with their L1 copies whether or not those caches are enabled (R219): the tags of their
requests; none while a buffer or tag is missing. -/
def State.giveLines (s : State) (g : Nat) (lines : List Nat) : Option (List Nat × State) :=
  lines.foldl (fun r line => r.bind fun r =>
    let s := (r.2.modCore g fun c => c.clearL1 line).checkL2 g line
    match (s.core g).inL2 line with
    | none => some (r.1 ++ ((s.core g).evict.getLast?.map (·.tag)).toList, s)
    | some _ => (s.evictAs g line (s.core g).giveUpWay).map fun s =>
        (r.1 ++ ((s.core g).evict.getLast?.map (·.tag)).toList, s)) (some ([], s))

/-- One modified or owned line is written to the home and stays valid and clean (R219). DEDUCED (log 13): an enabled L2 asks
by CWbReq, whose SnpClean takes the data and leaves the copy listed; WbReq, which R251 names for lines given up, would remove
the L2 as a holder. A disabled L2, which answers no snoop, sends WbReq from an evict-pending buffer (R225). -/
def State.writeBack (s : State) (g line : Nat) : Option (Nat × State) :=
  let s := (s.modCore g fun c => c.merge line).checkL2 g line
  let c := s.core g
  match c.inL2 line with
  | none => none
  | some (k, l) =>
    if c.l2On then (s.coreIssue g fun h => .cwbreq h line).map fun r => (r.1.tag, r.2)
    else if c.evict.length ≥ 16 then none
    else (s.coreIssue g fun h => .wbreq h line).map fun r =>
      (r.1.tag, r.2.modCore g fun c => { c with
        l2 := tput c.l2 k { l with st := if l.st == .m then .e else .s },
        evict := c.evict ++ [⟨line, l.st, l.bytes, l.poison, r.1.tag⟩] })

/-- Every line of a list is written back: the tags; none while a buffer or tag is missing. -/
def State.writeBacks (s : State) (g : Nat) (lines : List Nat) : Option (List Nat × State) :=
  lines.foldl (fun r line => r.bind fun r => (r.2.writeBack g line).map fun w => (r.1 ++ [w.1], w.2)) (some ([], s))

/-- The set that X names (Table 7-3). -/
def setIndex (x : Ctx) : Exec Nat := do pure (fld ((← get).core x.g).x 0 10)

/-- A set instruction, once every earlier store is visible: `act` on the lines it picks, then the wait for their answers. -/
def setOp (x : Ctx) (pick : CLine → Bool) (clean : Bool)
    (act : State → Nat → List Nat → Option (List Nat × State)) : Exec (Option Word) := do
  drained x
  let i ← setIndex x
  let s ← get
  match act s x.g ((((s.core x.g).setHeld i).filter pick).map (·.line)) with
  | none => waitNow
  | some (tags, s) =>
    set (if clean then s.modCore x.g fun c => c.noteCleaned i else s)
    maintWait x 0 tags

/-- CWBSET (R219): the modified and owned lines are written to the home and stay, clean. -/
def execCwbset (c : Nat) (opnd : BitVec 16) (s : State) : Out :=
  onWf (coreOk c) (s.coreStep c fun x => do
    legal (opnd == 0)
    needLevel x 1
    setOp x (fun l => l.st == .m || l.st == .o) false State.writeBacks)

/-- CFLUSHSET (R219). -/
def execCflushset (c : Nat) (opnd : BitVec 16) (s : State) : Out :=
  onWf (coreOk c) (s.coreStep c fun x => do
    legal (opnd == 0)
    needLevel x 1
    setOp x (fun _ => true) true State.giveLines)

/-- CINVSET (R219): modified data is discarded and the home is told of each copy dropped. -/
def execCinvset (c : Nat) (opnd : BitVec 16) (s : State) : Out :=
  onWf (coreOk c) (s.coreStep c fun x => do
    legal (opnd == 0)
    needLevel x 2
    setOp x (fun _ => true) true State.dropLines)

/-! ### What the core does by itself -/

/-- Stores may drain: the core's domain runs, or closes (R413). -/
def State.mayDrain (s : State) (g : Nat) : Bool :=
  let x := s.dom g
  s.coreEnabled g && !s.unitFenced g && !x.inReset && (x.st == .run || x.st == .closing)

/-- STORE_DRAIN (R146, R132): what waits until the stores are visible then goes on. -/
def execStoreDrain (c : Nat) (s : State) : Out :=
  onWf (coreOk c)
    (if s.mayDrain c then ((s.drain c).drainedOne c (s.core c).sb.length).storesGo c else s)

/-- HAZE_PROMOTE (R157): the user of a Haze entry is proven, and the core reads the line coherently; the entry is freed when
the line has come and its bytes have been compared. -/
def execHazePromote (c line : Nat) (s : State) : Out :=
  onWf (coreOk c && lineOk line)
    (let k := s.core c
     if s.coreRuns c && k.haze.any fun e => e.line == line && !e.promoted then
       let x := k.ctx c
       let t := (s.prove x line).modCore c fun k => { k with proven := true }
       match k.l2Line line with
       | some l => t.hazeCheck c line ⟨l.bytes, l.poison⟩
       | none =>
         if k.waits line then t
         else match t.fillIssue c line 1 false .data fun h => .rds h line false (x.hint k) with
           | some (_, t) => t
           | none => s
     else s)

/-- PAGE_WALK (R179, R184): a proven L2 TLB miss is walked and its entry filled. A walk whose next entry must come
from memory asks for it, and goes on when the command comes again (log 50). One that would end in an exception fills nothing
here; the access itself raises it. -/
def execPageWalk (c : Nat) (va : Word) (acc : Access) (s : State) : Out :=
  onWf (coreOk c)
    (if !s.canExec c then s
     else
       let x := (s.core c).ctx c
       if x.pl == 2 || !x.s1On then s
       else
         match translateRaw x acc va s with
         | .ok _ t => t
         | .error .wait t => t
         | .error (.exc _) _ => s)

/-- L2_EVICT (R212). -/
def execL2Evict (c line : Nat) (s : State) : Out :=
  onWf (coreOk c && lineOk line)
    (let k := s.core c
     if s.mayDrain c && (k.inL2 line).isSome && k.l2On then (s.check c line).evictLine c line else s)

/-! ### The CACHE section (R200, R227) -/

/-- The slices of a base die load SLICE_CTL and their seeds. -/
def State.loadSlices (s : State) (n : Nat) : State :=
  (List.range 96).foldl (fun s i =>
    let h := 96 * n + i
    let seed : BitVec 16 := BitVec.ofNat 16 (s.img secCache (0xDA0 + 2 * h) 2 1)
    s.setSlice h { s.slice h with ctl := BitVec.ofNat 8 (s.img secCache 0x10 8 0), seed := seed, lfsr := seedOf seed }) s

/-- CACHE_SECTION_ARRIVAL (R200). -/
def execCacheSectionArrival (compute : Bool) (die : Nat) (s : State) : Out :=
  onArrival (dieOk compute die) (.cacheSectionArrival compute die) s fun s =>
    if !s.sentSection compute die then s
    else if compute then
      ((coresOf die).filter fun g => (s.core g).run == .waitSection).foldl (fun s g => s.loadCoreSection g) s
    else s.loadSlices die

end Sys2Proof.Machine
end

