-- ==== Sys2Proof/Machine/Loader.lean ====
section
/-! DEFINITION. The loader: the image checks of Table 2-11 (R45–R56, R65–R67 and the owning chapters' section checks), the
targets of step-table rows (R496–R499), and the acceptance of an image. -/

namespace Sys2Proof.Machine

/-! ### Reading an image -/

/-- Every byte of a stretch of the image is 0. -/
def Image.zeros (im : Image) (o n : Nat) : Bool := !(im.bytes.any fun e => decide (o ≤ e.1 ∧ e.1 < o + n) && e.2 != 0)

/-- Directory entry i (R46): TYPE, VERSION, byte 3, LENGTH, OFFSET. -/
structure DirEntry where
  ty : Nat
  ver : Nat
  zero : Nat
  len : Nat
  off : Nat
  deriving DecidableEq, Repr

def Image.dirEntry (im : Image) (i : Nat) : DirEntry :=
  let o := 128 + 16 * i
  ⟨im.le o 2, im.le (o + 2) 1, im.le (o + 3) 1, im.le (o + 4) 4, im.le (o + 8) 8⟩

def Image.totalLen (im : Image) : Nat := im.le 0x10 8
def Image.sigOff (im : Image) : Nat := im.le 0x30 8

/-- Checks of fields, each with the offset it reports: the first that is wrong, in the order given. -/
def firstBad (l : List (Nat × Bool)) : Option Nat := (l.find? fun e => !e.2).map (·.1)

/-! ### Header and signatures (R45, R47–R49) -/

/-- The header field that is wrong, PART apart (Table 2-1). -/
def Image.badHeader (im : Image) : Option Nat :=
  firstBad [(0x00, im.le 0 8 == 0x49534E4F4C4D494C), (0x08, im.le 8 2 == 1), (0x0C, im.le 0x0C 4 == 128),
    (0x24, im.le 0x24 2 == 11), (0x26, im.zeros 0x26 2), (0x28, im.le 0x28 8 == 128),
    (0x30, im.sigOff + 304 == im.totalLen && decide (128 + 16 * 11 ≤ im.sigOff)), (0x40, im.zeros 0x40 64)]

/-- A signature record at an offset: its KIND, ALG and LEN, a KEY_ID among `keys`, and the signature over the image's bytes
before `stop` (Table 2-3, R47). -/
def Image.signed (im : Image) (o kind stop : Nat) (keys : List (BitVec 384)) : Bool :=
  let keyId := im.slice (o + 8) 48
  im.le o 2 == kind && im.le (o + 2) 2 == 1 && im.le (o + 4) 4 == 152 &&
    (keys.any fun k => toBytes k 48 == keyId) &&
    ecdsaBy keyId (im.slice 0 stop) (beNat (im.slice (o + 0x38) 48)) (beNat (im.slice (o + 0x68) 48))

/-! ### The directory (R46) -/

def Image.overlaps (a b : DirEntry) : Bool := decide (a.off < b.off + b.len ∧ b.off < a.off + a.len)

/-- An entry breaks a rule of R46, given those before it. DESIGN CHOICE (log 51): of two entries that overlap or share a TYPE
the later one breaks the rule. -/
def Image.badEntry (im : Image) (i : Nat) : Bool :=
  let e := im.dirEntry i
  let before := (List.range i).map im.dirEntry
  !(decide (1 ≤ e.ty ∧ e.ty ≤ 11) && e.ver == 1 && e.zero == 0 && e.off % 8 == 0 &&
    decide (128 + 16 * 11 ≤ e.off ∧ e.off + e.len ≤ im.sigOff) &&
    !(before.any fun b => b.ty == e.ty || Image.overlaps b e))

/-- The lowest byte between the directory and the signatures that lies in no section and is not 0. DESIGN CHOICE (log 51): of
several such bytes the lowest decides which entry is reported. -/
def Image.strayByte (im : Image) : Option Nat :=
  let es := (List.range 11).map im.dirEntry
  (im.bytes.find? fun b => decide (128 + 16 * 11 ≤ b.1 ∧ b.1 < im.sigOff) && b.2 != 0 &&
    !(es.any fun e => decide (e.off ≤ b.1 ∧ b.1 < e.off + e.len))).map (·.1)

/-- The entry of the section that begins next above a byte, else of the highest section. -/
def Image.entryAbove (im : Image) (b : Nat) : Nat :=
  let es := (List.range 11).map fun i => (i, (im.dirEntry i).off)
  let better (up : Bool) (a : Option (Nat × Nat)) (e : Nat × Nat) : Option (Nat × Nat) :=
    match a with
    | none => some e
    | some x => if (if up then e.2 < x.2 else x.2 < e.2) then some e else a
  match (es.filter fun e => b < e.2).foldl (better true) none with
  | some e => e.1
  | none => ((es.foldl (better false) none).map (·.1)).getD 0

def Image.badDirectory (im : Image) : Option Nat :=
  match (List.range 11).find? im.badEntry with
  | some i => some i
  | none => im.strayByte.map im.entryAbove

/-! ### Each section alone (check 9) -/

/-- DIE_MAP (R50, R51). -/
def Image.dieMapOk (im : Image) (o : Nat) : Bool :=
  let base := im.le o 1
  let comp := im.le (o + 4) 2
  let on (v i : Nat) : Bool := v.testBit i
  let map (c : Nat) : List Nat := (List.range 48).map fun i => im.byte (o + 8 + 48 * c + i)
  decide (base < 16) && decide (comp < 4096) && decide (im.byte (o + 1) ≤ 1) && im.zeros (o + 2) 2 && im.zeros (o + 6) 2 &&
    [1, 2, 4].contains (popcount base 4) &&
    ((List.range 12).all fun c => !on comp c || on base (c / 3)) &&
    ((List.range 4).all fun n => !on base n || on comp (3 * n) || on comp (3 * n + 1) || on comp (3 * n + 2)) &&
    ((List.range 12).all fun c =>
      if on comp c then (map c).all (fun t => decide (t ≤ 51)) && (map c).eraseDups.length == 48
      else (map c).all fun t => t == 0xFF)

/-- ROUTES (R284, R285). -/
def Image.routesOk (im : Image) (o : Nat) : Bool :=
  ((List.range 624).all fun i => let b := im.byte (o + i); b == 0xFF || decide (b ≤ 51)) &&
  ((List.range 1024).all fun k =>
    let b := im.byte (o + 0x270 + k)
    b == 0xFF || (decide (b / 16 ≤ 4 ∧ b % 16 ≤ 4) && b / 16 != b % 16)) &&
  im.zeros (o + 0x670) 8

/-- HOME (R52). -/
def Image.homeOk (im : Image) (o : Nat) : Bool := decide (im.byte o ≤ 1) && im.zeros (o + 1) 7

/-- CACHE (R227, R228). -/
def Image.cacheOk (im : Image) (o : Nat) : Bool :=
  decide (im.le o 8 < 16) && im.le (o + 8) 8 &&& 0xFFFFFFFFFFFFFC0C == 0 && decide (im.le (o + 0x10) 8 < 256) &&
    im.zeros (o + 0x18) 8 && ((List.range 2112).all fun i => im.le (o + 0x20 + 2 * i) 2 != 0)

/-- QOS (R329, Table 11-7). -/
def Image.qosOk (im : Image) (o : Nat) : Bool :=
  let f (q off n : Nat) : Nat := im.le (o + 0x10 + 32 * q + off) n
  let within (v lo hi : Nat) : Bool := decide (lo ≤ v ∧ v ≤ hi)
  let sum (off n : Nat) : Nat := (List.range 8).foldl (fun a q => a + f q off n) 0
  within (im.byte o) 0 1 && within (im.byte (o + 1)) 1 50 && im.zeros (o + 2) 14 &&
    ((List.range 8).all fun q =>
      within (f q 0 2) 0 256 && within (f q 2 2) 1 256 && within (f q 4 4) 1000 6000000 && within (f q 8 4) 1000 6000000 &&
        within (f q 0xC 2) 1 1000 && within (f q 0xE 2) 1 800 && within (f q 0x10 1) 0 100 &&
        im.zeros (o + 0x10 + 32 * q + 0x11) 15 && decide (f q 0 2 ≤ f q 2 2 ∧ f q 4 4 ≤ f q 8 4)) &&
    decide (sum 0 2 ≤ 256) && decide (sum 4 4 ≤ 6000000) && decide (sum 0x10 1 ≤ 100)

/-- POWER_GROUPS (R424, Table 16-7). -/
def Image.powerOk (im : Image) (o : Nat) : Bool :=
  let n := im.le o 2
  let within (v lo hi : Nat) : Bool := decide (lo ≤ v ∧ v ≤ hi)
  within n 1 32 && within (im.le (o + 2) 2) 1200 2400 && within (im.byte (o + 4)) 70 105 && im.byte (o + 5) == 0 &&
    within (im.le (o + 6) 2) 0 300 && im.zeros (o + 8) 24 &&
    ((List.range 32).all fun g =>
      let b := o + 0x20 + 128 * g
      if g < n then im.zeros (b + 89) 7 && decide (im.byte (b + 96) ≤ 1) && im.zeros (b + 97) 31 else im.zeros b 128)

/-- The kinds of Table 17-3. -/
def faultKinds : List Nat :=
  [0x00, 0x01, 0x02, 0x03, 0x04, 0x05, 0x06, 0x07, 0x10, 0x11, 0x12, 0x20, 0x21, 0x22, 0x23, 0x24, 0x25, 0x26, 0x27, 0x30,
   0x31, 0x40, 0x41, 0x42, 0x43, 0x44, 0x45, 0x50, 0x51, 0x52, 0x60, 0x61, 0x70, 0x71, 0x72, 0x73, 0x74, 0x80, 0x81]

/-- FAULT_SEVERITY (R436, Table 17-4). -/
def Image.severityOk (im : Image) (o : Nat) : Bool :=
  let n := im.le (o + 4) 2
  decide (10000 ≤ im.le o 4 ∧ im.le o 4 ≤ 10000000) && decide (n ≤ 256) && im.zeros (o + 6) 10 &&
    ((List.range 256).all fun k =>
      let v := im.byte (o + 0x10 + k)
      if faultKinds.contains k then decide (v ≤ 5) else v == 0) &&
    ((List.range 256).all fun i =>
      let b := o + 0x110 + 8 * i
      if i < n then decide (im.byte (b + 5) ≤ 1) && decide (im.byte (b + 6) ≤ 5) && im.byte (b + 7) == 0 else im.zeros b 8)

/-- PORT_ROLES (R353, Table 13-1). -/
def Image.portsOk (im : Image) (o : Nat) : Bool :=
  let role (p : Nat) : Nat := im.byte (o + 8 + 4 * p)
  let mode (p : Nat) : Nat := im.byte (o + 9 + 4 * p)
  let mac := im.le o 8
  let mirrors := (List.range 8).filter fun p => role p == 2
  mac &&& 0xFFFF01000000000F == 0 &&
    ((List.range 8).all fun p => decide (role p ≤ 2 ∧ mode p ≤ 1) && im.zeros (o + 0xA + 4 * p) 2 && !(role p == 2 && mode p == 1)) &&
    im.zeros (o + 0x28) 8 && (mirrors.length == 0 || mirrors.length == 2)

/-- TENANT_DEFAULTS (R330), but for the base of the table. -/
def Image.tenantOk (im : Image) (o : Nat) : Bool :=
  decide (im.byte o ≤ 7) && decide (im.byte (o + 1) ≤ 1) && im.zeros (o + 2) 6 &&
    im.le (o + 8) 8 &&& 0xFFF00000001FFFFE == 0

/-- GLOBAL (R53, Table 2-5), but for R24. -/
def Image.globalOk (im : Image) (o : Nat) : Bool :=
  let within (v lo hi : Nat) : Bool := decide (lo ≤ v ∧ v ≤ hi)
  within (im.le (o + 0xC) 4) 1000000 100000000 &&
    ((List.range 8).all fun k => within (im.le (o + 0x10 + 4 * k) 4) 10000 100000000) &&
    within (im.le (o + 0x30) 4) 1 16 && im.zeros (o + 0x34) 12

/-! ### Step-table rows (Tables 2-6 to 2-10) -/

/-- A row of the step tables (Table 2-8). -/
structure Row where
  action : Nat
  wait : Nat
  undo : Nat
  target : BitVec 16
  flags : BitVec 16
  operand : Word
  value : Word
  arg : BitVec 32
  limit : Nat
  deriving DecidableEq, Repr

def Row.hasUndo (r : Row) : Bool := bit r.flags 0
def Row.paramDie (r : Row) : Bool := bit r.flags 1
def Row.paramUnit (r : Row) : Bool := bit r.flags 2
def Row.commit (r : Row) : Bool := bit r.flags 3
def Row.log (r : Row) : Bool := bit r.flags 4
def Row.cls (r : Row) : Nat := fld r.target 12 4
def Row.die (r : Row) : Nat := fld r.target 8 4
def Row.unit (r : Row) : Nat := fld r.target 0 8

def Image.rowCount (im : Image) : Nat := im.sec secSteps 2 2

/-- Row n of the section. -/
def Image.row (im : Image) (n : Nat) : Row :=
  let o := 8 + 8 * im.tableCount + 32 * n
  let f (off k : Nat) : Nat := im.sec secSteps (o + off) k
  ⟨f 0 1, f 1 1, f 2 2, BitVec.ofNat 16 (f 4 2), BitVec.ofNat 16 (f 6 2), BitVec.ofNat 64 (f 8 8), BitVec.ofNat 64 (f 0x10 8),
    BitVec.ofNat 32 (f 0x18 4), f 0x1C 4⟩

def TableEntry.rowsOf (t : TableEntry) : List Nat := (List.range t.rows).map fun i => t.first + i

/-- The END row of a table. -/
def Image.endRow (im : Image) (t : TableEntry) : Option Nat := t.rowsOf.find? fun n => (im.row n).action == 0x14

/-- The range R425 and Table 20-1 give a rail's voltage. -/
def railRange (r : Nat) : Nat × Nat :=
  if r < 12 then (600, 950) else if r < 16 then (700, 850) else if r == 16 then (720, 800)
  else if r < 21 then (1050, 1150) else if r < 23 then (850, 950) else (700, 900)

/-- A row keeps the rules of Tables 2-8 to 2-10 and of R425. -/
def Row.ok (r : Row) : Bool :=
  let rail := fld r.operand 0 8
  let mv := fld r.value 0 16
  decide (r.action ≤ 0x14 ∧ r.wait ≤ 8) && fld r.flags 5 11 == 0 && ((r.wait == 0) == (r.limit == 0)) &&
    (if r.wait == 2 then fld r.arg 6 2 == 0 else if r.wait == 8 then true else r.arg == 0) &&
    (r.action != 0xC || (decide (rail < 24) && decide ((railRange rail).1 ≤ mv ∧ mv ≤ (railRange rail).2)))

/-- STEP_TABLES alone (R54, R55, Tables 2-6 to 2-10, R425). -/
def Image.stepsOk (im : Image) (o len : Nat) : Bool :=
  let n := im.le o 2
  let m := im.le (o + 2) 2
  let ts := (List.range n).map fun i => (i, im.tableAt i)
  let purposes := ts.map fun t => t.2.purpose
  let covered := (ts.map fun t => t.2.rowsOf).flatten
  decide (n ≤ 64 ∧ m ≤ 4096) && im.zeros (o + 4) 4 && len == 8 + 8 * n + 32 * m &&
    (ts.all fun t => decide (t.2.flags ≤ 1 ∧ 1 ≤ t.2.rows ∧ t.2.first + t.2.rows ≤ m) && im.zeros (o + 8 + 8 * t.1 + 6) 2 &&
      decide ((1 ≤ t.2.purpose ∧ t.2.purpose ≤ 9) ∨ (0x10 ≤ t.2.purpose ∧ t.2.purpose ≤ 0x3F))) &&
    ((List.range 9).all fun p => purposes.contains (p + 1)) && purposes.eraseDups.length == n &&
    covered.length == m && covered.eraseDups.length == m &&
    ((List.range m).all fun i => (im.row i).ok) &&
    (ts.all fun t =>
      let rows := t.2.rowsOf
      let commits := rows.filter fun i => (im.row i).commit
      let last := (im.endRow t.2).getD 0
      (rows.filter fun i => (im.row i).action == 0x14).length == 1 && decide (commits.length ≤ 1) &&
        (commits.all fun i => decide (i ≤ last)) &&
        (!(([1, 2, 5, 7] : List Nat).contains t.2.purpose) || commits.length == 1))

/-- Section TYPE at an offset keeps its own chapter's rules. -/
def Image.sectionOk (im : Image) (e : DirEntry) : Bool :=
  match e.ty with
  | 1 => e.len == 584 && im.dieMapOk e.off
  | 2 => e.len == 1656 && im.routesOk e.off
  | 3 => e.len == 16 && im.homeOk e.off
  | 4 => e.len == 4256 && im.cacheOk e.off
  | 5 => e.len == 272 && im.qosOk e.off
  | 6 => e.len == 4128 && im.powerOk e.off
  | 7 => e.len == 2320 && im.severityOk e.off
  | 8 => e.len == 48 && im.portsOk e.off
  | 9 => e.len == 16 && im.tenantOk e.off
  | 10 => decide (8 ≤ e.len) && im.stepsOk e.off e.len
  | _ => e.len == 64 && im.globalOk e.off

/-! ### Targets (R496) -/

/-- Whether a die class has a die of an index. -/
def dieExists (cls die : Nat) : Bool := decide (die < [1, 4, 12, 12, 1].getD cls 0)

/-- The window that WRITE_REG and BIT_EQ address at a target, as its base and size (Table 2-16); for a tile, the size only. -/
def targetWindow (cls die unit : Nat) : Option (Nat × Nat) :=
  let mib := 2 ^ 20
  let hub (off size : Nat) : Option (Nat × Nat) := some (0xF000000000000 + off, size)
  if cls == 0 then
    if unit == 0 then hub 0 (256 * mib)
    else if unit == 1 then hub 0x5000000 mib else if unit == 2 then hub 0x100000 mib
    else if unit == 3 then hub 0x200000 mib else if unit == 4 then hub 0x300000 mib
    else if unit == 5 then hub 0x4000000 mib
    else if 8 ≤ unit ∧ unit < 0x10 then hub (0x1000000 + (unit - 8) * mib) mib
    else if 0x10 ≤ unit ∧ unit < 0x12 then hub (0x1800000 + (unit - 0x10) * mib) mib
    else if 0x12 ≤ unit ∧ unit < 0x16 then hub (0x2000000 + (unit - 0x12) * mib) mib
    else if unit == 0x16 then hub 0x3000000 mib else if unit == 0x17 then hub 0x6000000 mib
    else if unit == 0x18 then hub 0x8000000 mib else if unit == 0x19 then hub 0x9000000 mib else none
  else if cls == 1 then
    let b := 0xF000100000000 + die * 2 ^ 32
    if unit < 0x60 then some (b + 0x100000, mib) else if unit == 0x60 then some (b, 256 * mib)
    else if unit < 0x64 then some (b + 0x200000, mib) else none
  else if cls == 2 then
    let b := 0xF001000000000 + die * 2 ^ 32
    if unit < 0x34 then some (0, 8 * 1024) else if unit == 0x40 then some (b, 256 * mib)
    else if unit == 0x41 then some (b + 0x200000, mib) else none
  else if cls == 3 && decide (unit ≤ 1) then
    some (0xF000100000000 + die / 3 * 2 ^ 32 + 0x300000 + die % 3 * mib, mib)
  else none

/-- An action has a meaning at a target (R496, Table 2-16). -/
def actionFits (action cls unit : Nat) : Bool :=
  let hubUnit := decide (8 ≤ unit ∧ unit ≤ 0x17)
  if [0, 0x11, 0x12, 0x14, 0x0C].contains action then true
  else if [1, 2, 0x13].contains action then (targetWindow cls 0 unit).isSome
  else if [3, 4, 5, 6, 7, 8, 9, 0xE].contains action then
    (cls == 0 && (unit == 0 || hubUnit)) || (cls == 1 && decide (unit ≤ 0x60)) ||
      (cls == 2 && (decide (unit < 0x34) || unit == 0x40 || unit == 0x41)) || (cls == 3 && decide (unit ≤ 1))
  else if action == 0xA || action == 0xB then
    (cls == 0 && (unit == 4 || hubUnit)) || (cls == 1 && decide (unit < 0x60)) ||
      (cls == 2 && (decide (unit < 0x34) || unit == 0x40 || unit == 0x41)) || (cls == 3 && decide (unit ≤ 1))
  else if action == 0xD then
    (cls == 0 && (unit == 0x19 || decide (8 ≤ unit ∧ unit < 0x10) || unit == 0x17)) ||
      (cls == 1 && (unit == 0x62 || unit == 0x63)) || (cls == 3 && decide (unit ≤ 1))
  else (cls == 1 && unit == 0x60) || (cls == 3 && decide (unit ≤ 1))

/-- A wait fits an action (Table 2-17). -/
def waitFits (wait action : Nat) : Bool :=
  match wait with
  | 0 => true
  | 1 => !(([0, 0x11, 0x12, 0x13, 0x14] : List Nat).contains action)
  | 2 => !(([0x12, 0x14] : List Nat).contains action)
  | 3 => [9, 4, 5, 7, 0xA].contains action
  | 5 => action == 0xC
  | 6 => action == 0xD
  | 7 => action == 0xE
  | _ => !(([0x12, 0x13, 0x14] : List Nat).contains action)

/-- The die that a rail feeds, as class and index (R498). -/
def railDie (r : Nat) : Nat × Nat :=
  if r < 12 then (2, r) else if r < 16 then (1, r - 12) else if r == 16 then (0, 0)
  else if r < 21 then (1, r - 17) else if r < 23 then (0, 0) else (4, 0)

/-! ### Cross checks (check 10) -/

/-- ROUTES against DIE_MAP (R285). -/
def Image.routesFit (im : Image) : Bool :=
  let base := im.sec secDieMap 0 1
  let comp := im.sec secDieMap 4 2
  let up (st : Nat) : Bool := st == 4 || base.testBit st
  let chans := (List.range 1024).map fun k => im.sec secRoutes (0x270 + k) 1
  ((List.range 624).all fun i => (im.sec secRoutes i 1 == 0xFF) == !comp.testBit (i / 52)) &&
    ((List.range 25).all fun k =>
      let a := k / 5
      let b := k % 5
      a == b || !up a || !up b || decide (8 ≤ (chans.filter fun c => c == 16 * a + b).length))

/-- PIT_BASE_INIT against DIE_MAP (R330). -/
def Image.pitFits (im : Image) : Bool :=
  let v := im.sec secTenant 8 8
  v % 2 == 0 || decide (v / 2 ^ 21 * 2 ^ 21 + 2 ^ 21 ≤ popcount (im.sec secDieMap 0 1) 4 * quarterLines * 64)

/-- A table and the tables it reaches by CALL nest at most four deep and never return (R56). -/
def Image.callsOk (im : Image) : Nat → List Nat → Nat → Bool
  | 0, _, _ => false
  | fuel + 1, chain, i =>
    !chain.contains i && ((im.tableAt i).rowsOf.all fun n =>
      let r := im.row n
      r.action != 0x12 ||
        match im.tableOf (fld r.operand 0 8) with
        | some j => decide (0x10 ≤ fld r.operand 0 8) && im.callsOk fuel (i :: chain) j
        | none => false)

/-- One row against its table (R56). -/
def Image.rowFits (im : Image) (t : TableEntry) (n : Nat) : Bool :=
  let r := im.row n
  let last := (im.endRow t).getD 0
  let isUndo := decide (last < n)
  let size := ((targetWindow r.cls r.die r.unit).map (·.2)).getD 0
  dieExists r.cls r.die &&
    (!r.hasUndo || (decide (last < r.undo ∧ r.undo < t.first + t.rows) && r.action != 0x12 && r.action != 0x13)) &&
    (!isUndo || (!(([0x12, 0x13, 0x14] : List Nat).contains r.action) && !r.commit && !r.hasUndo &&
      (t.rowsOf.any fun k => (im.row k).hasUndo && (im.row k).undo == n))) &&
    (r.action != 0x13 || (r.wait == 2 && decide (n < last ∧ n + fld r.operand 0 16 < last))) &&
    (r.action != 0x12 || (r.wait == 0 && (im.tableOf (fld r.operand 0 8)).isSome)) &&
    (r.action != 1 || decide (fld r.operand 0 28 < size)) &&
    (r.wait != 2 || decide (8 * fld r.arg 9 23 < size)) &&
    waitFits r.wait r.action && (r.action != 0x14 || r.wait == 0) &&
    (r.paramUnit || actionFits r.action r.cls r.unit) &&
    (r.action != 0xC || r.paramDie || railDie (fld r.operand 0 8) == (r.cls, r.die)) &&
    (r.wait != 8 || (fld r.arg 16 16 == 0 && decide (fld r.arg 0 16 < im.sec secPower 0 2)))

/-- The step tables against the rest (R56). -/
def Image.stepsFit (im : Image) : Bool :=
  (List.range im.tableCount).all fun i =>
    let t := im.tableAt i
    im.callsOk 5 [] i && t.rowsOf.all fun n => im.rowFits t n

/-! ### The load checks in order (R66, Table 2-11) -/

/-- The first check that fails, as its code and detail; none when the image passes. -/
def State.imageBad (s : State) (im : Image) (len : Nat) : Option (Nat × Nat) :=
  let total := im.totalLen
  if !(decide (128 ≤ len) && len == total && decide (total ≤ 2 ^ 22)) then some (0x101, 0)
  else match im.badHeader with
  | some o => some (0x102, o)
  | none =>
    let sig := im.sigOff
    if im.le 0x0A 2 != 0x1248 then some (0x103, 0)
    else match s.seq.operator with
    | none => some (0x104, 0)
    | some k =>
      if !im.signed sig 1 sig [Config.vendorKeyHash 1, Config.vendorKeyHash 2] then some (0x105, 0)
      else if !im.signed (sig + 152) 2 (sig + 152) [k] then some (0x106, 0)
      else if im.le 0x20 4 < s.seq.floor.toNat then some (0x107, 0)
      else match im.badDirectory with
      | some i => some (0x108, i)
      | none =>
        match ((List.range 11).map im.dirEntry).find? fun e => !im.sectionOk e with
        | some e => some (0x109, e.ty)
        | none =>
          let slowest := (List.range 8).foldl (fun a k => max a (im.sec secGlobal (0x10 + 4 * k) 4)) 0
          if im.sec secGlobal 8 4 < 2 * slowest then some (0x10A, secGlobal)
          else if !im.routesFit then some (0x10A, secRoutes)
          else if !im.pitFits then some (0x10A, secTenant)
          else if !im.stepsFit then some (0x10A, secSteps)
          else none

/-- An image has passed its checks: it is pending, or, with no active image, active at once under COLD_BRINGUP (R67). -/
def State.acceptImage (s : State) (im : Image) : State :=
  let q := s.seq
  if q.active.isSome then { s with seq := { q with pending := some im, load := q.load.done 2 } }
  else
    { s with
      seq := { q with active := some im, pending := none, earlier := none, bringing := true, loaded := false,
                      sections := [], writes := [], load := q.load.done 1 },
      power := { s.power with ceil := im.sec secPower 2 2, pkg := 1 } }.queueReq ⟨purposeBringup, 0, 0⟩

/-- A commit of a transfer (R65, R66): LOAD_RESULT, and the image where it passes. -/
def State.commitImage (s : State) (len : Nat) : State :=
  let q := { s.seq with open_ := false, load := s.seq.load.accept }
  let s := { s with seq := q }
  match s.imageBad q.staging len with
  | some (code, detail) => { s with seq := { q with load := q.load.fail code detail } }
  | none => s.acceptImage { q.staging with len := len }

end Sys2Proof.Machine
end

