-- ==== Sys2Proof/Machine/Sequencer.lean ====
section
/-! DEFINITION. The Sequencer (R57–R64, R496–R500): how it takes requests and runs rows, what each action does at its target,
the sleep requests of ALL_AGREE rows (R420, R421), full resets (R447) and the return to the state without an image (R43). -/

namespace Sys2Proof.Machine

def seqSrc : BitVec 16 := srcCode 0 0 1

/-! ### The row that runs and its target (R498) -/

/-- The running row: the image, its frame, the row as the image holds it, the PURPOSE of its table. -/
structure RowAt where
  im : Image
  frame : SeqFrame
  row : Row
  purpose : Nat
  deriving DecidableEq, Repr

/-- The row that the Sequencer runs now: the innermost frame's, or the undo row of the oldest entry still to be undone. -/
def State.curRow (s : State) : Option RowAt :=
  match s.seq.run, s.seq.active with
  | some r, some im =>
    let ctx (f : SeqFrame) : RowAt := ⟨im, f, im.row f.row, (im.tableAt f.table).purpose⟩
    match r.unwinding with
    | some (e :: _) => if (im.row e.2.1).hasUndo then some (ctx ⟨e.1, (im.row e.2.1).undo, e.2.2⟩) else none
    | some [] => none
    | none => r.stack.head?.map ctx
  | _, _ => none

/-- A row's target after substitution: wrong, on a die or tile that is not enabled, or good with the row's rail. -/
inductive Tgt where
  | bad
  | nop
  | ok (cls die unit rail : Nat)
  deriving DecidableEq, Repr

/-- The die of a target is enabled (R58): H and G always are. -/
def State.dieOn (s : State) (cls die : Nat) : Bool :=
  if cls == 1 then s.baseEn die else if cls == 2 then s.computeEn die else if cls == 3 then s.baseEn (die / 3) else true

/-- R498, R58, and R500's rule for PARAM_UNIT. -/
def State.rowTarget (s : State) (c : RowAt) : Tgt :=
  let r := c.row
  let p := c.frame.param
  let core := c.purpose == purposeCoreReset
  let d := if core then p / 48 else p
  let u := if core then s.tileOf p else p % 256
  let die := if r.paramDie then (if r.cls == 3 then 3 * d + r.die else d) else r.die
  let unit := if r.paramUnit then u else r.unit
  let rail := fld r.operand 0 8 + (if r.paramDie then d else 0)
  let badRail := r.action == 0xC && (decide (24 ≤ rail) || railDie rail != (r.cls, die))
  if (r.paramDie && r.cls == 3 && decide (3 ≤ r.die)) || !dieExists r.cls die || badRail ||
      (r.paramUnit && s.dieOn r.cls die && !actionFits r.action r.cls unit) then .bad
  else if !s.dieOn r.cls die || (r.cls == 2 && decide (unit < 0x34) && (s.coreOfTile die unit).isNone) then .nop
  else .ok r.cls die unit rail

/-- The switched domains of a target (Table 2-16), in the order in which they close. -/
def State.targetDomains (s : State) (cls die unit : Nat) : List Nat :=
  if cls == 0 then
    if unit == 0 then (List.range 16).map (696 + ·) ++ [hubLogic] else if 8 ≤ unit ∧ unit ≤ 0x17 then [unitDomain unit] else []
  else if cls == 1 then
    if unit < 0x60 then [bankDomain (96 * die + unit)]
    else if unit == 0x60 then baseParts die ++ [baseUncore die]
    else []
  else if cls == 2 then
    if unit < 0x34 then (s.coreOfTile die unit).toList
    else if unit == 0x40 then s.coresOn die ++ [uncoreDomain die]
    else if unit == 0x41 then [uncoreDomain die] else []
  else if cls == 3 then [stackDomain die]
  else []

/-- The fence that covers a target (Table 17-6). -/
def State.targetFence (s : State) (cls die unit : Nat) : Option Nat :=
  if cls == 0 then if 8 ≤ unit ∧ unit ≤ 0x17 then some (unitDomain unit) else if unit == 4 then some 1430 else none
  else if cls == 1 then if unit < 0x60 then some (1000 + 96 * die + unit) else some (1400 + die)
  else if cls == 2 then if unit < 0x34 then s.coreOfTile die unit else some (1410 + die)
  else if cls == 3 then some (stackDomain die)
  else none

def State.targetFenced (s : State) (cls die unit : Nat) : Bool :=
  ((s.targetFence cls die unit).any fun u => s.isFenced u || (decide (u < 576) && s.unitFenced u)) ||
    (cls == 1 && s.isFenced (1400 + die))

/-- The stacks of a target of SELF_REFRESH_ENTER and SELF_REFRESH_EXIT. -/
def targetStacks (cls die : Nat) : List Nat := if cls == 1 then [3 * die, 3 * die + 1, 3 * die + 2] else [die]

/-! ### The configuration path (R60) -/

/-- One access of the configuration path: to a system register of a core, or at a physical address. The Err code and value. -/
def State.cfgAccess (s : State) (core : Option Nat) (a : Nat) (wr : Option Word) : (Nat × Word) × State :=
  match core with
  | none =>
    let r := s.regAccess 0 a 8 wr
    if r.1.1 == 0 && r.2.regPends a wr then ((4, 0), r.2) else r
  | some g =>
    let x := s.dom g
    if x.st == .run then
      let n := a / 8
      match wr with
      | none => ((0, if (srInfo n).isSome then s.srRead g n else 0), s)
      | some v => ((0, 0), if (srInfo n).any (·.2.1.isSome) then s.mtsrWrite g n v 0 else s)
    else
      let (e, s) := s.doorCode g
      ((e, 0), s)

/-- Where an offset of a target's window lies, for the configuration path. -/
def State.cfgPlace (s : State) (cls die unit off : Nat) : Option Nat × Nat :=
  if cls == 2 && decide (unit < 0x34) then (s.coreOfTile die unit, off)
  else (none, ((targetWindow cls die unit).map (·.1)).getD 0 + off)

/-- Writes that a door answered RETRY are sent again; one that has waited the limit of class 7 is given up (R60, R275). -/
def State.cfgRetry (s : State) : State :=
  let ws := s.seq.writes
  let s := { s with seq := { s.seq with writes := [] } }
  ws.foldl (fun s w =>
    let (core, a, v, since, bound) := w
    if !bound && since + s.timeoutNs 7 ≤ s.now then s.fault seqSrc 0x21 none a
    else
      let ((e, _), s) := s.cfgAccess core a (some v)
      if e == 4 then { s with seq := { s.seq with writes := s.seq.writes ++ [w] } }
      else if bound then s.seqAnswer (if e == 0 then 1 else 2) else s) s

/-- The bit that a BIT_EQ wait or a SKIP_IF reads: none on RETRY, else whether the read succeeded and found the value. -/
def State.bitEq (s : State) (r : Row) (cls die unit : Nat) : Option (Bool × Bool) × State :=
  let (core, a) := s.cfgPlace cls die unit (8 * fld r.arg 9 23)
  let ((e, v), s) := s.cfgAccess core a none
  if e == 4 then (none, s) else (some (e == 0, bit v (fld r.arg 0 6) == bit r.arg 8), s)

/-! ### Sections (R60) -/

/-- AUTO_WAKE of every domain and POWER_CEIL from POWER_GROUPS (R424). -/
def State.loadPower (s : State) : State :=
  let n := s.img secPower 0 2 0
  let auto (d : Nat) : Bool :=
    match (List.range n).find? fun g => (s.img secPower (0x20 + 128 * g + d / 8) 1 0).testBit (d % 8) with
    | some g => s.img secPower (0x80 + 128 * g) 1 0 % 2 == 1
    | none => false
  let s := (List.range 712).foldl (fun s d => s.setDom d { s.dom d with auto := auto d }) s
  { s with power := { s.power with ceil := s.img secPower 2 2 2400 } }

/-- A ring station of the package: an enabled base die, or the hub. -/
def State.stationOn (s : State) (st : Nat) : Bool := st == 4 || s.baseEn st

/-- The channels of each ordered ring pair from ROUTES (R284): one that names a station that is not enabled is spare (R285),
and one that was removed stays so until the next full reset (R281). -/
def State.loadRoutes (s : State) (only : Option Nat) : State :=
  (List.range 25).foldl (fun s k =>
    let a := k / 5
    let b := k % 5
    if a != b && (only.isNone || only == some a) then
      let chans := (List.range 1024).filter fun i =>
        s.stationOn a && s.stationOn b && !(s.pair a b).gone.contains i && s.img secRoutes (0x270 + i) 1 0xFF == 16 * a + b
      s.setPair a b { s.pair a b with active := chans }
    else s) s

/-- The dies that take a CACHE section sent to a target. -/
def State.cacheDies (s : State) (cls die : Nat) : List (Bool × Nat) :=
  if cls == 1 then [(false, die)] else if cls == 2 then [(true, die)]
  else (s.bases.map fun n => (false, n)) ++ (((List.range 12).filter s.computeEn).map fun c => (true, c))

/-- A section reaches the agents at or below its target. -/
def State.loadSection (s : State) (ty cls die unit : Nat) : State :=
  let hub (u : Nat) : Bool := cls == 0 && (unit == 0 || unit == u)
  if ty == secCache then
    let ds := s.cacheDies cls die
    let keys := if cls == 0 then [secCache] else ds.map fun e => cacheKey e.1 e.2
    let s := { s with seq := { s.seq with sections := keys.foldl insertNew s.seq.sections } }
    s.sendAll (ds.map fun e => .cacheSectionArrival e.1 e.2)
  else
    let s := { s with seq := { s.seq with sections := insertNew s.seq.sections ty } }
    if ty == secPower && hub 1 then s.loadPower
    else if ty == secRoutes && (hub 0x19 || cls == 1) then s.loadRoutes (if cls == 1 then some die else none)
    else if ty == secQos && hub 4 then
      { s with qos := { s.qos with run := s.img secQos 0 1 0 == 1, rate := [], quota := [], bucket := [] } }
    else if ty == secTenant && hub 3 then
      { s with router := { s.router with pitBase := BitVec.ofNat 64 (s.img secTenant 8 8 0), tenants := [] } }
    else s

/-! ### Actions on domains (R412–R415, R496, R500) -/

/-- POWER_OFF or RETAIN is forbidden at a target (R60, R413, R415). -/
def State.closeForbidden (s : State) (ds : List Nat) (retain : Bool) : Bool :=
  match ds with
  | [d] => (retain && (s.dom d).st == .off) ||
      (decide (672 ≤ d) && decide (d < 684) &&
        ((coresOf (d - 672)).any fun g => (s.dom g).st != .retained && (s.dom g).st != .off))
  | _ => false

/-- Lift a fence, unless the loss of a base die placed it (R439, R445, R500). -/
def State.unfence (s : State) (u : Nat) : State :=
  let lost (n : Nat) : Bool := s.fc.lost.contains n
  let kept := if u < 576 then s.isFenced (1410 + u / 48) || lost (u / 144)
    else if 684 ≤ u ∧ u < 696 then lost ((u - 684) / 3)
    else if 1400 ≤ u ∧ u < 1404 then true
    else if 1410 ≤ u ∧ u < 1422 then lost ((u - 1410) / 3)
    else false
  if kept then s
  else
    let us := if 1410 ≤ u ∧ u < 1422 then u :: coresOf (u - 1410) else [u]
    { s with fenced := s.fenced.filter (fun x => !us.contains x),
             fc := { s.fc with done := s.fc.done.filter fun x => !us.contains x } }

/-! ### The end of a row, of a table, and of an unwinding (R57, R61–R64) -/

def State.putRun (s : State) (r : SeqRun) : State := { s with seq := { s.seq with run := some r } }

/-- The members of a power group whose dies are enabled (R420, R424). -/
def State.groupMembers (s : State) (g : Nat) : List Nat :=
  (List.range 712).filter fun d => s.domEnabled d && (s.img secPower (0x20 + 128 * g + d / 8) 1 0).testBit (d % 8)

/-- The group of a completed ALL_AGREE row is released (R421). -/
def State.releaseGroup (s : State) (g : Nat) : State :=
  let ds := (s.groupMembers g).filter s.power.asleep.contains
  let s := ds.foldl (fun s d => s.releaseUnit d) s
  { s with power := { s.power with asleep := s.power.asleep.filter fun d => !ds.contains d } }

/-- The next row to be undone: groups are released on the way, rows without HAS_UNDO are passed. -/
def State.unwindTo (s : State) (im : Image) : List (Nat × Nat × Nat) → List (Nat × Nat × Nat) × State
  | [] => ([], s)
  | e :: rest =>
    let r := im.row e.2.1
    let s := if r.wait == 8 then s.releaseGroup (fld r.arg 0 16) else s
    if r.hasUndo then (e :: rest, s) else s.unwindTo im rest

/-- The sleep request under way is dropped: whoever agreed or stops for it is released. -/
def State.dropSleep (s : State) : State :=
  match s.power.sleep with
  | none => s
  | some p =>
    let s := { s with power := { s.power with sleep := none } }
    ((p.agreed ++ p.owing).foldl (fun s d => s.releaseUnit d) s).modGuest fun g => { g with sleepAt := none }

/-- Every unit outside VAON at its reset state, memory as it stands; the stacks of enabled dies in self-refresh when `keep`
(R447). -/
def State.resetUnits (s : State) (keep : Bool) : State :=
  let p := s.power
  let f := s.fc
  let h := s.hier
  let m := s.mirror
  let st := if m.st == 0 || (m.st == 3 && !m.byLoss) then m.st else 1
  /- What the Sequencer, in VAON, has sent stays under way: its requests and its fault messages (R62). -/
  let mine (i : Instr) : Bool := match i with
    | .seqTableRequest _ _ => true
    | .fullReset _ => true
    | .faultMessage src _ _ _ => src == srcCode 0 0 1
    | _ => false
  { s with
    inflight := s.inflight.filter mine,
    cores := [], resetEntry := [],
    hier := { Hier.initial with
      dram := if keep == true then h.dram else [], chk := if keep == true then h.chk else [],
      mcs := if keep == true then s.stacks.map (fun k => (k, { Mc.initial with selfRefresh := true })) else [] },
    router := Router.initial, qos := Qos.initial,
    sec := s.sec.afterReset,
    power := { Power.initial with
      pkg := 0, target := p.target, res := p.res, wakeTime := p.wakeTime, wakeSmbus := p.wakeSmbus,
      wakeTimer := p.wakeTimer, timerFired := p.timerFired, ceil := s.img secPower 2 2 2400,
      rails := tmap (fun r => { r with abandoned := false, fails := 0, failTimes := [] }) p.rails },
    junction := [], viol := [], fenced := [],
    mirror := { Mirror.initial with st := st, partner := m.partner, did := m.did, gen := m.gen },
    ports := [], engines := [], qps := [], guest := Guest.initial, lanes := [], readers := [], writers := [],
    fc := { Collector.initial with plog := f.plog, pnext := f.pnext, dropped := f.dropped, rres := f.rres },
    mgmt := { s.mgmt with auth := 0, stale := 0, rate := 0, malformed := 0 } }

/-- The state of R43 and R497, with requests that wait refused. -/
def State.noImage (s : State) : State :=
  let q := s.seq
  let waiting := q.head ++ q.queue
  let s := { s with seq := { q with
    active := none, pending := none, earlier := none, staging := ⟨0, []⟩, open_ := false, bringing := false,
    restoring := false, loaded := false, sections := [], writes := [], head := [], queue := [] } }
  let s := waiting.foldl (fun s r => s.reportReq r false 0 codeNotPermitted 0) s
  let s := s.resetUnits false
  { s with power := { s.power with pkg := 3, ceil := 2400 } }

/-- The requests for a full reset that wait for the end of FULL_RESET have their results: RESET_RESULT and Brixmen (R448). -/
def State.reportReset (s : State) (ok : Bool) (code detail : Nat) : State :=
  let fin (c : Chan) : Chan := if ok then c.done 0 else c.fail code detail
  let s := if s.fc.rres.status == 1 && s.fc.rclass == 1 then { s with fc := { s.fc with rres := fin s.fc.rres } } else s
  if s.mgmt.running.any fun r => r.op == 0x106 && r.payload.headD 0 == 1 then s.mgmtEnd (fin s.mgmt.res) else s

/-- A failed FULL_RESET writes its record (R447). -/
def State.failedReset (s : State) (row : Nat) : State :=
  s.plogWrite (faultRecord seqSrc 0x80 none 5 false (row % 65536) 0)

/-- An image's first table has failed (R68, R447). -/
def State.bringUpFailed (s : State) : State :=
  let q := s.seq
  match q.earlier with
  | some im =>
    { s with seq := { q with
        active := some im, earlier := none, bringing := false, lastFailed := true, restoring := true,
        head := ⟨purposeFullReset, 0, 0⟩ :: q.head.filter fun r => r.purpose != purposeFullReset } }.send
      (.seqTableRequest purposeFullReset 0)
  | none => { s with seq := { q with lastFailed := q.lastFailed || q.bringing } }.noImage

/-- What the end of a table does for its purpose (R67, R68, R418, R422, R447, R448). -/
def State.purposeEnd (s : State) (req : SeqReq) (ok : Bool) (rows code detail row : Nat) : State :=
  let p := req.purpose
  if p == purposeBringup then
    if ok then { s with seq := { s.seq with bringing := false, lastFailed := false } } else s.bringUpFailed
  else if p == purposeFullReset then
    if ok then
      let q := s.seq
      { s with seq := { q with
          bringing := false, earlier := none,
          lastFailed := if q.bringing == true then false else q.lastFailed } }.reportReset true 0 0
    else ((s.reportReset false code detail).failedReset row).bringUpFailed
  else if p == purposeHold then
    if ok then
      let s := { s with power := { s.power with pkg := 2 } }.reportReq req true 2 0 0
      if s.power.wakeAfter then
        ({ s with power := { s.power with wakeAfter := false } } : State).wakeEvent.queueReq ⟨purposeExitHold, 0, 0⟩
      else s
    else s.reportReq req false 0 code detail
  else if p == purposeOff then
    if ok then
      let after := s.power.wakeAfter
      let s := (s.resetUnits false).reportReq req true 3 0 0
      let s := { s with power := { s.power with pkg := 3 } }
      if after then s.wakeEvent.send (.fullReset 4) else s
    else s.reportReq req false 0 code detail
  else if p == purposeExitHold then
    if ok then { s with power := { s.power with pkg := 0 } }
    else
      let s := { s with power := { s.power with transit := true } }
      s.send (.fullReset 5)
  else if p == purposeDieReset || p == purposeCoreReset then s.reportReq req ok 0 code detail
  else s.reportReq req ok rows code detail

/-- The run is over. `failure` is its code and detail, for whoever asked. -/
def State.seqEnd (s : State) (ok : Bool) : State :=
  match s.seq.run with
  | none => s
  | some r =>
    let s := s.dropSleep
    let own := if r.badUndo.isSome then (0x10C, r.badUndo.getD 0)
      else if r.failure == codeAborted then (codeAborted, 0) else (0x10B, r.failRow)
    let asked := if r.failure % 65536 == codeSleepRefused || r.failure == codeAborted then
        (r.failure % 65536, r.failure / 65536) else own
    let s := { s with
      seq := { s.seq with
        run := none, writes := s.seq.writes.filter (fun w => !w.2.2.2.2),
        res := if ok == true then s.seq.res.done r.rows else s.seq.res.fail own.1 own.2 },
      power := { s.power with asleep := [] } }
    let exitFail := !ok && r.req.purpose == purposeExitHold && !r.committed
    let s := if exitFail then s.fault seqSrc 0x80 none (r.failRow % 65536) else s
    let s := s.purposeEnd r.req ok r.rows asked.1 asked.2 r.failRow
    let s := if ok || !packageEntry r.req.purpose then s
      else { s with power := { s.power with wakeAfter := false } }
    (s.send (.seqTableRequest r.req.purpose r.req.param)).heldWakes

/-- Unwinding goes on with the oldest entry left, and the table ends when none is. -/
def State.unwind (s : State) : State :=
  match s.seq.run, s.seq.active with
  | some r, some im =>
    match r.unwinding with
    | some l =>
      let (l, s) := s.dropSleep.unwindTo im l
      let s := s.putRun { r with unwinding := some l, waiting := false, outcome := 0 }
      if l.isEmpty then s.seqEnd false else s
    | none => s
  | _, _ => s

/-- A completed row's LOG event (Table 19-6). -/
def State.rowLog (s : State) (c : RowAt) : State :=
  if c.row.log then
    s.sendEvent 1 (leBytes 2 c.frame.row ++ leBytes 1 c.purpose ++ [0] ++ leBytes 2 c.frame.param ++ [0, 0] ++
      leBytes 4 (if c.row.action == 0x11 then fld c.row.operand 0 32 else 0) ++ [0, 0, 0, 0])
  else s

/-- The first COMMIT of a run (R44, R422). -/
def State.commitRun (s : State) (r : SeqRun) : State :=
  let p := r.req.purpose
  let s := if p == purposeBringup || p == purposeFullReset then { s with seq := { s.seq with loaded := true } } else s
  if packageEntry p && s.power.wakeTime.toNat ≤ s.now then
    { s with power := { s.power with timerFired := true, wakeTimer := true, wakeAfter := true } }
  else s

/-- A LINK_TRAIN row of the guest port has ended: GUEST_PRESENT reports its outcome (R51). -/
def State.guestReport (s : State) (c : RowAt) : State :=
  if c.row.action == 0xD && c.row.cls == 0 && s.rowTarget c == .ok 0 0 0x17 (fld c.row.operand 0 8) then
    s.modGuest fun g => { g with
      present := g.modules != 0, budgetAt := if g.modules == 0 then g.budgetAt else some s.now }
  else s

/-- The members of a completed ALL_AGREE row count as agreed for the rest of the run. -/
def State.keepAsleep (s : State) : State :=
  match s.power.sleep with
  | none => s
  | some p => { s with power := { s.power with sleep := none, asleep := p.agreed.foldl insertNew s.power.asleep } }

/-- The running row has completed; `skip` rows after it are passed over. A write of the row that a door still retries goes on
until the limit of class 7, and no later row waits for it (R60). -/
def State.rowDone (s : State) (c : RowAt) (skip : Nat) : State :=
  let s := (s.rowLog c).guestReport c
  match s.seq.run with
  | none => s
  | some r =>
    match r.unwinding with
    | some l => (s.putRun { r with unwinding := some (l.drop 1), waiting := false, outcome := 0 }).unwind
    | none =>
      let s := if c.row.commit && !r.committed then s.commitRun r else s
      let s := s.keepAsleep
      let s := { s with seq := { s.seq with writes := s.seq.writes.map (fun (w : Option Nat × Nat × Word × Nat × Bool) => (w.1, w.2.1, w.2.2.1, w.2.2.2.1, false)) } }
      let undo := if c.row.hasUndo || c.row.wait == 8 then r.undo ++ [(c.frame.table, c.frame.row, c.frame.param)] else r.undo
      s.putRun { r with
        rows := r.rows + 1, committed := r.committed || c.row.commit, undo := undo, waiting := false, outcome := 0,
        stack := match r.stack with
          | f :: fs => { f with row := f.row + 1 + skip } :: fs
          | [] => [] }

/-- The running row has failed: `why` is the code with its detail for whoever asked, 0 for STEP_FAILED. -/
def State.rowFail (s : State) (c : RowAt) (why : Nat) : State :=
  let s := (s.guestReport c).dropBound
  match s.seq.run with
  | none => s
  | some r =>
    match r.unwinding with
    | some l =>
      (s.putRun { r with
        unwinding := some (l.drop 1), waiting := false, outcome := 0,
        badUndo := if r.badUndo.isNone == true then some c.frame.row else r.badUndo }).unwind
    | none =>
      let r := { r with failure := why, failRow := c.frame.row }
      if r.committed then ((s.putRun r).fault seqSrc 0x80 none (c.frame.row % 65536)).seqEnd false
      else (s.putRun { r with unwinding := some r.undo.reverse }).unwind

/-! ### Taking a request (R63, R446–R448) -/

/-- What happens before the first row of a table. The FULL_RESET that restores the earlier image activates no pending one:
that waits for the next (R68). -/
def State.beforeRun (s : State) (req : SeqReq) : State :=
  if req.purpose == purposeFullReset then
    let q := s.seq
    let s := match if q.restoring then none else q.pending with
      | some im => { s with seq := { q with
          active := some im, pending := none, earlier := q.active, bringing := true } }
      | none => s
    let s := { s with seq := { s.seq with loaded := false, sections := [], writes := [], restoring := false } }
    s.resetUnits true
  else if req.purpose == purposeCoreReset then s.unfence req.param
  else if req.purpose == purposeDieReset then s.unfence (1410 + req.param)
  else s

/-- The table of a request begins. -/
def State.begin (s : State) (req : SeqReq) : State :=
  let s := s.beforeRun req
  match s.seq.active with
  | none => (s.reportReq req false 0 codeNotPermitted 0).send (.seqTableRequest req.purpose req.param)
  | some im =>
    match im.tableOf req.purpose with
    | none => (s.reportReq req false 0 codeFieldInvalid 0).send (.seqTableRequest req.purpose req.param)
    | some t =>
      { s with
        seq := { s.seq with
          res := s.seq.res.accept,
          run := some { req := req, stack := [⟨t, (im.tableAt t).first, req.param⟩], undo := [], rows := 0,
                        committed := false, waiting := false, since := s.now, outcome := 0, unwinding := none,
                        badUndo := none, failure := 0, failRow := 0 } },
        power := { s.power with
          asleep := [], wakeAfter := if packageEntry req.purpose == true then false else s.power.wakeAfter } }

/-- FULL_RESET waits until the mirror engine has left its pair (R461). -/
def State.mayBegin (s : State) (req : SeqReq) : Bool :=
  req.purpose != purposeFullReset || s.mirror.st != 2 || s.mirror.left || !s.mirrorRuns

/-- An idle Sequencer takes the next request: the places at the head first. -/
def State.takeNext (s : State) : State :=
  match s.seq.head, s.seq.queue with
  | r :: rest, _ =>
    if s.mayBegin r then ({ s with seq := { s.seq with head := rest } } : State).begin r else s
  | [], r :: rest => ({ s with seq := { s.seq with queue := rest } } : State).begin r
  | [], [] => s

/-- The Sequencer looks at what it has to do. -/
def State.seqKick (s : State) : State :=
  match s.seq.run with
  | some r => if r.unwinding.isSome && !r.waiting then s.unwind else s
  | none => s.takeNext

/-- The parameter of a run: a request's own for the purposes that take one, 0 for every other (R498). -/
def runParam (purpose param : Nat) : Nat :=
  if purpose == purposeDieReset || purpose == purposeCoreReset || purpose == 9 || decide (16 ≤ purpose) then param else 0

/-- SEQ_TABLE_REQUEST (R63). -/
def execSeqTableRequest (purpose param : Nat) (s : State) : Out :=
  onWf (purposeOk purpose)
    (let m : Instr := .seqTableRequest purpose param
     if s.inflight.contains m then (s.arrive m).seqKick
     else ((s.queueReq ⟨purpose, runParam purpose param, 0⟩).arrive m).seqKick)

/-- FULL_RESET (R447, R461): the cause record, the request at the head of the queue, and the mirror engine's leave. -/
def execFullReset (cause : Nat) (s : State) : Out :=
  onArrival true (.fullReset cause) s fun s =>
    let again := s.runningPurpose == purposeFullReset || s.seq.head.any fun r => r.purpose == purposeFullReset
    if s.seq.active.isNone || again || (cause == 3 && s.seq.pending.isNone) then s
    else
      let s := if cause == 0 then s
        else s.plogWrite (faultRecord seqSrc 0 none 0 false cause 0)
      let s := s.abortEntry
      let s := (s.seqAsk ⟨purposeFullReset, 0, 0⟩).2
      if s.mirror.st == 2 && s.mirrorRuns && s.mirror.leaving.isNone then s.send .mirrorLeave else s

/-! ### Sleep requests (R420, R421) -/

/-- An ALL_AGREE row asks the members of its group. -/
def State.askSleep (s : State) (g : Nat) : State :=
  let ds := s.groupMembers g
  let done (d : Nat) : Bool := (s.dom d).st == .retained || (s.dom d).st == .off || s.power.asleep.contains d
  let owing := ds.filter fun d => !done d
  { s with power := { s.power with sleep := some ⟨g, [], owing⟩ } }.sendAll (owing.map fun d => .sleepRequest d)

/-- A member has refused, or the limit has passed: the row fails with SLEEP_REFUSED. -/
def State.sleepFail (s : State) (who : Option Nat) : State :=
  match s.curRow with
  | none => s.dropSleep
  | some c =>
    let d := who.getD 0xFFFF
    let src := match who with
      | some d => s.domSrc d
      | none => seqSrc
    ((s.dropSleep).rowFail c (codeSleepRefused + 65536 * d)).fault src 0x70 none d

/-- The mirror engine refuses while any slot is SYNCING, PROTECTED or STANDBY (Table 16-4). -/
def State.mirrorAwake (s : State) : Bool :=
  s.mirror.slots.any fun e => e.2.st == .syncing || e.2.st == .guarded || e.2.st == .standby

/-- A member answers a sleep request, or begins to drain for it (Table 16-4). -/
def State.sleepAsked (s : State) (d : Nat) : State :=
  let x := s.dom d
  if !(s.power.sleep.any fun p => p.owing.contains d) then s
  else if x.st == .retained || x.st == .off || (x.st == .run && (x.inReset || s.unitFenced d)) then s.send (.sleepAnswer d true)
  else if x.st != .run then s.send (.sleepRequest d)
  else if d == mirrorDomain && s.mirrorAwake then s.send (.sleepAnswer d false)
  else if d == guestDomain && s.guest.present && !s.guest.fenced then
    (s.modGuest fun g => { g with sleepAt := some s.now }).dtlOut 8 0 0 0 0
      (leBytes 4 0 ++ leBytes 4 s.power.grant ++ [0, 0, 1] ++ List.replicate 53 0)
  else if x.stopped && x.drainSince.isNone then s.send (.sleepAnswer d true)
  else if x.stopped then s
  else s.beginStop d

/-- SLEEP_REQUEST (R420). -/
def execSleepRequest (d : Nat) (s : State) : Out :=
  onArrival (domainOk d) (.sleepRequest d) s fun s => s.sleepAsked d

/-- SLEEP_ANSWER (R420, R421). -/
def execSleepAnswer (d : Nat) (agree : Bool) (s : State) : Out :=
  onArrival (domainOk d) (.sleepAnswer d agree) s fun s =>
    match s.power.sleep with
    | none => s
    | some p =>
      if !p.owing.contains d then s
      else if agree then
        let s := if d == guestDomain then s.beginStop d else s
        { s with power := { s.power with
            sleep := some { p with owing := p.owing.erase d, agreed := p.agreed ++ [d] } } }
      else s.sleepFail (some d)

/-! ### How a row runs (R57–R60, R500) -/

/-- What an action answers at once: its state, and 0 nothing yet, 1 acknowledged, 2 an error response. -/
abbrev ActRes := State × Nat

/-- Fold an operation over domains: acknowledged once each has reached what `done` asks. -/
def State.onDoms (s : State) (ds : List Nat) (f : State → Nat → State) : State := ds.foldl f s

/-- A target has done what its row asked (ACK and DRAINED waits). -/
def State.actDone (s : State) (c : RowAt) (cls die unit : Nat) : Bool :=
  let ds := s.targetDomains cls die unit
  let all (p : Dom → Bool) : Bool := ds.all fun d => (s.dom d).todo.isEmpty && p (s.dom d)
  let a := c.row.action
  if a == 3 then ds.all fun d => (s.dom d).todo.isEmpty && (s.portOff d || (s.dom d).st == .run)
  else if a == 4 then all fun x => x.st == .off
  else if a == 5 then all fun x => x.st == .retained || x.st == .off
  else if a == 6 then all fun x => x.st == .off || (x.st == .run && !x.stopped)
  else if a == 7 then all fun x => x.st == .off || (x.st == .run && x.inReset)
  else if a == 8 then all fun x => x.st == .off || x.st == .retained || !x.inReset
  else if a == 9 then all fun x => x.st == .off || x.st == .retained || (x.st == .run && (x.inReset || (x.stopped && x.drainSince.isNone)))
  else if a == 0xA then (s.targetFence cls die unit).all fun u => s.fc.done.contains u
  else false

/-- Rows that act on no target and run whatever it is (R58). -/
def freeRow (a : Nat) : Bool := a == 0x12 || a == 0x14
def fenceRow (a : Nat) : Bool := a == 0xA || a == 0xB

/-- A row starts if the Sequencer stands at a row with this ACTION: `act` performs it at its target. -/
def State.rowStart (s : State) (action : Nat) (act : State → RowAt → Nat → Nat → Nat → Nat → ActRes) : State :=
  let s := s.cfgRetry
  match s.curRow, s.seq.run with
  | some c, some r =>
    if r.waiting || c.row.action != action then s
    else match s.rowTarget c with
      | .bad => s.rowFail c 0
      | .nop => s.rowDone c 0
      | .ok cls die unit rail =>
        if s.targetFenced cls die unit && !fenceRow action then s.rowFail c 0
        else
          let (s, n) := act s c cls die unit rail
          match s.seq.run with
          | none => s
          | some r =>
            if c.row.wait == 0 then s.rowDone c 0
            else
              let s := s.putRun { r with waiting := true, since := s.now, outcome := n }
              if c.row.wait == 8 then s.askSleep (fld c.row.arg 0 16) else s
  | _, _ => s

/-- ROW_NOP (R57). -/
def execRowNop (s : State) : Out := .next (s.rowStart 0 fun s _ _ _ _ _ => (s, 1))

/-- The write of a WRITE_REG row. -/
def State.writeReg (s : State) (c : RowAt) (cls die unit : Nat) : ActRes :=
  let (core, a) := s.cfgPlace cls die unit (fld c.row.operand 0 28)
  let ((e, _), s) := s.cfgAccess core a (some c.row.value)
  if e == 4 then
    let bound := c.row.wait == 1 || c.row.wait == 2
    ({ s with seq := { s.seq with writes := s.seq.writes ++ [(core, a, c.row.value, s.now, bound)] } }, 0)
  else (s, if e == 0 then 1 else 2)

/-- ROW_WRITE_REG (R60). -/
def execRowWriteReg (s : State) : Out := .next (s.rowStart 1 fun s c cls die unit _ => s.writeReg c cls die unit)

/-- LOAD_SECTION (R60). -/
def execLoadSection (s : State) : Out :=
  .next (s.rowStart 2 fun s c cls die unit _ => (s.loadSection (fld c.row.operand 0 16) cls die unit, 1))

/-- POWER_ON (R496): an uncore before its cores. -/
def execPowerOn (s : State) : Out :=
  .next (s.rowStart 3 fun s _ cls die unit _ => (s.onDoms (s.targetDomains cls die unit).reverse (·.sendAct · 3), 0))

/-- A close of a target: forbidden ones answer with an error response. -/
def State.closeTarget (s : State) (ds : List Nat) (retain : Bool) : ActRes :=
  if s.closeForbidden ds retain then (s, 2) else (s.onDoms ds (·.sendAct · (if retain then 5 else 4)), 0)

/-- POWER_OFF (R413, R415, R496). -/
def execPowerOff (s : State) : Out :=
  .next (s.rowStart 4 fun s _ cls die unit _ => s.closeTarget (s.targetDomains cls die unit) false)

/-- RETAIN (R413, R415, R496). -/
def execRetain (s : State) : Out :=
  .next (s.rowStart 5 fun s _ cls die unit _ => s.closeTarget (s.targetDomains cls die unit) true)

/-- RESTORE (R414, R420, R496). -/
def execRestore (s : State) : Out :=
  .next (s.rowStart 6 fun s _ cls die unit _ => (s.onDoms (s.targetDomains cls die unit).reverse (·.sendAct · 6), 0))

/-- RESET_ASSERT (R23, R496). -/
def execResetAssert (s : State) : Out :=
  .next (s.rowStart 7 fun s _ cls die unit _ => (s.onDoms (s.targetDomains cls die unit) (·.sendAct · 7), 0))

/-- ROW_RESET_RELEASE (R121, R200, R496). -/
def execRowResetRelease (s : State) : Out :=
  .next (s.rowStart 8 fun s _ cls die unit _ =>
    (s.onDoms (s.targetDomains cls die unit).reverse (·.sendAct · 8), 0))

/-- DRAIN (R500). -/
def execDrain (s : State) : Out :=
  .next (s.rowStart 9 fun s _ cls die unit _ => (s.onDoms (s.targetDomains cls die unit) (·.sendAct · 9), 0))

/-- ROW_FENCE (R439, R500). -/
def execRowFence (s : State) : Out :=
  .next (s.rowStart 0xA fun s _ cls die unit _ =>
    match s.targetFence cls die unit with
    | some u => if s.isFenced u then (s, 1) else (s.fenceUnit u, 0)
    | none => (s, 1))

/-- UNFENCE (R439, R500). -/
def execUnfence (s : State) : Out :=
  .next (s.rowStart 0xB fun s _ cls die unit _ =>
    match s.targetFence cls die unit with
    | some u => (s.unfence u, 1)
    | none => (s, 1))

/-- AVS_SET (R426, R500). -/
def execAvsSet (s : State) : Out :=
  .next (s.rowStart 0xC fun s c _ _ _ rail =>
    let mv := fld c.row.value 0 16
    let acked := c.row.wait == 5
    let s := s.setRail rail { s.rail rail with setMv := mv }
    (s.avsAsk rail mv (if acked then c.row.limit else 1000000) acked, if acked then 0 else 1))

/-- The links of a port become ready (R354). -/
def State.trainPort (s : State) (p : Nat) : State :=
  if s.portRole p == 0 || s.board.clocks.contains 1 then s
  else s.portCount p fun x => { x with ready := if s.portSplit p == true then 3 else 1 }

/-- LINK_TRAIN (R51, R354, R496, R500, Table 2-10): training ends with these modules of the guest port trained; at every other
target it ends well where `modules` is not 0, and with 0 it fails, which fails a LINK_UP wait. A disabled port completes at
once, a port without its reference clock goes on. -/
def execLinkTrain (modules : BitVec 4) (s : State) : Out :=
  .next (s.rowStart 0xD fun s c cls _ unit _ =>
    let ended := if c.row.wait == 6 && modules == 0 then 2 else 1
    if cls == 0 && decide (8 ≤ unit ∧ unit < 0x10) then
      if s.portRole (unit - 8) == 0 then (s, 1)
      else if s.board.clocks.contains 1 then (s, 0)
      else (if modules == 0 then s else s.trainPort (unit - 8), ended)
    else if cls == 0 && unit == 0x17 then
      let s := s.modGuest fun g => { g with modules := modules, up := modules != 0 }
      let want := s.img secDieMap 1 1 0 == 1
      (s, if c.row.wait != 6 || (modules != 0) == want then 1 else 2)
    else (s, ended))

/-- BIST (R496): the test ends with this outcome. -/
def execBist (pass : Bool) (s : State) : Out :=
  .next (s.rowStart 0xE fun s c _ _ _ _ => (s, if c.row.wait != 7 || pass then 1 else 2))

/-- The stacks of a target enter or leave self-refresh. -/
def State.selfRefresh (s : State) (cls die : Nat) (on : Bool) : State :=
  (targetStacks cls die).foldl (fun s k => s.setMc k { s.mc k with selfRefresh := on }) s

/-- SELF_REFRESH_ENTER (R500). -/
def execSelfRefreshEnter (s : State) : Out :=
  .next (s.rowStart 0xF fun s _ cls die _ _ => (s.selfRefresh cls die true, 1))

/-- SELF_REFRESH_EXIT (R500). -/
def execSelfRefreshExit (s : State) : Out :=
  .next (s.rowStart 0x10 fun s _ cls die _ _ => (s.selfRefresh cls die false, 1))

/-- SIGNAL (R57): its event code goes out with the row's LOG. -/
def execSignal (s : State) : Out := .next (s.rowStart 0x11 fun s _ _ _ _ _ => (s, 1))

/-- ROW_CALL (R59, R498): the named table runs with the parameter that the row gives. -/
def execRowCall (s : State) : Out :=
  .next (
    let s := s.cfgRetry
    match s.curRow, s.seq.run with
    | some c, some r =>
      if r.waiting || c.row.action != 0x12 || r.unwinding.isSome then s
      else match c.im.tableOf (fld c.row.operand 0 8) with
        | some t => s.putRun { r with
            stack := ⟨t, (c.im.tableAt t).first, fld c.row.operand 8 16⟩ :: r.stack }
        | none => s
    | _, _ => s)

/-- SKIP_IF (R59): the condition is read once. -/
def State.skipRow (s : State) (c : RowAt) (r : SeqRun) : State :=
  match s.rowTarget c with
  | .bad => s.rowFail c 0
  | .nop => s.rowDone c 0
  | .ok cls die unit _ =>
    if s.targetFenced cls die unit then s.rowFail c 0
    else
      let (b, s) := s.bitEq c.row cls die unit
      match b with
      | none => s.putRun { r with waiting := true, since := if r.waiting == true then r.since else s.now, outcome := 0 }
      | some (false, _) => s.rowFail c 0
      | some (true, eq) => s.rowDone c (if eq then fld c.row.operand 0 16 else 0)

/-- SKIP_IF (R59). -/
def execSkipIf (s : State) : Out :=
  .next (
    let s := s.cfgRetry
    match s.curRow, s.seq.run with
    | some c, some r => if r.waiting || c.row.action != 0x13 then s else s.skipRow c r
    | _, _ => s)

/-- ROW_END (R57, R59): a called table returns to its CALL row, which completes; the outermost ends the run. -/
def execRowEnd (s : State) : Out :=
  .next (
    let s := s.cfgRetry
    match s.curRow, s.seq.run with
    | some c, some r =>
      if r.waiting || c.row.action != 0x14 || r.unwinding.isSome then s
      else
        let s := s.rowDone c 0
        match s.seq.run with
        | none => s
        | some r =>
          match r.stack with
          | _ :: f :: fs =>
            let s := s.putRun { r with stack := f :: fs }
            match s.curRow with
            | some c => s.rowDone c 0
            | none => s
          | _ => s.seqEnd true
    | _, _ => s)

/-- The wait of the running row is met. -/
def State.waitMet (s : State) (c : RowAt) (r : SeqRun) (cls die unit : Nat) : Bool × State :=
  match c.row.wait with
  | 1 => ((r.outcome == 1 || (r.outcome == 0 && s.actDone c cls die unit)), s)
  | 2 =>
    let (b, s) := s.bitEq c.row cls die unit
    (b == some (true, true), s)
  | 3 => (r.outcome != 2 && s.actDone c cls die unit, s)
  | 4 => (decide (r.since + c.row.limit ≤ s.now), s)
  | 8 => (s.power.sleep.any fun p => p.owing.isEmpty, s)
  | _ => (r.outcome == 1, s)

/-- ROW_WAIT_MET (R57): the next row starts. -/
def execRowWaitMet (s : State) : Out :=
  .next (
    let s := s.cfgRetry
    match s.curRow, s.seq.run with
    | some c, some r =>
      if !r.waiting then s
      else if c.row.action == 0x13 then s.skipRow c r
      else match s.rowTarget c with
        | .ok cls die unit _ =>
          let (met, s) := s.waitMet c r cls die unit
          if met then s.rowDone c 0 else s
        | _ => s
    | _, _ => s)

/-- The wait of the running row has failed (Table 2-10, R59, R60). DESIGN CHOICE (log 54): a SKIP_IF whose read a door keeps
answering RETRY, for which R59 names no limit, fails at TIMEOUT_NS of class 7. -/
def State.waitFailed (s : State) (c : RowAt) (r : SeqRun) (cls die unit : Nat) : Bool × State :=
  let late := decide (r.since + c.row.limit ≤ s.now)
  match c.row.wait with
  | 2 =>
    if c.row.action == 0x13 then (decide (r.since + s.timeoutNs 7 ≤ s.now), s)
    else
      let (b, s) := s.bitEq c.row cls die unit
      (b.any (fun e => !e.1) || (late && b != some (true, true)), s)
  | 3 => (late, s)
  | 4 => (false, s)
  | 8 => (late, s)
  | _ => (r.outcome == 2 || (late && r.outcome != 1), s)

/-- ROW_WAIT_FAILED (R61, R62, R421). -/
def execRowWaitFailed (s : State) : Out :=
  .next (
    let s := s.cfgRetry
    match s.curRow, s.seq.run with
    | some c, some r =>
      if !r.waiting then s
      else match s.rowTarget c with
        | .ok cls die unit _ =>
          let (failed, s) := s.waitFailed c r cls die unit
          if !failed then s
          else if c.row.wait == 8 then s.sleepFail none
          else s.rowFail c 0
        | _ => s
    | _, _ => s)

end Sys2Proof.Machine
end

