-- ==== Sys2Proof/Machine/Board.lean ====
section
/-! DEFINITION. The board's side (Chapter 20): cold resets and their causes (R482, R486–R488), thermal trips (R492) and the
JTAG port (R489). -/

namespace Sys2Proof.Machine

/-! ### Cold reset (R488, Table 17-8) -/

/-- Something still holds the package in cold reset. -/
def Board.held (b : Board) : Bool := !b.vaon || b.rstLow || b.trip

/-- What the JTAG instruction drives: nothing outside cold reset (R489). -/
def Board.drive (b : Board) : Option (Option (BitVec 41)) :=
  if !b.cold || !b.vaon then none
  else if b.jtag == 3 || b.jtag == 4 then some (some b.boundary)
  else if b.jtag == 5 then some none
  else none

def Board.redrive (b : Board) : Board := { b with driven := b.drive }

/-- Every unit at its state after a cold reset: the persistent log, the fuses, the management key and what lies on the board's
side stay (R450, R472, Table 17-8). -/
def State.coldUnits (s : State) : State :=
  { State.reset with
    pending := s.pending, out := s.out, free := s.free, board := s.board,
    sec := s.sec.afterReset,
    seq := { Seq.initial with operator := s.seq.operator, floor := s.seq.floor },
    fc := { Collector.initial with plog := s.fc.plog, pnext := s.fc.pnext },
    mgmt := { Mgmt.initial s.board.mgmtId with key := s.mgmt.key } }

/-- A cause of cold reset has arrived: one persistent-log record for events that overlap (R451, R488). -/
def State.enterCold (s : State) : State :=
  let first := !s.board.logged
  let s := s.coldUnits
  let s := if first then s.plogWrite (faultRecord (srcCode 0 0 2) 0 none 0 false 0 0) else s
  let b := s.board
  let b := { b with
    cold := true, logged := true, released := if b.held == true then none else some s.now }
  { s with board := b.redrive }

/-- One cause fewer: the 20 ms begin with the last. -/
def State.causeGone (s : State) : State :=
  if s.board.cold && !s.board.held && s.board.released.isNone then
    { s with board := { s.board with released := some s.now } }
  else s

/-- Every base-die sensor reads below 95 °C, so that a pulse or a loss of VAON ends a trip (R492). -/
def Board.coolEnough (b : Board) : Bool := b.temps.all fun e => decide (e.2 < 95)

/-- COLD_RST_N_ASSERT (R488, R492): held low for 10 µs. -/
def execColdRstNAssert (s : State) : Out :=
  .next (
    let b := s.board
    if !b.vaon || b.rstLow then { s with board := { b with rstLow := true } }
    else
      ({ s with board := { b with
          rstLow := true, trip := b.trip && !b.coolEnough } } : State).enterCold)

/-- COLD_RST_N_RELEASE (R488). -/
def execColdRstNRelease (s : State) : Out :=
  .next (({ s with board := { s.board with rstLow := false } } : State).causeGone)

/-- VAON_POWER_UP (R482, R488). -/
def execVaonPowerUp (s : State) : Out :=
  .next (
    let b := s.board
    if b.vaon then s
    else ({ s with board := { b with vaon := true, jtag := 1 } } : State).enterCold)

/-- VAON_LOSS (R482, R492). -/
def execVaonLoss (s : State) : Out :=
  .next (
    let b := s.board
    if !b.vaon then s
    else
      ({ s with board := { b with
          vaon := false, trip := b.trip && !b.coolEnough, jtag := 1 } } : State).enterCold)

/-- THERMAL_TRIP (R492): a base-die sensor reads `temp`; at 115 °C the package trips. -/
def execThermalTrip (die temp : Nat) (s : State) : Out :=
  onWf (baseOk die)
    (let b := s.board
     let b := { b with
       temps := tput b.temps die temp, trip := b.trip || (b.vaon && decide (115 ≤ temp)) }
     let s := { s with board := b }
     if b.vaon && 115 ≤ temp then s.enterCold else s)

/-- COLD_RESET_END (R486–R488): the straps are sampled, and the package reaches the state of R43 unless TESTMODE is 1. -/
def execColdResetEnd (mgmtId : BitVec 16) (smbAddr : BitVec 3) (testMode : Bool) (s : State) : Out :=
  .next (
    let b := s.board
    if b.cold && !b.held && b.released.any (fun t => t + 20000000 ≤ s.now) then
      let b := { b with mgmtId := mgmtId, smbAddr := smbAddr, testMode := testMode, released := none }
      if testMode then { s with board := b }
      else
        let s := ({ s with board := { b with cold := false, logged := false, jtag := 0 } } : State)
        let s := s.coldUnits
        { s with board := s.board.redrive }
    else s)

/-! ### JTAG (R489): bits shift least significant first -/

/-- Bits leave TDO while the always-on region is powered. -/
def State.tdo (s : State) (bits : List Bool) : State :=
  if s.board.vaon then { s with out := s.out ++ [.tdo bits] } else s

/-- An instruction is loaded. -/
def State.tap (s : State) (n : Nat) : State :=
  if s.board.vaon then
    let b := { s.board with jtag := n }
    { s with board := b.redrive }
  else s

/-- Bits pass the one-bit bypass register, which captures 0. -/
def throughBypass (tdi : List Bool) : List Bool := (false :: tdi).take tdi.length

def bitList {w : Nat} (x : BitVec w) : List Bool := (List.range w).map x.getLsbD

/-- JTAG_TAP_RESET: TRST_N, or five TCK cycles with TMS high. -/
def execJtagTapReset (s : State) : Out := .next (s.tap 1)

/-- BYPASS. -/
def execJtagBypass (tdi : List Bool) (s : State) : Out := .next ((s.tap 0).tdo (throughBypass tdi))

/-- The device identification register. -/
def idcode : BitVec 32 := 0x11248B4B

/-- IDCODE. -/
def execJtagIdcode (s : State) : Out := .next ((s.tap 1).tdo (bitList idcode))

/-- The boundary register takes the bits shifted in. -/
def State.shiftBoundary (s : State) (v : BitVec 41) : State :=
  if s.board.vaon then
    let b := { s.board with boundary := v }
    { s with board := b.redrive }
  else s

/-- SAMPLE/PRELOAD: the lands are captured and shifted out while the boundary register is preloaded. -/
def execJtagSamplePreload (lands preload : BitVec 41) (s : State) : Out :=
  .next (((s.tap 2).tdo (bitList lands)).shiftBoundary preload)

/-- EXTEST: as BYPASS outside cold reset. -/
def execJtagExtest (lands shiftIn : BitVec 41) (s : State) : Out :=
  .next (
    let s := s.tap 3
    if s.board.cold then (s.tdo (bitList lands)).shiftBoundary shiftIn else s.tdo (throughBypass (bitList shiftIn)))

/-- CLAMP: the bypass register is selected while the lands are driven. -/
def execJtagClamp (tdi : List Bool) (s : State) : Out := .next ((s.tap 4).tdo (throughBypass tdi))

/-- HIGHZ: the bypass register is selected while the lands float. -/
def execJtagHighz (tdi : List Bool) (s : State) : Out := .next ((s.tap 5).tdo (throughBypass tdi))

end Sys2Proof.Machine
end

