-- ==== Sys2Proof/Machine/Brixmen.lean ====
section
/-! DEFINITION. The management port (R372) and Brixmen (Chapter 19): acceptance of requests, queries, and commands. -/

namespace Sys2Proof.Machine

def brixPort : Nat := 49731
def stewardNode : Nat := 0x3DC

/-! ### Requests and responses (R473, R474) -/

/-- The Steward answers: VAON stands and the package is in no cold reset. -/
def State.steward (s : State) : Bool := s.board.vaon && !s.board.cold

/-- A response to a request, tagged under the key in force. -/
def State.respond (s : State) (ip : BitVec 32) (port op : Nat) (mtag : Word) (accept : Nat) (payload : List Byte) : State :=
  let f := s.tagged (brixHead 2 op payload.length s.now mtag accept s.mgmt.res.word ++ payload)
  { s with out := s.out ++ [.datagram ip port f] }

/-- MGMT_VIOL counts a refusal: 2 AUTH; 3, 4 STALE; 5, 7 RATE; 1, 6 MALFORMED (Table 19-8). -/
def Mgmt.violation (m : Mgmt) (code : Nat) : Mgmt :=
  if code == 2 then { m with auth := satInc 16 m.auth }
  else if code == 3 || code == 4 then { m with stale := satInc 16 m.stale }
  else if code == 5 || code == 7 then { m with rate := satInc 16 m.rate }
  else { m with malformed := satInc 16 m.malformed }

/-- A refusal: counted, and answered at most 1,000 times in any second. -/
def State.refuse (s : State) (ip : BitVec 32) (port op : Nat) (mtag : Word) (code : Nat) : State :=
  let ts := s.mgmt.refused.filter fun t => s.now < t + 1000000000
  let s := { s with mgmt := s.mgmt.violation code }
  if ts.length < 1000 then
    ({ s with mgmt := { s.mgmt with refused := ts ++ [s.now] } } : State).respond ip port op mtag code []
  else { s with mgmt := { s.mgmt with refused := ts } }

def queryOp (op : Nat) : Bool := decide (1 ≤ op ∧ op ≤ 5)
def commandOp (op : Nat) : Bool := decide (0x101 ≤ op ∧ op ≤ 0x10E)

/-- A query's payload keeps its layout (Table 19-4). -/
def queryOk (op : Nat) (b : List Byte) : Bool :=
  if op == 3 then b.length == 8
  else if op == 4 then b.length == 8 && decide (1 ≤ leAt b 1 1 ∧ leAt b 1 1 ≤ 64) && (b.drop 2).all (· == 0)
  else b.isEmpty

/-- The first check of Table 19-3 that refuses a request; 0 when it is accepted. -/
def State.requestBad (s : State) (b : List Byte) : Nat :=
  let len := leAt b 6 2
  let op := leAt b 4 2
  let stamp := leAt b 8 8
  let tag := (b.drop (24 + len)).take 48
  let recent := s.mgmt.recent
  if beAt b 0 2 != 0x4258 || leAt b 2 1 != 1 || leAt b 3 1 != 1 || b.length != 72 + len then 1
  else if hmac384 s.mkey (b.take (24 + len)) != tag then 2
  else if stamp + 1000000000 < s.now || s.now + 1000000000 < stamp then 3
  else if recent.any fun r => s.now ≤ r.1 + 2000000000 && r.2 == ofBytes 384 tag then 4
  else if 16384 ≤ (recent.filter fun r => s.now < r.1 + 1000000000).length then 5
  else if !queryOp op && !commandOp op then 6
  else if commandOp op && s.mgmt.running.isSome then 7
  else if queryOp op && !queryOk op ((b.drop 24).take len) then 1
  else 0

/-- A request is accepted: a command takes its number and is answered BUSY. -/
def State.acceptReq (s : State) (r : MReq) (tag : BitVec 384) : State :=
  let m := s.mgmt
  let recent := (m.recent.filter fun e => s.now ≤ e.1 + 2000000000) ++ [(s.now, tag)]
  let s := { s with mgmt := { m with accepted := m.accepted ++ [r], recent := recent } }
  if commandOp r.op then
    let s := { s with mgmt := { s.mgmt with running := some r, res := s.mgmt.res.accept } }
    s.respond r.ip r.port r.op r.mtag 0 (leBytes 8 s.mgmt.res.count.toNat)
  else s

/-- BRIXMEN_REQUEST (R473, R474): the payload of a UDP datagram for the Brixmen port. -/
def execBrixmenRequest (ip : BitVec 32) (port : Nat) (bytes : List Byte) (s : State) : Out :=
  onArrival true (.brixmenRequest ip port bytes) s fun s =>
    if !s.steward then s
    else if bytes.length < 8 then { s with mgmt := s.mgmt.violation 1 }
    else
      let op := leAt bytes 4 2
      let mtag : Word := ofBytes 64 ((bytes.drop 16).take 8)
      let bad := s.requestBad bytes
      if bad != 0 then s.refuse ip port op mtag bad
      else
        let len := leAt bytes 6 2
        s.acceptReq ⟨op, leAt bytes 8 8, mtag, (bytes.drop 24).take len, ip, port, none⟩
          (ofBytes 384 ((bytes.drop (24 + len)).take 48))

/-! ### The management port (R372, R471) -/

def mgmtMac : Nat := (Config.macBase.toNat + 16) % 2 ^ 48
def State.dropFrame (s : State) : State := { s with mgmt := { s.mgmt with dropped := s.mgmt.dropped + 1 } }
def State.mgmtOut (s : State) (b : List Byte) : State := { s with out := s.out ++ [.mgmt (padFrame b)] }

/-- An ARP request for the port's address is answered. -/
def State.arp (s : State) (b : List Byte) : State :=
  if beAt b 14 8 == 0x0001080006040001 && beAt b 38 4 == s.mgmt.ip.toNat then
    s.mgmtOut ((b.drop 22).take 6 ++ beBytes 6 mgmtMac ++ beBytes 2 0x0806 ++ beBytes 8 0x0001080006040002 ++
      beBytes 6 mgmtMac ++ beBytes 4 s.mgmt.ip.toNat ++ (b.drop 22).take 10)
  else s.dropFrame

/-- The answer to an ICMP echo request: addresses exchanged, TYPE 0, checksums anew. -/
def echoReply (b : List Byte) : List Byte :=
  let h := ipHeaderLen b 14
  let l4 := 14 + h
  let n := beAt b 16 2
  let b := (b.drop 6).take 6 ++ beBytes 6 mgmtMac ++ ((b.drop 12).take (n + 2))
  let b := patch b 26 ((b.drop 30).take 4 ++ (b.drop 26).take 4)
  let b := patch b l4 [0, (b.getD (l4 + 1) 0), 0, 0]
  putL3 (patch b (l4 + 2) (beBytes 2 (checksum (sum16 (b.drop l4))))) 14

/-- A frame addressed to the port that carries IPv4. -/
def State.mgmtIp (s : State) (b : List Byte) : State :=
  let h := ipHeaderLen b 14
  let l4 := 14 + h
  let n := beAt b 16 2
  let sums := rxSums (b.take (14 + n))
  if ipVersion b 14 != 4 || h < 20 || b.length < 14 + n || n < h + 8 || !sums.1 || beAt b 30 4 != s.mgmt.ip.toNat then
    s.dropFrame
  else if beAt b 20 2 % 16384 != 0 then
    if ipProto b 14 == 17 then { s with mgmt := s.mgmt.violation 1 } else s.dropFrame
  else if ipProto b 14 == 1 then
    if beAt b l4 2 == 0x0800 && fold16 (sum16 ((b.drop l4).take (n - h))) == 65535 then s.mgmtOut (echoReply b) else s.dropFrame
  else if ipProto b 14 == 17 && beAt b (l4 + 2) 2 == brixPort && (sums.2 || beAt b (l4 + 6) 2 == 0) then
    s.send (.brixmenRequest (BitVec.ofNat 32 (beAt b 26 4)) (beAt b l4 2) ((b.drop (l4 + 8)).take (beAt b (l4 + 4) 2 - 8)))
  else s.dropFrame

/-- MGMT_FRAME_RECEIVE (R372, R443, R471): a good frame without its FCS. -/
def execMgmtFrameReceive (bytes : List Byte) (s : State) : Out :=
  .next (
    if !s.steward || s.board.clocks.contains 3 then s
    else
      let dst := beAt bytes 0 6
      let own := dst == mgmtMac
      let ty := beAt bytes 12 2
      if ty == 0x0806 && (own || dst == 0xFFFFFFFFFFFF) then s.arp bytes
      else if ty == 0x0800 && own then s.mgmtIp bytes
      else s.dropFrame)

/-! ### Taking an accepted request -/

/-- The oldest accepted request of an OP is taken and performed. -/
def State.takeOp (s : State) (p : MReq → Bool) (f : State → MReq → State) : State :=
  match takeFirst p s.mgmt.accepted with
  | some (r, rest) => f { s with mgmt := { s.mgmt with accepted := rest } } r
  | none => s

/-- A query's answer. -/
def State.answerQuery (s : State) (r : MReq) (payload : List Byte) : State := s.respond r.ip r.port r.op r.mtag 0 payload

/-- The command ends as DONE, or FAILED with a code and a detail. -/
def State.cmdDone (s : State) (v : Nat) : State := s.mgmtEnd (s.mgmt.res.done v)
def State.cmdFail (s : State) (code detail : Nat) : State := s.mgmtEnd (s.mgmt.res.fail code detail)

/-- A command of an OP is performed if its payload has its length and its reserved bytes are 0 (R476). -/
def State.command (s : State) (op : Nat) (ok : List Byte → Bool) (f : State → MReq → State) : State :=
  s.takeOp (fun r => r.op == op) fun s r => if ok r.payload then f s r else s.cmdFail codeFieldInvalid 0

/-- Bytes of a payload that must be 0. -/
def zeroBytes (b : List Byte) (o n : Nat) : Bool := ((b.drop o).take n).all (· == 0)

/-- The package is in Hold or Off with an image active, or has none. -/
def State.asleepPkg (s : State) : Bool := s.seq.active.isNone || s.power.pkg == 2 || s.power.pkg == 3

/-! ### Queries (Table 19-4) -/

/-- GET_RESULT (R36, R476): the record is empty while the word is BUSY or NONE. -/
def execGetResult (s : State) : Out :=
  .next (s.takeOp (fun r => r.op == 1) fun s r =>
    let w := s.mgmt.res.word
    s.answerQuery r (if s.mgmt.res.status.toNat < 2 then [] else (Config.resultRecord s.mgmt.res.seq.toNat w).take 1024))

/-- The value of a register function, 0 where it lists none. -/
def valOf (r : Option (Word × Word)) : Word := (r.map (·.1)).getD 0

/-- GET_STATUS. -/
def execGetStatus (s : State) : Out :=
  .next (s.takeOp (fun r => r.op == 2) fun s r =>
    s.answerQuery r (toBytes (valOf (s.powerReg 0x40)) 8 ++ toBytes (valOf (s.powerReg 0x10)) 8 ++ toBytes s.pairStatus 8 ++
      toBytes (valOf (s.collectorReg 0x38)) 8 ++ toBytes (valOf (s.collectorReg 0x18)) 8 ++ leBytes 8 s.mgmt.eseqSent))

/-- The Steward's access to a register (R477), timed in class 7. -/
def State.stewardReg (s : State) (r : MReq) (pa : Nat) (wr : Option Word) : Option (Nat × Word) × Option Nat × State :=
  s.initReg stewardNode (srcCode 0 0 0) 0 7 r.since pa 8 wr

/-- The answer of READ_REG: the value and the Err code. -/
def State.answerReg (s : State) (r : MReq) (e : Nat) (v : Word) : State :=
  s.answerQuery r (toBytes v 8 ++ leBytes 2 e ++ List.replicate 6 0)

/-- READ_REG (R477): a register is read at once, and again while a door answers RETRY; an address in DRAM or in the guest
window with RdCur, whose answer comes with the line. -/
def execReadReg (s : State) : Out :=
  .next (
    match takeFirst (fun (r : MReq) => r.op == 3) s.mgmt.accepted with
    | none => s
    | some (r, rest) =>
      let pa := leAt r.payload 0 8 % 2 ^ 52
      let left (l : List MReq) (t : State) : State := { t with mgmt := { t.mgmt with accepted := l } }
      if pa % 8 != 0 then (left rest s).answerReg r 2 0
      else if isDevice pa && !isGuestWindow pa then
        match s.stewardReg r pa none with
        | (some (e, v), _, t) => (left rest t).answerReg r e v
        | (none, since, t) => left ({ r with since := since } :: rest) t
      else (left rest s).startRead stewardNode 0 0 (.steward r) [(pa, 8)])

/-- The memory read of a READ_REG has failed with a code; a poisoned word is a free value. -/
def State.stewardBad (s : State) (r : MReq) (code : Nat) : State :=
  if code == 0 then
    let (n, s) := s.draw
    s.answerReg r 0 (Config.freeWord n)
  else s.answerReg r code 0

/-- READ_PLOG: slots up to 255. -/
def execReadPlog (s : State) : Out :=
  .next (s.takeOp (fun r => r.op == 4) fun s r =>
    let first := leAt r.payload 0 1
    let n := min (leAt r.payload 1 1) (256 - first)
    let word (k : Nat) : BitVec 128 := ((tfind? s.fc.plog k).map (·.data)).getD 0
    s.answerQuery r (((List.range n).map fun i => toBytes (word (first + i)) 16).flatten))

/-- GET_ATTEST_KEY (Table 12-7): the public key in uncompressed SEC 1 form. -/
def execGetAttestKey (s : State) : Out :=
  .next (s.takeOp (fun r => r.op == 5) fun s r => s.answerQuery r (ptBytes (ptMul 384 (Config.attestKey.toNat % n384) g384)))

/-! ### Image commands (R65–R67) -/

/-- IMAGE_START. -/
def execImageStart (s : State) : Out :=
  .next (s.command 0x101 (fun b => b.isEmpty) fun s _ =>
    ({ s with seq := { s.seq with staging := ⟨0, []⟩, open_ := true } } : State).cmdDone 0)

/-- Bytes placed in the staging buffer. -/
def Image.place (im : Image) (o : Nat) : List Byte → Image
  | [] => im
  | b :: bs =>
    Image.place { im with bytes := if b == 0 then tdel im.bytes o else tput im.bytes o b } (o + 1) bs

/-- IMAGE_DATA: no data is DONE with VALUE 0 (R37). -/
def execImageData (s : State) : Out :=
  .next (s.command 0x102 (fun b => decide (8 ≤ b.length ∧ b.length ≤ 1032)) fun s r =>
    let o := leAt r.payload 0 8
    let n := r.payload.length - 8
    if n == 0 then s.cmdDone 0
    else if !s.seq.open_ then s.cmdFail 0x180 0
    else if 2 ^ 22 < o + n then s.cmdFail codeLengthRange 0
    else
      ({ s with seq := { s.seq with staging := s.seq.staging.place o (r.payload.drop 8) } } : State).cmdDone n)

/-- IMAGE_COMMIT. -/
def execImageCommit (s : State) : Out :=
  .next (s.command 0x103 (fun b => b.length == 8) fun s r =>
    if !s.seq.open_ then s.cmdFail 0x180 0
    else
      let s := s.commitImage (leAt r.payload 0 8)
      let c := s.seq.load
      if c.status == 2 then s.cmdDone c.value.toNat
      else s.cmdFail (c.value.toNat % 65536) (c.value.toNat / 65536))

/-! ### Tables, package states, resets -/

/-- RUN_TABLE (R63, R476, R497). -/
def execRunTable (s : State) : Out :=
  .next (s.command 0x104 (fun b => b.length == 8 && zeroBytes b 1 1 && zeroBytes b 4 4) fun s r =>
    let p := leAt r.payload 0 1
    if s.asleepPkg then s.cmdFail codeNotPermitted 0
    else if !(decide (0x10 ≤ p ∧ p ≤ 0x3F) && s.seq.active.any fun im => (im.tableOf p).isSome) then s.cmdFail codeFieldInvalid 0
    else s.queueReq ⟨p, leAt r.payload 2 2, 2⟩)

/-- SET_PKG_STATE (R418, R423). -/
def execSetPkgState (s : State) : Out :=
  .next (s.command 0x105 (fun b => b.length == 8 && zeroBytes b 1 7) fun s r =>
    let t := leAt r.payload 0 1
    if s.pkgBusy then s.cmdFail codePkgStateInvalid 0
    else if t != 2 && t != 3 then s.cmdFail codeFieldInvalid 0
    else s.pkgEnter t 2)

/-- A RESET command of a class; a payload that breaks its layout belongs to class 1. -/
def State.resetOp (s : State) (cls : Nat) (f : State → Nat → State) : State :=
  let bad (b : List Byte) : Bool := !(b.length == 8 && zeroBytes b 1 1 && zeroBytes b 4 4 &&
    decide (1 ≤ leAt b 0 1 ∧ leAt b 0 1 ≤ 4))
  s.takeOp (fun r => r.op == 0x106 && (if bad r.payload then cls == 1 else leAt r.payload 0 1 == cls)) fun s r =>
    if bad r.payload then s.cmdFail codeFieldInvalid 0 else f s (leAt r.payload 2 2)

/-- RESET_FULL (R447, R476). -/
def execResetFull (s : State) : Out :=
  .next (s.resetOp 1 fun s _ => if s.seq.active.isNone then s.cmdFail codeNotPermitted 0 else s.send (.fullReset 2))

/-- A compute-die or core reset (R448, R476). -/
def State.brixReset (s : State) (cls index : Nat) : State :=
  if s.asleepPkg then s.cmdFail codeNotPermitted 0
  else
    let bad := s.resetRefusal cls index
    if bad != 0 then s.cmdFail bad 0 else s.startReset cls index 2

/-- RESET_COMPUTE_DIE (R448). -/
def execResetComputeDie (s : State) : Out := .next (s.resetOp 2 fun s i => s.brixReset 2 i)
/-- RESET_CORE (R448). -/
def execResetCore (s : State) : Out := .next (s.resetOp 3 fun s i => s.brixReset 3 i)
/-- RESET_COLD (R488). -/
def execResetCold (s : State) : Out := .next (s.resetOp 4 fun s _ => s.enterCold)

/-! ### Registers, fuses, pairing, the log, keys, addressing -/

/-- WRITE_REG may reach an address in Hold or Off: the power block and the Steward mailbox. -/
def alwaysReg (pa : Nat) : Bool :=
  match blkOf pa with
  | some .power => true
  | some .mailbox => true
  | _ => false

/-- WRITE_REG (R477): a door's RETRY leaves the command running, to be sent again. -/
def execWriteReg (s : State) : Out :=
  .next (
    match takeFirst (fun (r : MReq) => r.op == 0x107) s.mgmt.accepted with
    | none => s
    | some (r, rest) =>
      let t : State := { s with mgmt := { s.mgmt with accepted := rest } }
      let pa := leAt r.payload 0 8
      let v : Word := ofBytes 64 ((r.payload.drop 8).take 8)
      if r.payload.length != 16 then t.cmdFail codeFieldInvalid 0
      else if s.asleepPkg && !alwaysReg pa then t.cmdFail codeNotPermitted 0
      else if pa % 8 != 0 then t.cmdFail codeAlign 0
      else if isDevice pa && !isGuestWindow pa then
        match t.stewardReg r pa (some v) with
        | (some (e, _), _, t) =>
          if e == 0 then t.cmdDone 0 else (t.fault (srcCode 0 0 0) 0x22 none pa).cmdFail 0x183 e
        | (none, since, t) => { t with mgmt := { t.mgmt with accepted := { r with since := since } :: rest } }
      else t.startWrite stewardNode 0 0 .mgmt [(pa, toBytes v 8)])

/-- PROVISION_KEY (R48). -/
def execProvisionKey (s : State) : Out :=
  .next (s.command 0x108 (fun b => b.length == 48) fun s r =>
    if s.seq.operator.isSome then s.cmdFail 0x181 0
    else ({ s with seq := { s.seq with operator := some (ofBytes 384 r.payload) } } : State).cmdDone 0)

/-- RAISE_FLOOR (R49). -/
def execRaiseFloor (s : State) : Out :=
  .next (s.command 0x109 (fun b => b.length == 8 && zeroBytes b 4 4) fun s r =>
    let n := leAt r.payload 0 4
    if n < s.seq.floor.toNat then s.cmdFail 0x182 0
    else ({ s with seq := { s.seq with floor := BitVec.ofNat 32 n } } : State).cmdDone n)

/-- The pairing ends cleanly, and PAIR_STATUS reads UNPAIRED. -/
def State.clearPairing (s : State) : State :=
  let s := if s.mirror.st == 2 then s.breakPair 0 else s
  s.modMirror fun g => { g with
    st := 0, did := 0, partner := 0, gen := 0, byLoss := false, mac := [], heard := [] }

/-- SET_PAIRING (R391, R392). -/
def execSetPairing (s : State) : Out :=
  .next (s.command 0x10A (fun b => b.length == 8 && decide (leAt b 6 1 ≤ 1) && zeroBytes b 7 1) fun s r =>
    let did := leAt r.payload 0 2
    let partner := leAt r.payload 2 2
    if leAt r.payload 6 1 == 1 then s.clearPairing.cmdDone 0
    else if did == partner || 0xFFF < did || 0xFFF < partner then s.cmdFail codeFieldInvalid 0
    else (s.setPairing (BitVec.ofNat 12 did) (BitVec.ofNat 12 partner) (BitVec.ofNat 16 (leAt r.payload 4 2))).cmdDone 0)

/-- PLOG_ACK (R451): the slots marked are acknowledged; with CLEAR every acknowledged slot becomes empty. -/
def execPlogAck (s : State) : Out :=
  .next (s.command 0x10B (fun b => b.length == 40 && decide (leAt b 32 1 ≤ 1) && zeroBytes b 33 7) fun s r =>
    let marks : BitVec 256 := ofBytes 256 (r.payload.take 32)
    let new := (s.fc.plog.filter fun e => marks.getLsbD e.1 && !e.2.acked).length
    let log := s.fc.plog.map fun e => if marks.getLsbD e.1 then (e.1, { e.2 with acked := true }) else e
    let log := if leAt r.payload 32 1 == 1 then log.filter fun e => !e.2.acked else log
    ({ s with fc := { s.fc with plog := log } } : State).cmdDone new)

/-- SET_MKEY (R478): applies to every frame after the response; the event of its end is such a frame. -/
def execSetMkey (s : State) : Out :=
  .next (s.command 0x10C (fun b => b.length == 48) fun s r =>
    let mask := hmac384 s.mkey ([0x42, 0x52, 0x49, 0x58, 0x4D, 0x45, 0x4E, 0x2D, 0x52, 0x45, 0x4B, 0x45, 0x59] ++ leBytes 8 r.stamp)
    let key := List.zipWith (· ^^^ ·) r.payload mask
    ({ s with mgmt := { s.mgmt with key := some (ofBytes 384 key) } } : State).cmdDone 0)

/-- SUBSCRIBE (R479). -/
def execSubscribe (s : State) : Out :=
  .next (s.command 0x10D (fun b => b.length == 8 && zeroBytes b 6 2) fun s r =>
    ({ s with mgmt := { s.mgmt with dest := (BitVec.ofNat 32 (leAt r.payload 0 4), leAt r.payload 4 2) } } : State).cmdDone 0)

/-- SET_NET (R471). -/
def execSetNet (s : State) : Out :=
  .next (s.command 0x10E (fun b => b.length == 8 && decide (8 ≤ leAt b 4 1 ∧ leAt b 4 1 ≤ 30) && zeroBytes b 5 3) fun s r =>
    ({ s with mgmt := { s.mgmt with
        ip := BitVec.ofNat 32 (leAt r.payload 0 4), plen := leAt r.payload 4 1 } } : State).cmdDone 0)

end Sys2Proof.Machine
end

