-- ==== Sys2Proof/Machine/Coherence.lean ====
section
/-! DEFINITION. The messages of Table 8-2 as they arrive at homes and at L2 caches (R229–R258). -/

namespace Sys2Proof.Machine

/-- A request reaches its home, or the fence of a lost base die (R445). A base die's uncore is no switched domain and has no
door: while a row holds it stopped the request waits there, without power or in reset it answers DOMAIN_OFF (DESIGN CHOICE,
notes/assumptions/54.md). -/
def State.homeReq (s : State) (m : Instr) : State :=
  match reqInfo m with
  | none => s
  | some (h, line, wl) =>
    match s.locate line with
    | none => s
    | some p =>
      if s.isFenced (1400 + p.base) then (s.withdraw h line wl).send (.err h (64 * line) 6)
      else if s.runs (baseUncore p.base) then s.homeArrive m
      else
        let x := s.dom (baseUncore p.base)
        if x.inReset || x.st == .off || x.st == .retained then (s.withdraw h line wl).send (.err h (64 * line) 3)
        else s.holdAt (baseUncore p.base) m

/-! ### Requests at the home -/

/-- RDS (R241, R210). -/
def execRds (h : Hdr) (line : Nat) (shared : Bool) (hash : Option (BitVec 10)) (s : State) : Out :=
  onArrival (hdrOk h && lineOk line) (.rds h line shared hash) s fun s =>
    (s.slicePrefetch h line hash).homeReq (.rds h line shared hash)

/-- RDX (R241, R210). -/
def execRdx (h : Hdr) (line : Nat) (hash : Option (BitVec 10)) (s : State) : Out :=
  onArrival (hdrOk h && lineOk line) (.rdx h line hash) s fun s =>
    (s.slicePrefetch h line hash).homeReq (.rdx h line hash)

/-- UPG (R241, R246). -/
def execUpg (h : Hdr) (line : Nat) (s : State) : Out :=
  onArrival (hdrOk h && lineOk line) (.upg h line) s fun s => s.homeReq (.upg h line)

/-- CLAIM (R241). -/
def execClaim (h : Hdr) (line : Nat) (s : State) : Out :=
  onArrival (hdrOk h && lineOk line) (.claim h line) s fun s => s.homeReq (.claim h line)

/-- ATOM (R252, R253). -/
def execAtom (h : Hdr) (pa : Nat) (a : AtomOp) (s : State) : Out :=
  onArrival (hdrOk h && paOk pa) (.atom h pa a) s fun s => s.homeReq (.atom h pa a)

/-- WBREQ (R241, R246). -/
def execWbreq (h : Hdr) (line : Nat) (s : State) : Out :=
  onArrival (hdrOk h && lineOk line) (.wbreq h line) s fun s => s.homeReq (.wbreq h line)

/-- OFFER (R213). -/
def execOffer (h : Hdr) (line : Nat) (s : State) : Out :=
  onArrival (hdrOk h && lineOk line) (.offer h line) s fun s => s.homeReq (.offer h line)

/-- DROP (R247). -/
def execDrop (h : Hdr) (line : Nat) (s : State) : Out :=
  onArrival (hdrOk h && lineOk line) (.drop h line) s fun s => s.homeReq (.drop h line)

/-- CWBREQ (R215, R241). -/
def execCwbreq (h : Hdr) (line : Nat) (s : State) : Out :=
  onArrival (hdrOk h && lineOk line) (.cwbreq h line) s fun s => s.homeReq (.cwbreq h line)

/-- CFLREQ (R215, R241). -/
def execCflreq (h : Hdr) (line : Nat) (s : State) : Out :=
  onArrival (hdrOk h && lineOk line) (.cflreq h line) s fun s => s.homeReq (.cflreq h line)

/-- HAZERD (R248): answered without admission. -/
def execHazerd (h : Hdr) (line : Nat) (s : State) : Out :=
  onArrival (hdrOk h && lineOk line) (.hazerd h line) s fun s =>
    match s.locate line with
    | some p => if s.isFenced (1400 + p.base) then s.send (.err h (64 * line) 6) else s.hazeAnswer h line
    | none => s

/-- ORDER_GRANT_OBSERVED (R239, R240, R283). -/
def execOrderGrantObserved (lostAt : Option Nat) (s : State) : Out := .next (s.grantToken lostAt)

/-! ### Snoops at the holder -/

/-- SNPS (R245). -/
def execSnps (req : Hdr) (holder line : Nat) (s : State) : Out :=
  onArrival (hdrOk req && coreOk holder && lineOk line) (.snps req holder line) s fun s => s.snoopArrive 1 req holder line

/-- SNPX (R245). -/
def execSnpx (req : Hdr) (holder line : Nat) (s : State) : Out :=
  onArrival (hdrOk req && coreOk holder && lineOk line) (.snpx req holder line) s fun s => s.snoopArrive 2 req holder line

/-- SNPINV (R245). -/
def execSnpinv (req : Hdr) (holder line : Nat) (s : State) : Out :=
  onArrival (hdrOk req && coreOk holder && lineOk line) (.snpinv req holder line) s fun s => s.snoopArrive 3 req holder line

/-- SNPCUR (R245). -/
def execSnpcur (req : Hdr) (holder line : Nat) (s : State) : Out :=
  onArrival (hdrOk req && coreOk holder && lineOk line) (.snpcur req holder line) s fun s => s.snoopArrive 4 req holder line

/-- SNPFLUSH (R245). -/
def execSnpflush (req : Hdr) (holder line : Nat) (s : State) : Out :=
  onArrival (hdrOk req && coreOk holder && lineOk line) (.snpflush req holder line) s fun s => s.snoopArrive 5 req holder line

/-- SNPCLEAN (R245). -/
def execSnpclean (req : Hdr) (holder line : Nat) (s : State) : Out :=
  onArrival (hdrOk req && coreOk holder && lineOk line) (.snpclean req holder line) s fun s => s.snoopArrive 6 req holder line

/-! ### Answers at the home -/

/-- ACKI (R245): the holder is now I. -/
def execAcki (holder line : Nat) (s : State) : Out :=
  onArrival (coreOk holder && lineOk line) (.acki holder line) s fun s => s.snoopAnswered holder line ⟨.i, none, true, false⟩

/-- ACKS (R245): the holder is now S. -/
def execAcks (holder line : Nat) (s : State) : Out :=
  onArrival (coreOk holder && lineOk line) (.acks holder line) s fun s => s.snoopAnswered holder line ⟨.s, none, true, false⟩

/-- ACKE (R245): the holder is now E. -/
def execAcke (holder line : Nat) (s : State) : Out :=
  onArrival (coreOk holder && lineOk line) (.acke holder line) s fun s => s.snoopAnswered holder line ⟨.e, none, true, false⟩

/-- ACKO (R245): the holder is now O. -/
def execAcko (holder line : Nat) (s : State) : Out :=
  onArrival (coreOk holder && lineOk line) (.acko holder line) s fun s => s.snoopAnswered holder line ⟨.o, none, true, false⟩

/-- NOTPRESENT (R245): the holder has no copy. -/
def execNotpresent (holder line : Nat) (s : State) : Out :=
  onArrival (coreOk holder && lineOk line) (.notpresent holder line) s fun s => s.snoopAnswered holder line ⟨.i, none, false, false⟩

/-- SNPDATA (R245): the answer brings the newest data. -/
def execSnpdata (holder line : Nat) (d : LineData) (st : L2St) (s : State) : Out :=
  onArrival (coreOk holder && lineOk line) (.snpdata holder line d st) s fun s =>
    s.snoopAnswered holder line ⟨st, some d, true, false⟩

/-- Whether the transaction of a line runs for a request. -/
def State.runsFor (s : State) (h : Hdr) (line : Nat) : Bool :=
  (s.txnAt line).any fun t => (hdrOf t.req).node == h.node && (hdrOf t.req).tag == h.tag

/-- A CmpAck ends the wait for it, or is kept while the transaction still waits for a snoop answer (R241). -/
def State.grantAcked (s : State) (line : Nat) : State :=
  match s.txnAt line with
  | some t =>
    match t.plan with
    | .await 1 :: _ => s.resume line 1 id
    | _ => s.setTxn line { t with acked := true }
  | none => s

/-- CMPACK (R241): the grant has been received and the transaction ends. -/
def execCmpack (h : Hdr) (line : Nat) (s : State) : Out :=
  onArrival (hdrOk h && lineOk line) (.cmpack h line) s fun s =>
    if s.runsFor h line then s.grantAcked line else s

/-- WBDATA (R212). -/
def execWbdata (h : Hdr) (line : Nat) (d : LineData) (s : State) : Out :=
  onArrival (hdrOk h && lineOk line) (.wbdata h line d) s fun s =>
    if s.runsFor h line then s.resume line 2 fun t => { t with data := some d, fresh := true } else s

/-- OFFERDATA (R212). -/
def execOfferdata (h : Hdr) (line : Nat) (d : LineData) (s : State) : Out :=
  onArrival (hdrOk h && lineOk line) (.offerdata h line d) s fun s =>
    if s.runsFor h line then s.resume line 2 fun t => { t with data := some d, fresh := true } else s

/-- HOME_SNOOP_TIMEOUT (R258). -/
def execHomeSnoopTimeout (line holder : Nat) (s : State) : Out :=
  onWf (lineOk line && coreOk holder) (s.snoopTimeout line holder)

/-- HOME_WAIT_EXPIRED (R278). -/
def execHomeWaitExpired (line : Nat) (s : State) : Out := onWf (lineOk line) (s.waitExpired line)

/-! ### Answers at the L2 -/

/-- A writeback response reaches the L2: late ones are counted (R276). -/
def State.evictAnswer (s : State) (h : Hdr) (f : State → State) : State :=
  if s.isLate h then s.lateResponse h else f s

/-- GO (R242). -/
def execGo (h : Hdr) (line : Nat) (s : State) : Out :=
  onArrival (hdrOk h && lineOk line) (.go h line) s fun s => s.goGrant h line

/-- WBGO (R212): WbData leaves from the evict-pending buffer. -/
def execWbgo (h : Hdr) (line : Nat) (s : State) : Out :=
  onArrival (hdrOk h && lineOk line) (.wbgo h line) s fun s =>
    s.evictAnswer h fun s =>
      match (s.core h.node).evict.find? fun b => b.line == line && b.tag == h.tag with
      | some b =>
        (s.stat h.node fun x => { x with wrBytes := x.wrBytes + 64 }).send (.wbdata h line ⟨b.bytes, b.poison⟩)
      | none => s

/-- WBCANCEL (R245): the buffer is free. -/
def execWbcancel (h : Hdr) (line : Nat) (s : State) : Out :=
  onArrival (hdrOk h && lineOk line) (.wbcancel h line) s fun s => s.evictAnswer h fun s => s.freeEvict h line

/-- ACCEPT (R212): OfferData leaves and the buffer is free. -/
def execAccept (h : Hdr) (line : Nat) (s : State) : Out :=
  onArrival (hdrOk h && lineOk line) (.accept h line) s fun s =>
    s.evictAnswer h fun s =>
      match (s.core h.node).evict.find? fun b => b.line == line && b.tag == h.tag with
      | some b =>
        ((s.stat h.node fun x => { x with wrBytes := x.wrBytes + 64 }).send
          (.offerdata h line ⟨b.bytes, b.poison⟩)).freeEvict h line
      | none => s

/-- DECLINE (R212): the line is dropped. -/
def execDecline (h : Hdr) (line : Nat) (s : State) : Out :=
  onArrival (hdrOk h && lineOk line) (.decline h line) s fun s => s.evictAnswer h fun s => s.freeEvict h line

/-- ACCEPTHELD (R213): the slice already holds the line. -/
def execAcceptheld (h : Hdr) (line : Nat) (s : State) : Out :=
  onArrival (hdrOk h && lineOk line) (.acceptheld h line) s fun s => s.evictAnswer h fun s => s.freeEvict h line

/-- A Haze entry takes the answer to its read (R156). The answer to an entry that has been freed is dropped; one whose user
has been proven meanwhile takes the coherently read bytes (R157). -/
def State.hazeTake (s : State) (h : Hdr) (line : Nat) (d : Option LineData) : State :=
  if s.isLate h then s.lateResponse h
  else if s.current h then
    (s.finish h).modCore h.node fun c =>
      { c with haze := c.haze.map fun e =>
          if e.line == line && !e.promoted then { e with data := d, refused := d.isNone } else e }
  else s

/-- HAZENO (R156). -/
def execHazeno (h : Hdr) (line : Nat) (s : State) : Out :=
  onArrival (hdrOk h && lineOk line) (.hazeno h line) s fun s => s.hazeTake h line none

/-- HAZEDATA (R156). -/
def execHazedata (h : Hdr) (line : Nat) (d : LineData) (s : State) : Out :=
  onArrival (hdrOk h && lineOk line) (.hazedata h line d) s fun s =>
    (s.countRead h.node).hazeTake h line (some d)

/-- DATAS (R242). -/
def execDatas (h : Hdr) (line : Nat) (d : LineData) (s : State) : Out :=
  onArrival (hdrOk h && lineOk line) (.datas h line d) s fun s => s.dataGrant h line .s true d

/-- DATAE (R242). -/
def execDatae (h : Hdr) (line : Nat) (d : LineData) (s : State) : Out :=
  onArrival (hdrOk h && lineOk line) (.datae h line d) s fun s => s.dataGrant h line .e true d

/-- DATAM (R242): Go is included. -/
def execDatam (h : Hdr) (line : Nat) (d : LineData) (s : State) : Out :=
  onArrival (hdrOk h && lineOk line) (.datam h line d) s fun s => s.dataGrant h line .m true d

/-- FWDS (R242). -/
def execFwds (h : Hdr) (line : Nat) (d : LineData) (s : State) : Out :=
  onArrival (hdrOk h && lineOk line) (.fwds h line d) s fun s => s.dataGrant h line .s true d

/-- FWDM (R242): ownership comes with Go. -/
def execFwdm (h : Hdr) (line : Nat) (d : LineData) (s : State) : Out :=
  onArrival (hdrOk h && lineOk line) (.fwdm h line d) s fun s => s.dataGrant h line .m false d

end Sys2Proof.Machine
end

