-- ==== Sys2Proof/Machine/Device.lean ====
section
/-! DEFINITION. Requests that a home or, in device space, a register node or the guest port serves (R28–R30, R249, R376): RdCur,
WrLine, WrPart, and a register write with no row of its own. -/

namespace Sys2Proof.Machine

/-- The bytes that a partial write names when they lie together: offset in the line, count; none where they do not. -/
def partSpan (p : Part) : Option (Nat × Nat) :=
  match lowest (fun i => p.mask.getLsbD i) 32 with
  | none => none
  | some i =>
    let n := popcount p.mask.toNat 32
    if p.mask.toNat == (2 ^ n - 1) * 2 ^ i then some (p.offset.toNat + i, n) else none

/-- What an access to a register does, with its answer: 64 bytes for RdCur and WrLine, which no register has (R30); the bytes
of a WrPart, as the width that their count is. `again` is the request, which waits while the write's response does. -/
def State.regReq (s : State) (h : Hdr) (line : Nat) (op : GuestOp) (again : Instr) : State :=
  let pa := 64 * line
  let answer (a n : Nat) (wr : Option Word) : State :=
    let ((e, _), t) := s.regAccess h.tid a n wr
    if e != 0 then t.send (.err h a (BitVec.ofNat 16 e))
    else if t.regPends a wr then t.send again
    else t.send (.cmp h line)
  match op with
  | .rd => answer pa 64 none
  | .wr _ => answer pa 64 (some 0)
  | .wrp p =>
    match partSpan p with
    | some (o, n) => answer (pa + o) n (some ((p.data >>> (8 * (o - p.offset.toNat))).setWidth 64))
    | none => answer pa 32 (some 0)

/-- A request of an engine for a line of device space reaches its register node, or the guest port (R29, R376). -/
def State.deviceReq (s : State) (h : Hdr) (line : Nat) (op : GuestOp) (again : Instr) : State :=
  if isGuestWindow (64 * line) then s.guestWindow h (64 * line - 0xF100000000000) op else s.regReq h line op again

/-- A request goes to the line's home, or where its address lies in device space, to the node that serves it. -/
def State.served (s : State) (h : Hdr) (line : Nat) (op : GuestOp) (m : Instr) : State :=
  if isDevice (64 * line) then s.deviceReq h line op m else s.homeReq m

/-- RDCUR (R241, R249). -/
def execRdcur (h : Hdr) (line : Nat) (s : State) : Out :=
  onArrival (hdrOk h && lineOk line) (.rdcur h line) s fun s => s.served h line .rd (.rdcur h line)

/-- WRLINE (R249). -/
def execWrline (h : Hdr) (line : Nat) (d : LineData) (s : State) : Out :=
  onArrival (hdrOk h && lineOk line) (.wrline h line d) s fun s => s.served h line (.wr d) (.wrline h line d)

/-- WRPART (R249). -/
def execWrpart (h : Hdr) (line : Nat) (p : Part) (s : State) : Out :=
  onArrival (hdrOk h && lineOk line) (.wrpart h line p) s fun s => s.served h line (.wrp p) (.wrpart h line p)

/-- REGISTER_WRITE (R28, R30, R31): a register write of an initiator that has no row of its own. A refused one is answered Err
to its node; the header's tag 256 stands for no tag. -/
def execRegisterWrite (node : Nat) (tid : BitVec 12) (pa : Nat) (wide : Bool) (v : Word) (s : State) : Out :=
  onWf (nodeOk node && paOk pa)
    (let ((e, _), s) := s.regAccess tid pa (if wide then 8 else 4) (some v)
     if e == 0 then s else s.send (.err ⟨node, 256, 0, tid, 0⟩ pa (BitVec.ofNat 16 e)))

end Sys2Proof.Machine
end

