-- ==== Sys2Proof/Machine/EnclaveOps.lean ====
section
/-! DEFINITION. The enclave gateway on the cores: ENTER, EXIT, resume, the acknowledgement of a save area, forced exits and
the seed reservoir (R129–R131, R201, R339–R343, R351). -/

namespace Sys2Proof.Machine

/-- GATE with any operand (Table 4-8). -/
def isGateWord (w : Nat) : Bool := w / 2 ^ 16 == 0xFD00

/-- The entry of an enclave with a target and a gate number (R339). -/
def Enclave.gateEntry (x : Enclave) (target : Word) (gate : BitVec 16) : Option (Nat × Entry) :=
  x.entries.find? fun e => e.2.target == target && e.2.gate == gate

/-- ENTER (R129, R340): the checks of the core; the security block makes the last. -/
def execEnter (c : Nat) (opnd : BitVec 16) (s : State) : Out :=
  onWf (coreOk c) (s.coreStep c fun x => do
    let k := fld opnd 0 5
    legal (fld opnd 5 11 == 0 && k % 2 == 0)
    let target ← slotRead x k
    let eid : BitVec 10 := (← slotRead x (k + 1)).setWidth 10
    if x.em then raise 0x53
    else
      let e := (← get).enclave eid.toNat
      if e.st == .evicted then raise 0x52
      else if e.st != .ready then raise 0x50 target
      else
        let (t, _) ← translateRaw x .fetch target
        if fld target 0 2 != 0 then raise 0x04 target
        else
          match ← readLine x (t.pa / 64) t.uc .instr with
          | .inr _ => raise 0x08 target
          | .inl d =>
            let w := lineBytes d (t.pa % 64) 4
            let s ← get
            if d.poison then raise 0x40 target
            else if !isGateWord w then raise 0x50 target
            else if (s.core x.g).reservoir.isEmpty then waitNow
            else
              let gate : BitVec 16 := BitVec.ofNat 16 w
              set ((s.modCore x.g fun c => { c with stall := .gate eid target gate t.pa }).send (.gateCheck x.g eid target gate))
              pure none)

/-- The words of a saved line. -/
def wordAt (d : Line) (i : Nat) : Word := d.extractLsb' (64 * i) 64

/-- What an entry and a resume have in common: the registers of the gateway, EM, EID, the fresh seeds (R201) and the context
switch. -/
def Core.gateIn (c : Core) (eid entry : Nat) : Core :=
  let c := ((c.setReg 0x101 (c.p + 4)).setReg 0x102 c.f).setReg 0x100 (BitVec.ofNat 64 (1024 + eid))
  let c := match c.reservoir with
    | (a, b, d) :: r => { c with lfsrI := a, lfsrC := b, lfsr2 := d, reservoir := r }
    | [] => c
  { c with sw := setBit c.sw 2 true, enterAt := c.p, entry := entry }

/-- The entry is IDLE: the core enters (R129). -/
def Core.enterIdle (c : Core) (eid entry : Nat) (n : Entry) : Core :=
  let l := c.p + 4
  let c := c.gateIn eid entry
  { c with l := l, f := setFld n.frame 0 3 0 }.contextSwitch

/-- The entry is INTERRUPTED: the core resumes from the two lines of the save area (R343). -/
def Core.enterResumed (c : Core) (eid entry : Nat) (a b : Line) : Core :=
  let c := c.gateIn eid entry
  { c with a := wordAt a 2, x := wordAt a 3, y := wordAt a 4, l := wordAt a 5, f := setFld (wordAt a 6) 0 3 0,
           va := b.extractLsb' 0 256 }.contextSwitch

/-- The run state of an entry changes. -/
def State.setEntry (s : State) (e i : Nat) (r : EntryRun) : State :=
  let x := s.enclave e
  match tfind? x.entries i with
  | some n => s.setEnclave e { x with entries := tput x.entries i { n with run := r } }
  | none => s

/-- An ENTER that waited for its check ends with an exception. -/
def State.gateFails (s : State) (c code : Nat) (addr : Word) : State :=
  let k := s.core c
  (s.setCore c { k with stall := .none }).takeExc c k.seenSw { code := code, addr := addr }

/-- An ENTER completes at its target's next instruction, or at the restart address of a resume. -/
def State.gatePasses (s : State) (c : Nat) (k : Core) (p : Word) : State :=
  let old := s.core c
  (s.setCore c { k with stall := .none }).retire c old.seenSw old.idx p

/-- Core c reads a line of a save area with RdCur, if it does not yet (R249). -/
def State.askSave (s : State) (c line : Nat) : State :=
  let k := s.core c
  if k.waits line || k.cur.any fun e => e.1 == line then s
  else
    match s.coreIssue c fun h => .rdcur h line with
    | some (h, s) => s.modCore c fun k => { k with txns := k.txns ++ [⟨h.tag, line, 5, none, false, false, .none⟩] }
    | none => s

/-- The security block's check, and what the core then does (R340, R343). An INTERRUPTED entry is resumed once the two lines
of its save area have been read; the request comes again until then. -/
def State.gateCheck (s : State) (c eid : Nat) (target : Word) (gate : BitVec 16) (pa : Nat) : State :=
  let e := s.enclave eid
  let k := s.core c
  if e.st == .evicted then s.gateFails c 0x52 0
  else if e.st != .ready then s.gateFails c 0x50 target
  else
    match e.gateEntry target gate with
    | none => s.gateFails c 0x50 target
    | some (i, n) =>
      if s.ownerOf pa != some eid then s.gateFails c 0x50 target
      else
        match n.run with
        | .running _ => s.gateFails c 0x50 target
        | .idle => (s.setEntry eid i (.running c)).gatePasses c (k.enterIdle eid i n) (target + 4)
        | .interrupted =>
          let l := n.save / 64
          if k.errs.any fun e => e.1 == l || e.1 == l + 1 then (s.evictEnclave eid).gateFails c 0x52 0
          else
            match k.cur.find? (fun e => e.1 == l), k.cur.find? fun e => e.1 == l + 1 with
            | some (_, a), some (_, b) =>
              if a.poison || b.poison || byteOf a.bytes 0 != 1 then (s.evictEnclave eid).gateFails c 0x52 0
              else (s.setEntry eid i (.running c)).gatePasses c (k.enterResumed eid i a.bytes b.bytes) (wordAt a.bytes 1)
            | _, _ =>
              ((s.askSave c l).askSave c (l + 1)).send (.gateCheck c (BitVec.ofNat 10 eid) target gate)

/-- GATE_CHECK (R340): the request of the core's ENTER reaches the security block. -/
def execGateCheck (c : Nat) (eid : BitVec 10) (target : Word) (gate : BitVec 16) (s : State) : Out :=
  onArrival (coreOk c) (.gateCheck c eid target gate) s fun s =>
    match (s.core c).stall with
    | .gate e t g pa =>
      if e == eid && t == target && g == gate && s.coreRuns c then s.gateCheck c eid.toNat target gate pa else s
    | _ => s

/-- What EXIT does to the core (R130, R341); `status` is what ENC_STATUS takes. -/
def Core.gateOut (c : Core) (status : Nat) : Core :=
  let f := c.reg 0x102
  let c := ((c.setReg 0x103 (BitVec.ofNat 64 (status + c.eid * 2 ^ 16 + c.entry))).setReg 0x100 0)
  { c with y := 0, va := 0, f := setFld f 0 3 0, sw := setBit c.sw 2 false, forced := false }.contextSwitch

/-- The entry that a core runs becomes IDLE. -/
def State.leaveEntry (s : State) (c : Nat) : State := s.setEntry (s.core c).eid (s.core c).entry .idle

/-- EXIT (R130, R341). It counts as a retired normal-world instruction (R164). -/
def execExit (c : Nat) (opnd : BitVec 16) (s : State) : Out :=
  onWf (coreOk c) (s.coreStep c fun x => do
    legal (opnd == 0)
    if !x.em then raise 0x54
    else
      let p := ((← get).core x.g).reg 0x101
      modify fun s => ((((s.leaveEntry x.g).modCore x.g fun c => c.gateOut 0).hazeFlush x.g).event x.g (setBit x.sw 2 false)
        0x001).releaseCuts
      pure (some p))

/-- FORCED_EXIT (R351): as EXIT, with A, X and L also 0. -/
def execForcedExit (c : Nat) (s : State) : Out :=
  onWf (coreOk c)
    (let k := s.core c
     if !s.coreRuns c || !k.forced || k.stall != .none || !(k.run == .running || k.run == .wfi) then s
     else if !swEm k.sw then s.setCore c { k with forced := false }
     else
       ((s.leaveEntry c).modCore c fun k =>
         { (k.gateOut (2 ^ 63)) with a := 0, x := 0, l := 0, p := k.reg 0x101, run := .running, stepDue := false, storeErr := none }).releaseCuts)

/-- SAVE_AREA_ACKED (R342): the entry that the core left becomes INTERRUPTED, unless its enclave has been evicted. -/
def execSaveAreaAcked (c : Nat) (s : State) : Out :=
  onArrival (coreOk c) (.saveAreaAcked c) s fun s =>
    let k := s.core c
    let left (e i : Nat) : Bool := !(swEm k.sw && k.eid == e && k.entry == i)
    let enclaves := s.sec.enclaves.map fun e =>
      (e.1, { e.2 with entries := e.2.entries.map fun n =>
        (n.1, if n.2.run == .running c && left e.1 n.1 then
            { n.2 with run := if e.2.st == .evicted then .idle else .interrupted }
          else n.2) })
    { s with sec := { s.sec with enclaves := enclaves } }.releaseCuts

/-- SEED_TRIPLE_REFILL (R201): fresh seeds are never 0; the triple is a request of the DRBG (R344). -/
def execSeedTripleRefill (c : Nat) (l1i core l2 : BitVec 16) (s : State) : Out :=
  onWf (coreOk c)
    (if (s.core c).reservoir.length < 4 && l1i != 0 && core != 0 && l2 != 0 then
       ({ s with sec := s.sec.draw } : State).modCore c fun k => { k with reservoir := k.reservoir ++ [(l1i, core, l2)] }
     else s)

end Sys2Proof.Machine
end

