-- ==== Sys2Proof/Machine/TenantOps.lean ====
section
/-! DEFINITION. TSWITCH: the push of the old tenant's vectors, the residency update, and the pull of the new tenant's
(R316, R322). -/

namespace Sys2Proof.Machine

/-- The table line of a group of a tenant, at a core's PIT_BASE (R316). -/
def Core.pitLine (c : Core) (t : BitVec 12) (g : Nat) : Nat :=
  (fld (c.reg 0x82) 21 31 * 2 ^ 21 + 512 * t.toNat + 64 * g) / 64

/-- Vectors of a tenant are lost at an address (R322). -/
def State.vectorsLost (s : State) (c : Nat) (t : BitVec 12) (pa : Nat) : State :=
  (s.setTenant t { s.tenant t with lost := true }).fault (s.coreSrc c) 0x43 (some t) pa

/-- Bytes of 0x01 for 32 vectors of a group's word, from bit `lo`. -/
def vectorBytes (w : Word) (lo : Nat) : BitVec 256 × BitVec 32 :=
  ((List.range 32).foldl (fun l i => if bit w (lo + i) then l ||| BitVec.ofNat 256 (2 ^ (8 * i)) else l) 0,
   BitVec.ofNat 32 (fld w lo 32))

/-- The push of a group: a byte store of 0x01 for every pending vector, under the direct regime, through the store buffer
(R322 step 3, R168). DESIGN CHOICE (log 51): the byte stores to one half of a line share a store-buffer entry. -/
def pushGroup (x : Ctx) (c : Core) (t : BitVec 12) (g : Nat) : List SbEntry :=
  let w := c.reg (0x84 + g)
  [0, 32].filterMap fun lo =>
    let b := vectorBytes w lo
    if b.2 == 0 then none
    else
      some { pa := 64 * c.pitLine t g + lo, data := b.1, mask := b.2, uncached := false, sent := false, tid := c.tid,
             hash := none, va := BitVec.ofNat 64 (64 * c.pitLine t g + lo), pc := x.pc }

/-- TSWITCH (R322): steps 1 to 4. The residency update leaves once the pushes are visible. -/
def execTswitch (c : Nat) (opnd : BitVec 16) (s : State) : Out :=
  onWf (coreOk c) (s.coreStep c fun x => do
    let v ← slotOperand x opnd 2
    drained x
    let s ← get
    let k := s.core x.g
    let old := k.tid
    let new : BitVec 12 := v.setWidth 12
    let es := ((List.range 8).map fun g => pushGroup x k old g).flatten
    set (s.modCore x.g fun c =>
      { (List.range 8).foldl (fun c g => c.setReg (0x84 + g) 0) c with sb := es, stall := .tpush old new })
    modify fun s => s.storesGo x.g
    pure none)

/-- The vectors of one word of a group: one bit for each non-zero byte. -/
def wordVectors (w : Word) : Nat :=
  (List.range 8).foldl (fun a b => if fld w (8 * b) 8 == 0 then a else a + 2 ^ b) 0

/-- The pulls of TSWITCH have ended: the held deliveries are compared and released, and TSWITCH completes (R322 step 7). -/
def State.pullsDone (s : State) (c : Nat) : State :=
  let held := (s.core c).heldDel
  let s := s.modCore c fun k => { k with heldDel := [], stall := .none }.contextSwitch
  let s := held.foldl (fun s m => s.compareDelivery c m.1 m.2) s
  (s.hazeFlush c).finishStall c

/-- One pull has been answered, with its old word or none where it was lost; with the last, TSWITCH goes on (R322 step 6). -/
def State.pulled (s : State) (c tag : Nat) (w : Option Word) : State :=
  let k := s.core c
  match k.stall with
  | .tswitch old new pulls =>
    match pulls.find? fun p => p.1 == tag with
    | none => s
    | some (_, i) =>
      let rest := pulls.filter fun p => p.1 != tag
      let n := 0x84 + i / 8
      let s := match w with
        | some w => s.modCore c fun k => k.setReg n (k.reg n ||| BitVec.ofNat 64 (wordVectors w * 2 ^ (8 * (i % 8))))
        | none => s.vectorsLost c new (64 * k.pitLine new (i / 8) + 8 * (i % 8))
      let s := s.modCore c fun k => { k with stall := .tswitch old new rest }
      if rest.isEmpty then s.pullsDone c else s
  | _ => s

/-- The pull of one word: an atomic that swaps it with 0 (R322 step 6, R316). -/
def State.pullWord (s : State) (c : Nat) (new : BitVec 12) (i : Nat) : State :=
  let k := s.core c
  let a : AtomOp := { op := 1, wide := false, order := 0, uncached := !k.l2On, operand := 0, compare := 0, poison := false }
  match k.stall, s.coreIssue c fun h => .atom h (64 * k.pitLine new (i / 8) + 8 * (i % 8)) a with
  | .tswitch old n l, some (h, s) => s.modCore c fun k => { k with stall := .tswitch old n (l ++ [(h.tag, i)]) }
  | _, _ => s

/-- RESIDENCY_ANSWER (R322): the class, then the pulls. The answer comes again while too few tags are free. -/
def execResidencyAnswer (c : Nat) (cls : BitVec 3) (mask : BitVec 8) (s : State) : Out :=
  onArrival (coreOk c) (.residencyAnswer c cls mask) s fun s =>
    match (s.core c).stall with
    | .tswitch _ new [] =>
      let words := (List.range 64).filter fun i => bit mask (i / 8)
      if s.tagsLeft c < words.length then s.send (.residencyAnswer c cls mask)
      else
        let s := s.modCore c fun k => k.setNow srQos (cls.setWidth 64)
        let s := words.foldl (fun s i => s.pullWord c new i) s
        if words.isEmpty then s.pullsDone c else s
    | _ => s

end Sys2Proof.Machine
end

