-- ==== Sys2Proof/Machine/Answers.lean ====
section
/-! DEFINITION. Responses as they reach whoever asked (R21, R22, R249, R254, R269, R275–R277), and doors as they answer
(R416). -/

namespace Sys2Proof.Machine

/-- A home's node. -/
def isHomeNode (node : Nat) : Bool := decide (0x240 ≤ node) && decide (node < 0x3C0)

/-- SOURCE of an initiator (Table 9-1, Table 17-2). -/
def State.nodeSource (s : State) (node : Nat) : BitVec 16 :=
  if node < 576 then s.coreSrc node
  else if node < 0x3C0 then sliceSrc (node - 0x240)
  else if 0x3CC ≤ node ∧ node < 0x3D4 then srcCode 0 0 (8 + (node - 0x3CC))
  else if node < 0x3D6 then srcCode 0 0 (0x10 + (node - 0x3D4))
  else if node < 0x3DA then srcCode 0 0 (0x12 + (node - 0x3D6))
  else if node == 0x3DA then srcCode 0 0 0x16
  else if node == 0x3DB then srcCode 0 0 0x17
  else if node == 0x3EE then srcCode 0 0 5
  else srcCode 0 0 0

/-! ### What a finished read or write starts -/

/-- A read of memory has everything (R249). -/
def State.readDone (s : State) (fabricTag : Nat) (r : Reader) : State :=
  match r.why with
  | .job _ | .map _ | .block _ => s.laneGot r.why r.got
  | .guest tag => s.guestRead tag fabricTag (some r.got) 0
  | .mtRecord => s.mtAdd r.got
  | .capture m k n i => s.captured m k n i r.got
  | .routerRecord t => s.routerRecorded t r.got
  | .steward q => s.answerReg q 0 (ofBytes 64 r.got)
  | .wardenReq => s.wardenRecord r.got
  | .wardenRanges e => s.createRanges e r.got
  | .wardenPage e dst b => s.pageRead e dst b r.got
  | .wardenReport e dst => s.reportRead e dst r.got
  | _ => s.qpRead r.why r.got

/-- A read of memory has failed with a code, 0 for poison (R269, R302). -/
def State.readFailed (s : State) (fabricTag : Nat) (r : Reader) (code pa : Nat) : State :=
  match r.why with
  | .job _ | .map _ | .block _ => s.laneBad r.why code pa
  | .guest tag => s.guestRead tag fabricTag none code
  | .mtRecord => s.mtFail (if code == 0 then codePoisoned else memFail code)
  | .capture m _ _ _ => s.haltSlot m pa
  | .routerRecord t => s.routerRecorded t []
  | .steward q => s.stewardBad q code
  | .wardenReq | .wardenRanges _ | .wardenPage _ _ _ | .wardenReport _ _ => s.wardenBad code
  | _ => s.qpReadBad r.why code pa

/-- A set of writes is complete: what its engine does then (R22). -/
def State.writerDone (s : State) (w : Writer) : State :=
  let failed := w.failed.isSome
  let code := (w.failed.map (·.1)).getD 0
  match w.why with
  | .buffer _ _ _ => s.qpWrote w.why failed
  | .rcData _ _ => s.qpWrote w.why failed
  | .completion _ _ => s.qpWrote w.why failed
  | .job l => s.laneWrote l failed
  | .guest tag => s.guestWrote tag code
  | .heldCopy n => s.sendDone n none
  | .stage m _ => s.standbyAck m
  | .apply m k => s.applyDone m k
  | .mgmt => if failed then s.cmdFail 0x183 code else s.cmdDone 0
  | .warden v => if failed then s.wardenFail (if code == 6 then codeDieLost else memFail code) else s.wardenDone v
  | .quiesce t => s.quiesceZeroed t
  | .rangeFlush => s
  | .rangeZero => s.stepEnds

/-- A write of an engine has ended, with `bad` its code and address when it failed: messages that waited for it leave, and
so do the effects of the set of writes that it completes (R20, R22). -/
def State.engineWriteEnd (s : State) (node : Nat) (id : Nat × Nat) (bad : Option (Nat × Nat)) : State :=
  let s := if node == guestNode then s.guestWriteEnded id else s
  let (ws, s) := (s.release node id).writeEnded node id bad
  ws.foldl (fun s w => s.writerDone w) s

/-- A WrLine is no longer in flight. -/
def State.wrLineOver (s : State) (node line : Nat) : State :=
  { s with hier := { s.hier with wrLines := s.hier.wrLines.eraseP fun w => w.1 == node && w.2.1 == line } }

/-- A WrLine of a node to a line is in flight. -/
def State.hasWrLine (s : State) (node line : Nat) : Bool := s.hier.wrLines.any fun w => w.1 == node && w.2.1 == line

/-- R277: a Cmp for a line with no WrLine in flight is counted in LATE, and ends the block on further ones. -/
def State.lateWrLine (s : State) (node line : Nat) : State :=
  let s := s.stat node fun x => { x with late := x.late + 1 }
  { s with hier := { s.hier with wrBlocked := s.hier.wrBlocked.filter (· != (node, line)) } }

/-! ### CMP -/

/-- A Cmp reaches a core for a request with a tag: an eviction, an uncached store, a maintenance request, or a write of its
state area (R21, R245, R251). -/
def State.coreCmp (s : State) (h : Hdr) (line : Nat) : State :=
  let g := h.node
  let c := s.core g
  if c.evict.any fun b => b.line == line && b.tag == h.tag then s.freeEvict h line
  else
    let sb := match c.txn h.tag with
      | some t => if t.want == 7 then c.sb.drop 1 else c.sb
      | none => c.sb
    let n := c.sb.length
    let s := (((s.setCore g { c.dropTxn h.tag with sb := sb }).finish h).release g (h.tag, line)).unstall g h.tag
    (s.drainedOne g n).storesGo g

/-- The last response of a write, or of a request without data, reaches its initiator. -/
def State.cmpAt (s : State) (h : Hdr) (line : Nat) : State :=
  if isHomeNode h.node then s.homeCmp line
  else if h.tag == 256 then
    if s.hasWrLine h.node line then
      let s := s.wrLineOver h.node line
      if h.node < 576 then (s.release h.node (256, line)).unstall h.node 256
      else s.engineWriteEnd h.node (256, line) none
    else s.lateWrLine h.node line
  else if s.isLate h then s.lateResponse h
  else if !s.current h then s
  else if h.node < 576 then s.coreCmp h line
  else
    let s := s.finish h
    let s := if h.node == routerNode then s.postEnd h.tag true else s
    s.engineWriteEnd h.node (h.tag, line) none

/-- CMP (R21, R22, R277). -/
def execCmp (h : Hdr) (line : Nat) (s : State) : Out :=
  onArrival (hdrOk h && lineOk line) (.cmp h line) s fun s => s.cmpAt h line

/-! ### ERR -/

/-- R342: a store to the save area of the enclave that core g has left failed; the enclave becomes EVICTED. -/
def State.saveAreaFailed (s : State) (g : Nat) : State :=
  let k := s.core g
  let left (e i : Nat) : Bool := !(swEm k.sw && k.eid == e && k.entry == i)
  match s.sec.enclaves.find? fun e => e.2.entries.any fun n => n.2.run == .running g && left e.1 n.1 with
  | some (e, _) => s.evictEnclave e
  | none => s

/-- The address of an exception that an error response to the request with a tag raises at a core, none where it raises
none: an atomic or maintenance instruction that waits for it. -/
def Core.errAddr (c : Core) (tag : Nat) : Option Word :=
  match c.stall with
  | .atomic t va _ => if t == tag then some va else none
  | .maint va ts => if ts.contains tag then some va else none
  | _ => none

/-- A store at the head of the store buffer has failed: DATA_ERROR with the storing instruction's address (Table 4-3), but
for a push of TSWITCH, whose vectors are lost (R322). -/
def State.storeFailed (s : State) (g : Nat) (e : SbEntry) : State :=
  match (s.core g).stall with
  | .tpush old _ => (s.vectorsLost g old e.pa).storesGo g
  | _ => (s.storesGo g).dataError g e.va e.pc

/-- An error response ends a request of a core (R209, R218, R254, R269): a read that the instruction at P waits for learns the
code, an atomic, maintenance instruction or store raises DATA_ERROR, a prefetch or Haze read raises nothing. A store whose
line cannot be had, or whose uncached write failed, leaves the store buffer without effect. -/
def State.coreErr (s : State) (h : Hdr) (line : Nat) (pa code : Nat) : State :=
  let g := h.node
  let c := s.core g
  match s.tag g h.tag |>.req with
  | some (.guestWindowAccess _ _ _) =>
    (s.modGuest fun q => { q with answers := q.answers ++ [(g, pa, code, 0)] }).finish h
  | some (.hazerd _ _) => s.hazeTake h line none
  | _ =>
    let t := c.txn h.tag
    let kind := (t.map (·.want)).getD 0
    let read := t.any fun t => (t.want == 1 && !t.prefetch) || t.want == 5
    let hold := s.junction.any fun j => j.node == g && j.msg == .saveAreaAcked g && j.waits.contains (h.tag, line)
    let head := c.sb.head?.bind fun e =>
      if e.pa / 64 == line && (kind == 2 || kind == 3 || kind == 7) then some e else none
    let evicted := c.evict.any fun b => b.line == line && b.tag == h.tag
    let n := c.sb.length
    let c' := { c.dropTxn h.tag with
      sb := if head.isSome then c.sb.drop 1 else c.sb,
      errs := if read then c.errs ++ [(line, code)] else c.errs }
    let s := if evicted then s.freeEvict h line
      else (((s.setCore g c').finish h).release g (h.tag, line)).drainedOne g n
    let s := if hold then s.saveAreaFailed g else s
    let s := s.pulled g h.tag none
    match c.errAddr h.tag, head with
    | some va, _ => s.dataError g va c.p
    | none, some e => s.storeFailed g e
    | none, none => s

/-- An error response to a request with a tag reaches an engine, which reports a failed write (R22). -/
def State.engineErr (s : State) (h : Hdr) (pa code : Nat) : State :=
  let reading := s.readers.any fun r => r.node == h.node && r.tag == some h.tag
  let s := s.finish h
  if reading then
    match s.readerErr h.node h.tag code with
    | (.bad r e a, s) => s.readFailed h.tag r e a
    | (_, s) => s
  else
    let s := s.fault (s.nodeSource h.node) 0x22 (some h.tid) pa
    let s := if h.node == routerNode then s.postEnd h.tag false else s
    s.engineWriteEnd h.node (h.tag, pa / 64) (some (code, pa))

/-- A WrLine has ended in an error response: the fault report leaves before what waited for the write (R22). -/
def State.wrLineErr (s : State) (h : Hdr) (pa code : Nat) : State :=
  let line := pa / 64
  let g := h.node
  let hold := s.junction.any fun j => j.node == g && j.msg == .saveAreaAcked g && j.waits.contains (256, line)
  let s := s.wrLineOver g line
  if g < 576 then
    let s := s.release g (256, line)
    let s := if hold then s.saveAreaFailed g else s
    match (s.core g).errAddr 256 with
    | some va => s.dataError g va (s.core g).p
    | none => s
  else
    (s.fault (s.nodeSource g) 0x22 (some h.tid) pa).engineWriteEnd g (256, line) (some (code, pa))

/-- An error response answers a register write without a tag (R28, R30): an engine reports it (R22), a core raises
DATA_ERROR; the row names no virtual address, and EADDR is the physical one (DESIGN CHOICE, notes/assumptions/53.md). -/
def State.regWriteErr (s : State) (h : Hdr) (pa : Nat) : State :=
  if h.node < 576 then s.dataError h.node (BitVec.ofNat 64 pa) (s.core h.node).p
  else s.fault (s.nodeSource h.node) 0x22 (some h.tid) pa

/-- An error response ends a request that is not late. -/
def State.errEnds (s : State) (h : Hdr) (pa code : Nat) : State :=
  if h.tag == 256 then
    if isDevice pa && !s.hasWrLine h.node (pa / 64) then s.regWriteErr h pa
    else if s.hasWrLine h.node (pa / 64) then s.wrLineErr h pa code else s.lateWrLine h.node (pa / 64)
  else if h.node < 576 then s.coreErr h (pa / 64) pa code
  else s.engineErr h pa code

/-- An error response reaches an initiator: a late one is counted, RETRY marks the request for its reissue. -/
def State.errAt (s : State) (h : Hdr) (pa : Nat) (code : BitVec 16) : State :=
  if isHomeNode h.node then (if code == 4 then s else s.layer1Answer (pa / 64) fun s => s.homeErr (pa / 64) code)
  else if h.tag != 256 && s.isLate h then s.lateResponse h
  else if code == 4 then
    let s := s.stat h.node fun x => { x with retries := x.retries + 1 }
    if h.tag == 256 then s else s.setTag h.node h.tag { s.tag h.node h.tag with retry := true }
  else s.errEnds h pa code.toNat

/-- ERR (R22, R269). -/
def execErr (h : Hdr) (pa : Nat) (code : BitVec 16) (s : State) : Out :=
  onArrival (hdrOk h && paOk pa) (.err h pa code) s fun s => s.errAt h pa code

/-! ### CURDATA, ATOMDATA -/

/-- The current value of a line reaches the core that reads it uncached: the instruction at P takes it when it goes on
(R250); a value that no instruction waits for any more is dropped. -/
def State.coreCur (s : State) (h : Hdr) (line : Nat) (d : LineData) : State :=
  (s.finish h).modCore h.node fun c =>
    { c.dropTxn h.tag with cur := if (c.txn h.tag).any (·.want == 5) then c.cur ++ [(line, d)] else c.cur }

/-- CURDATA (R249, R250): the current value of a line reaches the initiator that reads it. -/
def State.curData (s : State) (h : Hdr) (line : Nat) (d : LineData) : State :=
  let s := s.countRead h.node
  if s.isLate h then s.lateResponse h
  else if !s.current h then s
  else if h.node < 576 then s.coreCur h line d
  else
    match (s.finish h).readerData h.node h.tag d with
    | (.done r, s) => s.readDone h.tag r
    | (.bad r e a, s) => s.readFailed h.tag r e a
    | (.none, s) => s

/-- CURDATA (R249). -/
def execCurdata (h : Hdr) (line : Nat) (d : LineData) (s : State) : Out :=
  onArrival (hdrOk h && lineOk line) (.curdata h line d) s fun s => s.curData h line d

/-- The old value of an atomic goes to its destination slots by ordinary frame-form stores, the low half first (R93,
R252). -/
def atomicStore (x : Ctx) (dst : List (Nat × Bool × Word)) (old : BitVec 128) : Exec Unit :=
  storePieces x (dst.zipIdx.map fun p => ⟨⟨⟨p.1.1, p.1.2.1⟩, p.1.2.2, 0, 8⟩, (old >>> (64 * p.2)).setWidth 256⟩) true

/-- ATOMDATA: the atomic completes, or raises LOAD_POISON (R254); a pull of TSWITCH takes its word (R322). The message comes
again while a destination in device space waits. -/
def State.atomData (s : State) (h : Hdr) (pa : Nat) (old : BitVec 128) (poison : Bool) : State :=
  let s := s.countRead h.node
  if s.isLate h then s.lateResponse h
  else if !s.current h then s
  else
    let g := h.node
    let c := s.core g
    match c.stall with
    | .atomic t va dst =>
      if t != h.tag then s
      else
        let x := c.ctx g
        if poison then
          ((s.finish h).modCore g fun c => { c with stall := .none, due := [] }).takeExc g x.sw { code := 0x41, addr := va }
        else
          match atomicStore x dst old (s.modCore g fun c => { c with stall := .none }) with
          | .ok _ s =>
            let s := s.finish h
            if (s.core g).stall == .none then s.finishStall g else s
          | .error (.exc e) s => ((s.finish h).modCore g fun c => { c with due := [] }).takeExc g x.sw e
          | .error .wait s => (s.modCore g fun k => { k with stall := c.stall }).send (.atomdata h pa old poison)
    | .tswitch _ _ _ => (s.finish h).pulled g h.tag (if poison then none else some (old.setWidth 64))
    | _ => s.finish h

/-- ATOMDATA (R252, R254). -/
def execAtomdata (h : Hdr) (pa : Nat) (old : BitVec 128) (poison : Bool) (s : State) : Out :=
  onArrival (hdrOk h && paOk pa) (.atomdata h pa old poison) s fun s => s.atomData h pa old poison

/-! ### INITIATOR_TIMEOUT -/

/-- The fault message of a timeout, with the initiator as source, and the count in TIMEOUTS. -/
def State.timedOut (s : State) (node pa : Nat) (tid : Option (BitVec 12)) : State :=
  (s.stat node fun x => { x with timeouts := x.timeouts + 1 }).fault (s.nodeSource node) 0x21 tid pa

/-- The timeout class of an initiator's request (Table 9-6). -/
def timeoutClass (node pa : Nat) : Nat :=
  if 0xF100000000000 ≤ pa then 5
  else if node < 576 then if isDevice pa then 1 else 0
  else if node == 0x3DB then 4
  else if node == 0x3DC || node == 0x3EE then 7
  else if isDevice pa then 3 else 2

/-- A timer that started at a time has reached TIMEOUT_NS of its class. -/
def State.timeoutDue (s : State) (node pa since : Nat) : Bool :=
  decide (since + s.timeoutNs (timeoutClass node pa) ≤ s.now)

/-- A home's layer-1 request reaches TIMEOUT_NS of class 6 (R274, R275, R416); its answer is late from then on (R276). -/
def State.layer1Timeout (s : State) (node line : Nat) : State :=
  match s.hier.layer1.find? fun r => r.1 == line with
  | some (_, _, since) =>
    if since + s.timeoutNs 6 ≤ s.now then
      let s := { s with hier := { s.hier with l1Late := s.hier.l1Late ++ [line] } }
      (s.fault (s.nodeSource node) 0x21 none (64 * line)).homeErr line 5
    else s
  | none => s

/-- A timer of an initiator reaches TIMEOUT_NS (R275, R277), with what had come of a grant kept in the reserved buffer
(R276): `wrLine` names the line of a WrLine, or of a home's layer-1
request. -/
def State.timeoutAt (s : State) (node tag : Nat) (wrLine : Option Nat) : State :=
  match wrLine with
  | some line =>
    if isHomeNode node then s.layer1Timeout node line
    else if s.hier.wrLines.any fun w => w.1 == node && w.2.1 == line && s.timeoutDue node (64 * line) w.2.2 then
      let s := s.timedOut node (64 * line) none
      let s := { s with hier := { s.hier with wrBlocked := if s.hier.wrBlocked.contains (node, line) then s.hier.wrBlocked
        else s.hier.wrBlocked ++ [(node, line)] } }
      s.wrLineErr ⟨node, 256, 0, 0, 0⟩ (64 * line) 5
    else s
  | none =>
    let t := s.tag node tag
    match t.req with
    | none => s
    | some m =>
      if t.reserved || !s.timeoutDue node (reqAddr m) t.since then s
      else
        let tid := match m with
          | .guestWindowAccess h _ _ => some h.tid
          | _ => (reqInfo m).map fun r => r.1.tid
        let h : Hdr := ⟨node, tag, t.gen, tid.getD 0, 0⟩
        let got := if node < 576 then (s.core node).txn tag else none
        let s := (s.timedOut node (reqAddr m) tid).errEnds h (reqAddr m) 5
        s.setTag node tag { s.tag node tag with
          gen := t.gen + 1, reserved := true, req := none, retry := false, since := s.now,
          lateData := got.bind (·.data), lateGo := got.any (·.go) }

/-- INITIATOR_TIMEOUT (R275, R276, R277). -/
def execInitiatorTimeout (node tag : Nat) (wrLine : Option Nat) (s : State) : Out :=
  onWf (nodeOk node && tagOk tag) (s.timeoutAt node tag wrLine)

/-! ### DOOR_ANSWER -/

/-- The state that a command answers, the given one where it stops. -/
def outState (o : Out) (s : State) : State :=
  match o with
  | .next t => t
  | _ => s

/-- A door answers, holds or passes an arrival for its domain (R416, Table 16-2). -/
def State.doorAnswer (s : State) (d : Nat) (a : Arrival) : State :=
  let x := s.dom d
  if x.st == .run && !x.stopped && !x.inReset && !s.unitFenced d then s
  else
    match a with
    | .snoop code req line =>
      if decide (d < 576) && decide (1 ≤ code) && decide (code ≤ 6) && lineOk line then s.snoopArrive code req d line else s
    | .delivery t v => if d < 576 then s.deliver d t v else s
    | .broadcast i => if d < 576 then s.tlbiTake d i else s
    | .layer1 line =>
      if (s.locate line).any fun p => stackDomain p.stack == d then s.layer1 line (fun _ s => s) else s
    | .access h pa =>
      if d < 672 then s
      else
        let (e, s) := s.doorCode d
        if e == 0 then s else s.send (.err h pa (BitVec.ofNat 16 e))
    | .pauseNotice t =>
      if d < 576 then outState (execPauseNoticeCore d t s) s
      else if 696 ≤ d ∧ d < 712 ∧ d ≠ 710 then outState (execPauseNoticeEngine (hubUnit d) t s) s
      else s

/-- DOOR_ANSWER (R416, R417). -/
def execDoorAnswer (d : Nat) (a : Arrival) (s : State) : Out := onWf (domainOk d) (s.doorAnswer d a)

end Sys2Proof.Machine
end

