-- ==== Sys2Proof/Machine/Memops.lean ====
section
/-! DEFINITION. Formats K and A: immediates, moves, and memory operands (Tables 3-11 and 3-12). -/

namespace Sys2Proof.Machine

/-- Change the core's registers and go on. -/
def regOp (x : Ctx) (f : Core → Core) : Exec (Option Word) := do
  setRegs x f
  done x

/-- A new frame base: bits [2:0] are discarded (R70). -/
def frameBase (v : Word) : Word := setFld v 0 3 0

/-- The shift or rotate of A that SHIFTI names (Table 3-11). -/
def shiftBy (kind n : Nat) (a : Word) : Word :=
  match kind with
  | 0 => a <<< n
  | 1 => a >>> n
  | 2 => a.sshiftRight n
  | _ => a.rotateRight n

/-- The register that MOV's source code names: 0 A, 1 X, 2 Y, 3 L, 4 F, 5 P. -/
def movSource (x : Ctx) (c : Core) (k : Nat) : Word :=
  match k with
  | 0 => c.a
  | 1 => c.x
  | 2 => c.y
  | 3 => c.l
  | 4 => c.f
  | _ => x.pc

/-- The register that MOV's destination code names. -/
def movDest (c : Core) (k : Nat) (v : Word) : Core :=
  match k with
  | 0 => { c with a := v }
  | 1 => { c with x := v }
  | 2 => { c with y := v }
  | 3 => { c with l := v }
  | _ => { c with f := frameBase v }

/-- A := A op m. -/
def accumulate (x : Ctx) (base size : BitVec 2) (disp : BitVec 22) (signed : Bool) (f : Word → Word → Word) :
    Exec (Option Word) := do
  let m ← operandRead x base size disp
  regOp x fun c => { c with a := f c.a (if signed then sextOf size m else BitVec.ofNat 64 m) }

/-- LI (Table 3-11). -/
def execLi (c : Nat) (imm : BitVec 24) (s : State) : Out :=
  onWf (coreOk c) (s.coreStep c fun x => regOp x fun c => { c with a := sext64 imm })

/-- ADDI (Table 3-11). -/
def execAddi (c : Nat) (imm : BitVec 24) (s : State) : Out :=
  onWf (coreOk c) (s.coreStep c fun x => regOp x fun c => { c with a := c.a + sext64 imm })

/-- SHI (Table 3-11). -/
def execShi (c : Nat) (imm : BitVec 24) (s : State) : Out :=
  onWf (coreOk c) (s.coreStep c fun x => regOp x fun c => { c with a := (c.a <<< 24) ||| zext64 imm })

/-- ANDI (Table 3-11). -/
def execAndi (c : Nat) (imm : BitVec 24) (s : State) : Out :=
  onWf (coreOk c) (s.coreStep c fun x => regOp x fun c => { c with a := c.a &&& sext64 imm })

/-- LIX (Table 3-11). -/
def execLix (c : Nat) (imm : BitVec 24) (s : State) : Out :=
  onWf (coreOk c) (s.coreStep c fun x => regOp x fun c => { c with x := sext64 imm })

/-- ADDX (Table 3-11). -/
def execAddx (c : Nat) (imm : BitVec 24) (s : State) : Out :=
  onWf (coreOk c) (s.coreStep c fun x => regOp x fun c => { c with x := c.x + sext64 imm })

/-- LIY (Table 3-11). -/
def execLiy (c : Nat) (imm : BitVec 24) (s : State) : Out :=
  onWf (coreOk c) (s.coreStep c fun x => regOp x fun c => { c with y := sext64 imm })

/-- ADDY (Table 3-11). -/
def execAddy (c : Nat) (imm : BitVec 24) (s : State) : Out :=
  onWf (coreOk c) (s.coreStep c fun x => regOp x fun c => { c with y := c.y + sext64 imm })

/-- ADDF (Table 3-11). -/
def execAddf (c : Nat) (imm : BitVec 24) (s : State) : Out :=
  onWf (coreOk c) (s.coreStep c fun x => regOp x fun c => { c with f := frameBase (c.f + sext64 imm * 8) })

/-- ORI (Table 3-11). -/
def execOri (c : Nat) (imm : BitVec 24) (s : State) : Out :=
  onWf (coreOk c) (s.coreStep c fun x => regOp x fun c => { c with a := c.a ||| zext64 imm })

/-- XORI (Table 3-11). -/
def execXori (c : Nat) (imm : BitVec 24) (s : State) : Out :=
  onWf (coreOk c) (s.coreStep c fun x => regOp x fun c => { c with a := c.a ^^^ zext64 imm })

/-- SHIFTI (Table 3-11). -/
def execShifti (c : Nat) (imm : BitVec 24) (s : State) : Out :=
  onWf (coreOk c) (s.coreStep c fun x => do
    legal (fld imm 8 16 == 0)
    regOp x fun c => { c with a := shiftBy (fld imm 6 2) (fld imm 0 6) c.a })

/-- MOV (Table 3-11). -/
def execMov (c : Nat) (imm : BitVec 24) (s : State) : Out :=
  onWf (coreOk c) (s.coreStep c fun x => do
    legal (fld imm 8 16 == 0 && decide (fld imm 4 4 ≤ 5) && decide (fld imm 0 4 ≤ 4))
    regOp x fun c => movDest c (fld imm 0 4) (movSource x c (fld imm 4 4)))

/-- LD (R73). -/
def execLd (c : Nat) (base size : BitVec 2) (disp : BitVec 22) (s : State) : Out :=
  onWf (coreOk c) (s.coreStep c fun x => do
    let m ← operandRead x base size disp
    regOp x fun c => { c with a := BitVec.ofNat 64 m })

/-- LDS (R73). -/
def execLds (c : Nat) (base size : BitVec 2) (disp : BitVec 22) (s : State) : Out :=
  onWf (coreOk c) (s.coreStep c fun x => do
    let m ← operandRead x base size disp
    regOp x fun c => { c with a := sextOf size m })

/-- LDX (R73). -/
def execLdx (c : Nat) (base size : BitVec 2) (disp : BitVec 22) (s : State) : Out :=
  onWf (coreOk c) (s.coreStep c fun x => do
    let m ← operandRead x base size disp
    regOp x fun c => { c with x := BitVec.ofNat 64 m })

/-- LDY (R73). -/
def execLdy (c : Nat) (base size : BitVec 2) (disp : BitVec 22) (s : State) : Out :=
  onWf (coreOk c) (s.coreStep c fun x => do
    let m ← operandRead x base size disp
    regOp x fun c => { c with y := BitVec.ofNat 64 m })

/-- ST (R73). -/
def execSt (c : Nat) (base size : BitVec 2) (disp : BitVec 22) (s : State) : Out :=
  onWf (coreOk c) (s.coreStep c fun x => do
    operandWrite x base size disp ((← get).core x.g).a
    done x)

/-- STX (R73). -/
def execStx (c : Nat) (base size : BitVec 2) (disp : BitVec 22) (s : State) : Out :=
  onWf (coreOk c) (s.coreStep c fun x => do
    operandWrite x base size disp ((← get).core x.g).x
    done x)

/-- STY (R73). -/
def execSty (c : Nat) (base size : BitVec 2) (disp : BitVec 22) (s : State) : Out :=
  onWf (coreOk c) (s.coreStep c fun x => do
    operandWrite x base size disp ((← get).core x.g).y
    done x)

/-- ADD of format A (Table 3-12, R73). -/
def execAddMem (c : Nat) (base size : BitVec 2) (disp : BitVec 22) (s : State) : Out :=
  onWf (coreOk c) (s.coreStep c fun x => accumulate x base size disp true (· + ·))

/-- SUB of format A (Table 3-12, R73). -/
def execSubMem (c : Nat) (base size : BitVec 2) (disp : BitVec 22) (s : State) : Out :=
  onWf (coreOk c) (s.coreStep c fun x => accumulate x base size disp true (· - ·))

/-- AND of format A (Table 3-12, R73). -/
def execAndMem (c : Nat) (base size : BitVec 2) (disp : BitVec 22) (s : State) : Out :=
  onWf (coreOk c) (s.coreStep c fun x => accumulate x base size disp false (· &&& ·))

/-- OR of format A (Table 3-12, R73). -/
def execOrMem (c : Nat) (base size : BitVec 2) (disp : BitVec 22) (s : State) : Out :=
  onWf (coreOk c) (s.coreStep c fun x => accumulate x base size disp false (· ||| ·))

/-- XOR of format A (Table 3-12, R73). -/
def execXorMem (c : Nat) (base size : BitVec 2) (disp : BitVec 22) (s : State) : Out :=
  onWf (coreOk c) (s.coreStep c fun x => accumulate x base size disp false (· ^^^ ·))

/-- MUL of format A (Table 3-12, R73). -/
def execMulMem (c : Nat) (base size : BitVec 2) (disp : BitVec 22) (s : State) : Out :=
  onWf (coreOk c) (s.coreStep c fun x => accumulate x base size disp true (· * ·))

/-- LEA (Table 3-12): no memory is accessed. -/
def execLea (c : Nat) (base size : BitVec 2) (disp : BitVec 22) (s : State) : Out :=
  onWf (coreOk c) (s.coreStep c fun x => regOp x fun c => { c with a := x.ea c base disp (opSize size) })

/-- VLD (Table 3-12, R84). -/
def execVld (c : Nat) (base size : BitVec 2) (disp : BitVec 22) (s : State) : Out :=
  onWf (coreOk c) (s.coreStep c fun x => do
    needCap 0
    legal (size == 3)
    let m ← readMem x (x.ea ((← get).core x.g) base disp 32) 32
    regOp x fun c => { c with va := BitVec.ofNat 256 m })

/-- VST (Table 3-12, R84). -/
def execVst (c : Nat) (base size : BitVec 2) (disp : BitVec 22) (s : State) : Out :=
  onWf (coreOk c) (s.coreStep c fun x => do
    needCap 0
    legal (size == 3)
    let c := (← get).core x.g
    storeMem x (x.ea c base disp 32) 32 c.va
    done x)

end Sys2Proof.Machine
end

