-- ==== Sys2Proof/Machine/Control.lean ====
section
/-! DEFINITION. Control transfers (Tables 3-11 and 3-13, R98, R99) and the predictor they train (R153, R154). -/

namespace Sys2Proof.Machine

/-! ### The predictor -/

/-- The 12-bit fold of the path history. -/
def histFold (h : BitVec 32) : Nat := fld h 0 12 ^^^ fld h 12 12 ^^^ fld h 24 8

/-- The path history after one more taken transfer: each of the last 16 targets still bears on it. -/
def histNext (h : BitVec 32) (target : Word) : BitVec 32 := (h <<< 2) ^^^ (target >>> 2).setWidth 32

def isIndirect : Transfer → Bool
  | .ret => true
  | .ja => true
  | .calla => true
  | _ => false

/-- R154: the predictor learns a resolved transfer. DESIGN CHOICE (log 51), where the manual names the structures and not
their functions: the path-history hash and its 12-bit fold; a branch-target-buffer hit needs the transfer's kind too; a new
entry's counter starts at 2; the history is not updated while PB or NO_BTB is 1. -/
def Core.resolve (c : Core) (x : Ctx) (kind : Transfer) (target : Word) (taken : Bool) : Core :=
  let ctl := x.reg 0x150
  if swPb x.sw || bit ctl 0 then c
  else
    let base := fld x.pc 4 6 * 4
    let tag : BitVec 38 := (x.pc >>> 10).setWidth 38
    let c := match (List.range 4).find? fun w => (tfind? c.pred.btb (base + w)).any fun e => e.tag == tag && e.kind == kind with
      | some w =>
        let step (e : BtbEntry) : BtbEntry :=
          { e with target := if taken then target else e.target,
                   counter := if taken then (if e.counter == 3 then 3 else e.counter + 1)
                     else (if e.counter == 0 then 0 else e.counter - 1) }
        { c with pred := { c.pred with btb := c.pred.btb.map fun e => if e.1 == base + w then (e.1, step e.2) else e } }
      | none =>
        if taken then
          let (k, lf) := pickWay c.pred.btb base 4 c.lfsrC
          { c with pred := { c.pred with btb := tput c.pred.btb k ⟨tag, kind, target, 2⟩ }, lfsrC := lf }
        else c
    let c := if isIndirect kind && !bit ctl 1 then
        let i := fld x.pc 2 12 ^^^ histFold c.pred.hist
        { c with pred := { c.pred with itt := tput c.pred.itt i (x.pc, target) } }
      else c
    if taken then { c with pred := { c.pred with hist := histNext c.pred.hist target } } else c

/-- A transfer resolves in execute, where the predictor learns it (R154), and the next address is its target or the next
instruction. A target that is not a multiple of 4 raises the fetch-alignment exception (R70). -/
def transfer (x : Ctx) (kind : Transfer) (target : Word) (taken : Bool) (f : Core → Core := id) : Exec (Option Word) := do
  modify fun s => s.modCore x.g fun c => c.resolve x kind target taken
  if fld target 0 2 != 0 then raise 0x04 target
  else
    modify fun s => (s.modCore x.g f).dueEvent x.g 0x004
    pure (some (if taken then target else x.pc + 4))

/-! ### The instructions -/

/-- The condition of a format-B branch. -/
def condHolds (cond : BitVec 3) (a b : Word) : Bool :=
  match cond.toNat with
  | 0 => a == b
  | 1 => a != b
  | 2 => a.slt b
  | 3 => !a.slt b
  | 4 => a.ult b
  | 5 => !a.ult b
  | 6 => a &&& b == 0
  | _ => a &&& b != 0

/-- B.cond (Table 3-13, R99). -/
def execBCond (c : Nat) (cond : BitVec 3) (slot : BitVec 5) (disp : BitVec 18) (s : State) : Out :=
  onWf (coreOk c) (s.coreStep c fun x => do
    let v ← slotRead x slot.toNat
    transfer x .cond (x.pc + sext64 disp * 4) (condHolds cond ((← get).core x.g).a v))

/-- JMP (R98). -/
def execJmp (c : Nat) (disp : BitVec 26) (s : State) : Out :=
  onWf (coreOk c) (s.coreStep c fun x => transfer x .jmp (x.pc + sext64 disp * 4) true)

/-- CALL (R98). -/
def execCall (c : Nat) (disp : BitVec 26) (s : State) : Out :=
  onWf (coreOk c) (s.coreStep c fun x =>
    transfer x .call (x.pc + sext64 disp * 4) true fun c => { c with l := x.pc + 4 })

/-- RET (Table 3-11). -/
def execRet (c : Nat) (imm : BitVec 24) (s : State) : Out :=
  onWf (coreOk c) (s.coreStep c fun x => do
    legal (imm == 0)
    transfer x .ret ((← get).core x.g).l true)

/-- JA (Table 3-11). -/
def execJa (c : Nat) (imm : BitVec 24) (s : State) : Out :=
  onWf (coreOk c) (s.coreStep c fun x => do
    legal (imm == 0)
    transfer x .ja ((← get).core x.g).a true)

/-- CALLA (Table 3-11). -/
def execCalla (c : Nat) (imm : BitVec 24) (s : State) : Out :=
  onWf (coreOk c) (s.coreStep c fun x => do
    legal (imm == 0)
    transfer x .calla ((← get).core x.g).a true fun c => { c with l := x.pc + 4 })

/-- A transfer on the wrong path that the free value names: its address, kind, target and direction. -/
def wrongTransfer (w : Word) (v : Word) : Word × Transfer × Word × Bool :=
  (setFld w 0 2 0, [.cond, .jmp, .call, .ret, .ja, .calla].getD (fld v 0 2 + fld w 0 2) .cond, setFld v 0 2 0, bit w 63)

/-- Wrong-path transfers that reach execute train the predictor (R154, R158): free values say how many and which. -/
def State.wrongPath (s : State) (g : Nat) : State :=
  let x := (s.core g).ctx g
  (List.range (Config.wrongPathTransfers s.free)).foldl (fun s i =>
    let t := wrongTransfer (Config.freeWord (s.free + 2 * i)) (Config.freeWord (s.free + 2 * i + 1))
    s.modCore g fun c => c.resolve { x with pc := t.1 } t.2.1 t.2.2.1 t.2.2.2)
    { s with free := s.free + 2 * Config.wrongPathTransfers s.free + 1 }

/-- BR_MISPRED (R140, R154, R157): what wrong-path work left in the predictor, and the Haze entries of the instructions that
are discarded, which no proven instruction uses. -/
def execBrMispred (c : Nat) (indirect : Bool) (s : State) : Out :=
  onWf (coreOk c)
    (if s.canExec c then
       let sw := (s.core c).seenSw
       let s := s.event c sw 0x005
       let s := if indirect then s.event c sw 0x006 else s
       (s.wrongPath c).hazeFlush c
     else s)

end Sys2Proof.Machine
end

