-- ==== Sys2Proof/Machine/Vector.lean ====
section
/-! DEFINITION. The vector group of format T (Table 3-9, R90, R91). -/

namespace Sys2Proof.Machine

/-! ### Lanes (R84, R90) -/

/-- The width of a lane type: I8, I16, I32, I64, F32, F64. -/
def laneWidth (ty : BitVec 3) : Nat := [8, 16, 32, 64, 32, 64].getD ty.toNat 64

def isFloatTy (ty : BitVec 3) : Bool := ty == 4 || ty == 5
def isIntTy (ty : BitVec 3) : Bool := decide (ty.toNat < 4)
def isTy (ty : BitVec 3) : Bool := decide (ty.toNat < 6)
def laneFmt (ty : BitVec 3) : Fmt := if ty == 4 then f32 else f64

/-- The lanes of a vector as numbers, lane 0 first. -/
def lanes (ty : BitVec 3) (v : Vec) : List Nat := (List.range (256 / laneWidth ty)).map fun i => fld v (laneWidth ty * i) (laneWidth ty)

/-- A vector from lanes. -/
def unlanes (ty : BitVec 3) (l : List Nat) : Vec :=
  BitVec.ofNat 256 (l.foldr (fun a r => a % 2 ^ laneWidth ty + 2 ^ laneWidth ty * r) 0)

/-- A lane as a signed number. -/
def laneInt (w n : Nat) : Int := if n < 2 ^ (w - 1) then n else (n : Int) - 2 ^ w

/-- An integer lane operation through signed numbers, kept modulo 2^w. -/
def viaInt (ty : BitVec 3) (f : Int → Int → Int) (a b : Nat) : Nat :=
  (f (laneInt (laneWidth ty) a) (laneInt (laneWidth ty) b) % 2 ^ laneWidth ty).toNat

def allOnesLane (ty : BitVec 3) (b : Bool) : Nat := if b then 2 ^ laneWidth ty - 1 else 0

/-- Addition, subtraction, multiplication of lanes. -/
def laneAdd (ty : BitVec 3) (a b : Nat) : Nat := if isFloatTy ty then fpAdd (laneFmt ty) a b else a + b
def laneSub (ty : BitVec 3) (a b : Nat) : Nat := if isFloatTy ty then fpSub (laneFmt ty) a b else viaInt ty (· - ·) a b
def laneMul (ty : BitVec 3) (a b : Nat) : Nat := if isFloatTy ty then fpMul (laneFmt ty) a b else a * b
def laneLt (ty : BitVec 3) (a b : Nat) : Bool :=
  if isFloatTy ty then fpLt (laneFmt ty) a b else decide (laneInt (laneWidth ty) a < laneInt (laneWidth ty) b)
def laneEq (ty : BitVec 3) (a b : Nat) : Bool := if isFloatTy ty then fpEq (laneFmt ty) a b else a == b
def laneMin (ty : BitVec 3) (a b : Nat) : Nat :=
  if isFloatTy ty then fpMin (laneFmt ty) a b else if laneLt ty b a then b else a
def laneMax (ty : BitVec 3) (a b : Nat) : Nat :=
  if isFloatTy ty then fpMax (laneFmt ty) a b else if laneLt ty a b then b else a

/-- A lane shift: the amount's low log2(w) bits (R82). -/
def laneShift (ty : BitVec 3) (f : Nat → Nat → Nat) (a b : Nat) : Nat := f a (b % laneWidth ty)

/-- VA := f lane by lane of VA and g4(SA). -/
def lanewise (x : Ctx) (ty : BitVec 3) (ok : Bool) (d sa sb : BitVec 5) (f : Nat → Nat → Nat) : Exec (Option Word) := do
  needCap 0
  legal (ok && isTy ty && d == 0 && sb == 0 && alignedSlot 4 sa)
  let v ← slotsRead x (slotRange sa 4)
  let g : Vec := ofLanes 64 ((slotRange sa 4).map fun k => tget v k 0)
  setRegs x fun c => { c with va := unlanes ty (List.zipWith f (lanes ty c.va) (lanes ty g)) }
  vecDone x
where
  /-- Count a vector instruction (VEC_OPS) and complete. -/
  vecDone (x : Ctx) : Exec (Option Word) := do
    modify fun s => s.dueEvent x.g 0x102
    done x

/-- A reduction of VA into s[D] (R91). -/
def reduce (x : Ctx) (ty : BitVec 3) (d sa sb : BitVec 5) (f : BitVec 3 → Nat → Nat → Nat) (int : Int → Int → Int) :
    Exec (Option Word) := do
  needCap 0
  legal (isTy ty && sa == 0 && sb == 0)
  let ls := lanes ty ((← get).core x.g).va
  let r : Word :=
    if isFloatTy ty then BitVec.ofNat 64 (ls.tail.foldl (f ty) (ls.headD 0))
    else
      let is := ls.map (laneInt (laneWidth ty))
      BitVec.ofInt 64 (is.tail.foldl int (is.headD 0))
  slotsWrite x [(d.toNat, r)]
  lanewise.vecDone x

/-- VADD (Table 3-9). -/
def execVadd (c : Nat) (ty : BitVec 3) (d sa sb : BitVec 5) (s : State) : Out :=
  onWf (coreOk c) (s.coreStep c fun x => lanewise x ty true d sa sb (laneAdd ty))

/-- VSUB (Table 3-9). -/
def execVsub (c : Nat) (ty : BitVec 3) (d sa sb : BitVec 5) (s : State) : Out :=
  onWf (coreOk c) (s.coreStep c fun x => lanewise x ty true d sa sb (laneSub ty))

/-- VMUL (Table 3-9). -/
def execVmul (c : Nat) (ty : BitVec 3) (d sa sb : BitVec 5) (s : State) : Out :=
  onWf (coreOk c) (s.coreStep c fun x => lanewise x ty true d sa sb (laneMul ty))

/-- VAND (Table 3-9). -/
def execVand (c : Nat) (ty : BitVec 3) (d sa sb : BitVec 5) (s : State) : Out :=
  onWf (coreOk c) (s.coreStep c fun x => lanewise x ty (isIntTy ty) d sa sb (· &&& ·))

/-- VOR (Table 3-9). -/
def execVor (c : Nat) (ty : BitVec 3) (d sa sb : BitVec 5) (s : State) : Out :=
  onWf (coreOk c) (s.coreStep c fun x => lanewise x ty (isIntTy ty) d sa sb (· ||| ·))

/-- VXOR (Table 3-9). -/
def execVxor (c : Nat) (ty : BitVec 3) (d sa sb : BitVec 5) (s : State) : Out :=
  onWf (coreOk c) (s.coreStep c fun x => lanewise x ty (isIntTy ty) d sa sb (· ^^^ ·))

/-- VMIN (Table 3-9). -/
def execVmin (c : Nat) (ty : BitVec 3) (d sa sb : BitVec 5) (s : State) : Out :=
  onWf (coreOk c) (s.coreStep c fun x => lanewise x ty true d sa sb (laneMin ty))

/-- VMAX (Table 3-9). -/
def execVmax (c : Nat) (ty : BitVec 3) (d sa sb : BitVec 5) (s : State) : Out :=
  onWf (coreOk c) (s.coreStep c fun x => lanewise x ty true d sa sb (laneMax ty))

/-- VMINU (Table 3-9). -/
def execVminu (c : Nat) (ty : BitVec 3) (d sa sb : BitVec 5) (s : State) : Out :=
  onWf (coreOk c) (s.coreStep c fun x => lanewise x ty (isIntTy ty) d sa sb Nat.min)

/-- VMAXU (Table 3-9). -/
def execVmaxu (c : Nat) (ty : BitVec 3) (d sa sb : BitVec 5) (s : State) : Out :=
  onWf (coreOk c) (s.coreStep c fun x => lanewise x ty (isIntTy ty) d sa sb Nat.max)

/-- VSHL (Table 3-9). -/
def execVshl (c : Nat) (ty : BitVec 3) (d sa sb : BitVec 5) (s : State) : Out :=
  onWf (coreOk c) (s.coreStep c fun x => lanewise x ty (isIntTy ty) d sa sb (laneShift ty (· <<< ·)))

/-- VSHR (Table 3-9). -/
def execVshr (c : Nat) (ty : BitVec 3) (d sa sb : BitVec 5) (s : State) : Out :=
  onWf (coreOk c) (s.coreStep c fun x => lanewise x ty (isIntTy ty) d sa sb (laneShift ty (· >>> ·)))

/-- VSAR (Table 3-9). -/
def execVsar (c : Nat) (ty : BitVec 3) (d sa sb : BitVec 5) (s : State) : Out :=
  onWf (coreOk c) (s.coreStep c fun x => lanewise x ty (isIntTy ty) d sa sb (laneShift ty fun a n => viaInt ty (fun i _ => i >>> n) a 0))

/-- VCMPEQ (Table 3-9). -/
def execVcmpeq (c : Nat) (ty : BitVec 3) (d sa sb : BitVec 5) (s : State) : Out :=
  onWf (coreOk c) (s.coreStep c fun x => lanewise x ty true d sa sb (fun a b => allOnesLane ty (laneEq ty a b)))

/-- VCMPLT (Table 3-9). -/
def execVcmplt (c : Nat) (ty : BitVec 3) (d sa sb : BitVec 5) (s : State) : Out :=
  onWf (coreOk c) (s.coreStep c fun x => lanewise x ty true d sa sb (fun a b => allOnesLane ty (laneLt ty a b)))

/-- VCMPLTU (Table 3-9). -/
def execVcmpltu (c : Nat) (ty : BitVec 3) (d sa sb : BitVec 5) (s : State) : Out :=
  onWf (coreOk c) (s.coreStep c fun x => lanewise x ty (isIntTy ty) d sa sb (fun a b => allOnesLane ty (decide (a < b))))

/-- VFMA (Table 3-9): one rounding. -/
def execVfma (c : Nat) (ty : BitVec 3) (d sa sb : BitVec 5) (s : State) : Out :=
  onWf (coreOk c) (s.coreStep c fun x => do
    needCap 0
    legal (isFloatTy ty && d == 0 && alignedSlot 4 sa && alignedSlot 4 sb)
    let v ← slotsRead x (slotRange sa 4 ++ slotRange sb 4)
    let g (k : BitVec 5) : List Nat := lanes ty (ofLanes 64 ((slotRange k 4).map fun i => tget v i 0))
    let fma (a : Nat) (p : Nat × Nat) : Nat := fpFma (laneFmt ty) p.1 p.2 a
    setRegs x fun c => { c with va := unlanes ty (List.zipWith fma (lanes ty c.va) ((g sa).zip (g sb))) }
    lanewise.vecDone x)

/-- VLDS (Table 3-9). -/
def execVlds (c : Nat) (ty : BitVec 3) (d sa sb : BitVec 5) (s : State) : Out :=
  onWf (coreOk c) (s.coreStep c fun x => do
    needCap 0
    legal (ty == 3 && d == 0 && sb == 0 && alignedSlot 4 sa)
    let v ← slotsRead x (slotRange sa 4)
    setRegs x fun c => { c with va := ofLanes 64 ((slotRange sa 4).map fun k => tget v k 0) }
    lanewise.vecDone x)

/-- VSTS (Table 3-9, R97). -/
def execVsts (c : Nat) (ty : BitVec 3) (d sa sb : BitVec 5) (s : State) : Out :=
  onWf (coreOk c) (s.coreStep c fun x => do
    needCap 0
    legal (ty == 3 && sa == 0 && sb == 0 && alignedSlot 4 d)
    let va := ((← get).core x.g).va
    slotsWrite x ((List.range 4).map fun i => (d.toNat + i, lane 64 va i))
    lanewise.vecDone x)

/-- VBCAST (Table 3-9). -/
def execVbcast (c : Nat) (ty : BitVec 3) (d sa sb : BitVec 5) (s : State) : Out :=
  onWf (coreOk c) (s.coreStep c fun x => do
    needCap 0
    legal (isTy ty && d == 0 && sb == 0)
    let v ← slotsRead x [sa.toNat]
    setRegs x fun c => { c with va := unlanes ty (List.replicate (256 / laneWidth ty) (tget v sa.toNat 0).toNat) }
    lanewise.vecDone x)

/-- VEXT (Table 3-9). -/
def execVext (c : Nat) (ty : BitVec 3) (d sa sb : BitVec 5) (s : State) : Out :=
  onWf (coreOk c) (s.coreStep c fun x => do
    needCap 0
    legal (isTy ty && sa == 0 && decide (sb.toNat < 256 / laneWidth ty))
    let va := ((← get).core x.g).va
    slotsWrite x [(d.toNat, BitVec.ofNat 64 (fld va (laneWidth ty * sb.toNat) (laneWidth ty)))]
    lanewise.vecDone x)

/-- VINS (Table 3-9). -/
def execVins (c : Nat) (ty : BitVec 3) (d sa sb : BitVec 5) (s : State) : Out :=
  onWf (coreOk c) (s.coreStep c fun x => do
    needCap 0
    legal (isTy ty && d == 0 && decide (sb.toNat < 256 / laneWidth ty))
    let v ← slotsRead x [sa.toNat]
    setRegs x fun c => { c with va := setFld c.va (laneWidth ty * sb.toNat) (laneWidth ty) (tget v sa.toNat 0).toNat }
    lanewise.vecDone x)

/-- VRADD (R91). -/
def execVradd (c : Nat) (ty : BitVec 3) (d sa sb : BitVec 5) (s : State) : Out :=
  onWf (coreOk c) (s.coreStep c fun x => reduce x ty d sa sb laneAdd (· + ·))

/-- VRMIN (R91). -/
def execVrmin (c : Nat) (ty : BitVec 3) (d sa sb : BitVec 5) (s : State) : Out :=
  onWf (coreOk c) (s.coreStep c fun x => reduce x ty d sa sb laneMin min)

/-- VRMAX (R91). -/
def execVrmax (c : Nat) (ty : BitVec 3) (d sa sb : BitVec 5) (s : State) : Out :=
  onWf (coreOk c) (s.coreStep c fun x => reduce x ty d sa sb laneMax max)

end Sys2Proof.Machine
end

