-- ==== Sys2Proof/Machine/Dispatch.lean ====
section
/-! DEFINITION. The meaning of every command, one arm for each constructor. -/

namespace Sys2Proof.Machine

def exec (i : Instr) (s : State) : Host.Outcome State Fault Refusal :=
  match i with
  | .rds h line shared hash => Sys2Proof.Machine.execRds h line shared hash s
  | .rdx h line hash => Sys2Proof.Machine.execRdx h line hash s
  | .upg h line => Sys2Proof.Machine.execUpg h line s
  | .claim h line => Sys2Proof.Machine.execClaim h line s
  | .rdcur h line => Sys2Proof.Machine.execRdcur h line s
  | .wrline h line d => Sys2Proof.Machine.execWrline h line d s
  | .wrpart h line p => Sys2Proof.Machine.execWrpart h line p s
  | .atom h pa a => Sys2Proof.Machine.execAtom h pa a s
  | .wbreq h line => Sys2Proof.Machine.execWbreq h line s
  | .offer h line => Sys2Proof.Machine.execOffer h line s
  | .drop h line => Sys2Proof.Machine.execDrop h line s
  | .cwbreq h line => Sys2Proof.Machine.execCwbreq h line s
  | .cflreq h line => Sys2Proof.Machine.execCflreq h line s
  | .hazerd h line => Sys2Proof.Machine.execHazerd h line s
  | .snps req holder line => Sys2Proof.Machine.execSnps req holder line s
  | .snpx req holder line => Sys2Proof.Machine.execSnpx req holder line s
  | .snpinv req holder line => Sys2Proof.Machine.execSnpinv req holder line s
  | .snpcur req holder line => Sys2Proof.Machine.execSnpcur req holder line s
  | .snpflush req holder line => Sys2Proof.Machine.execSnpflush req holder line s
  | .snpclean req holder line => Sys2Proof.Machine.execSnpclean req holder line s
  | .go h line => Sys2Proof.Machine.execGo h line s
  | .cmp h line => Sys2Proof.Machine.execCmp h line s
  | .cmpack h line => Sys2Proof.Machine.execCmpack h line s
  | .wbgo h line => Sys2Proof.Machine.execWbgo h line s
  | .wbcancel h line => Sys2Proof.Machine.execWbcancel h line s
  | .accept h line => Sys2Proof.Machine.execAccept h line s
  | .decline h line => Sys2Proof.Machine.execDecline h line s
  | .acceptheld h line => Sys2Proof.Machine.execAcceptheld h line s
  | .acki holder line => Sys2Proof.Machine.execAcki holder line s
  | .acks holder line => Sys2Proof.Machine.execAcks holder line s
  | .acke holder line => Sys2Proof.Machine.execAcke holder line s
  | .acko holder line => Sys2Proof.Machine.execAcko holder line s
  | .notpresent holder line => Sys2Proof.Machine.execNotpresent holder line s
  | .hazeno h line => Sys2Proof.Machine.execHazeno h line s
  | .err h pa code => Sys2Proof.Machine.execErr h pa code s
  | .datas h line d => Sys2Proof.Machine.execDatas h line d s
  | .datae h line d => Sys2Proof.Machine.execDatae h line d s
  | .datam h line d => Sys2Proof.Machine.execDatam h line d s
  | .fwds h line d => Sys2Proof.Machine.execFwds h line d s
  | .fwdm h line d => Sys2Proof.Machine.execFwdm h line d s
  | .snpdata holder line d st => Sys2Proof.Machine.execSnpdata holder line d st s
  | .wbdata h line d => Sys2Proof.Machine.execWbdata h line d s
  | .offerdata h line d => Sys2Proof.Machine.execOfferdata h line d s
  | .curdata h line d => Sys2Proof.Machine.execCurdata h line d s
  | .hazedata h line d => Sys2Proof.Machine.execHazedata h line d s
  | .atomdata h pa old poison => Sys2Proof.Machine.execAtomdata h pa old poison s
  | .mrd line => Sys2Proof.Machine.execMrd line s
  | .mwr line => Sys2Proof.Machine.execMwr line s
  | .mmerge line p => Sys2Proof.Machine.execMmerge line p s
  | .matom req pa a => Sys2Proof.Machine.execMatom req pa a s
  | .mwrgo line => Sys2Proof.Machine.execMwrgo line s
  | .mwrdata line d => Sys2Proof.Machine.execMwrdata line d s
  | .mdata line d => Sys2Proof.Machine.execMdata line d s
  | .faultMessage source kind tid addr => Sys2Proof.Machine.execFaultMessage source kind tid addr s
  | .residencyUpdate c tid tswitch => Sys2Proof.Machine.execResidencyUpdate c tid tswitch s
  | .residencyAnswer c cls mask => Sys2Proof.Machine.execResidencyAnswer c cls mask s
  | .routerMessage tid vector => Sys2Proof.Machine.execRouterMessage tid vector s
  | .interruptDelivery c tid vector => Sys2Proof.Machine.execInterruptDelivery c tid vector s
  | .blockNotice engine tid => Sys2Proof.Machine.execBlockNotice engine tid s
  | .drainedNotice engine tid aborted => Sys2Proof.Machine.execDrainedNotice engine tid aborted s
  | .scrubbedNotice engine tid => Sys2Proof.Machine.execScrubbedNotice engine tid s
  | .tlbiBroadcastTake c issuer => Sys2Proof.Machine.execTlbiBroadcastTake c issuer s
  | .rangeStepAck => Sys2Proof.Machine.execRangeStepAck s
  | .keyUpdate stack => Sys2Proof.Machine.execKeyUpdate stack s
  | .gateCheck c eid target gate => Sys2Proof.Machine.execGateCheck c eid target gate s
  | .saveAreaAcked c => Sys2Proof.Machine.execSaveAreaAcked c s
  | .pauseNoticeCore c tid => Sys2Proof.Machine.execPauseNoticeCore c tid s
  | .pauseNoticeEngine u tid => Sys2Proof.Machine.execPauseNoticeEngine u tid s
  | .routerPauseNotice tid => Sys2Proof.Machine.execRouterPauseNotice tid s
  | .routerRecordRequest tid => Sys2Proof.Machine.execRouterRecordRequest tid s
  | .pausedNotice u tid => Sys2Proof.Machine.execPausedNotice u tid s
  | .sealNotice n tid => Sys2Proof.Machine.execSealNotice n tid s
  | .sealedNotice n tid => Sys2Proof.Machine.execSealedNotice n tid s
  | .sleepRequest d => Sys2Proof.Machine.execSleepRequest d s
  | .sleepAnswer d agree => Sys2Proof.Machine.execSleepAnswer d agree s
  | .seqTableRequest purpose param => Sys2Proof.Machine.execSeqTableRequest purpose param s
  | .fullReset cause => Sys2Proof.Machine.execFullReset cause s
  | .mirrorLeave => Sys2Proof.Machine.execMirrorLeave s
  | .heldFrameCopy qpn => Sys2Proof.Machine.execHeldFrameCopy qpn s
  | .unitDrained d => Sys2Proof.Machine.execUnitDrained d s
  | .guestWindowAccess h offset op => Sys2Proof.Machine.execGuestWindowAccess h offset op s
  | .ringFrameReceive src dst channel frame => Sys2Proof.Machine.execRingFrameReceive src dst channel frame s
  | .cacheSectionArrival compute die => Sys2Proof.Machine.execCacheSectionArrival compute die s
  | .brixmenRequest ip port bytes => Sys2Proof.Machine.execBrixmenRequest ip port bytes s
  | .add c d sa sb => Sys2Proof.Machine.execAdd c d sa sb s
  | .sub c d sa sb => Sys2Proof.Machine.execSub c d sa sb s
  | .andT c d sa sb => Sys2Proof.Machine.execAndT c d sa sb s
  | .orT c d sa sb => Sys2Proof.Machine.execOrT c d sa sb s
  | .xor c d sa sb => Sys2Proof.Machine.execXor c d sa sb s
  | .shl c d sa sb => Sys2Proof.Machine.execShl c d sa sb s
  | .shr c d sa sb => Sys2Proof.Machine.execShr c d sa sb s
  | .sar c d sa sb => Sys2Proof.Machine.execSar c d sa sb s
  | .ror c d sa sb => Sys2Proof.Machine.execRor c d sa sb s
  | .min c d sa sb => Sys2Proof.Machine.execMin c d sa sb s
  | .max c d sa sb => Sys2Proof.Machine.execMax c d sa sb s
  | .minu c d sa sb => Sys2Proof.Machine.execMinu c d sa sb s
  | .maxu c d sa sb => Sys2Proof.Machine.execMaxu c d sa sb s
  | .slt c d sa sb => Sys2Proof.Machine.execSlt c d sa sb s
  | .sltu c d sa sb => Sys2Proof.Machine.execSltu c d sa sb s
  | .movs c d sa sb => Sys2Proof.Machine.execMovs c d sa sb s
  | .clz c d sa sb => Sys2Proof.Machine.execClz c d sa sb s
  | .ctz c d sa sb => Sys2Proof.Machine.execCtz c d sa sb s
  | .popc c d sa sb => Sys2Proof.Machine.execPopc c d sa sb s
  | .bswap c d sa sb => Sys2Proof.Machine.execBswap c d sa sb s
  | .mul c d sa sb => Sys2Proof.Machine.execMul c d sa sb s
  | .mulh c d sa sb => Sys2Proof.Machine.execMulh c d sa sb s
  | .mulhu c d sa sb => Sys2Proof.Machine.execMulhu c d sa sb s
  | .div c d sa sb => Sys2Proof.Machine.execDiv c d sa sb s
  | .divu c d sa sb => Sys2Proof.Machine.execDivu c d sa sb s
  | .rem c d sa sb => Sys2Proof.Machine.execRem c d sa sb s
  | .remu c d sa sb => Sys2Proof.Machine.execRemu c d sa sb s
  | .aese c d sa sb => Sys2Proof.Machine.execAese c d sa sb s
  | .aesel c d sa sb => Sys2Proof.Machine.execAesel c d sa sb s
  | .aesd c d sa sb => Sys2Proof.Machine.execAesd c d sa sb s
  | .aesdl c d sa sb => Sys2Proof.Machine.execAesdl c d sa sb s
  | .aessub c d sa sb => Sys2Proof.Machine.execAessub c d sa sb s
  | .sha256r c d sa sb => Sys2Proof.Machine.execSha256r c d sa sb s
  | .sha256w c d sa sb => Sys2Proof.Machine.execSha256w c d sa sb s
  | .sha512r c d sa sb => Sys2Proof.Machine.execSha512r c d sa sb s
  | .sha512w c d sa sb => Sys2Proof.Machine.execSha512w c d sa sb s
  | .crc32cb c d sa sb => Sys2Proof.Machine.execCrc32cb c d sa sb s
  | .crc32ch c d sa sb => Sys2Proof.Machine.execCrc32ch c d sa sb s
  | .crc32cw c d sa sb => Sys2Proof.Machine.execCrc32cw c d sa sb s
  | .crc32cd c d sa sb => Sys2Proof.Machine.execCrc32cd c d sa sb s
  | .fadd c d sa sb => Sys2Proof.Machine.execFadd c d sa sb s
  | .fsub c d sa sb => Sys2Proof.Machine.execFsub c d sa sb s
  | .fmul c d sa sb => Sys2Proof.Machine.execFmul c d sa sb s
  | .fdiv c d sa sb => Sys2Proof.Machine.execFdiv c d sa sb s
  | .fsqrt c d sa sb => Sys2Proof.Machine.execFsqrt c d sa sb s
  | .fmin c d sa sb => Sys2Proof.Machine.execFmin c d sa sb s
  | .fmax c d sa sb => Sys2Proof.Machine.execFmax c d sa sb s
  | .fma c d sa sb => Sys2Proof.Machine.execFma c d sa sb s
  | .fcvti c d sa sb => Sys2Proof.Machine.execFcvti c d sa sb s
  | .fcvtf c d sa sb => Sys2Proof.Machine.execFcvtf c d sa sb s
  | .flt c d sa sb => Sys2Proof.Machine.execFlt c d sa sb s
  | .feq c d sa sb => Sys2Proof.Machine.execFeq c d sa sb s
  | .vadd c ty d sa sb => Sys2Proof.Machine.execVadd c ty d sa sb s
  | .vsub c ty d sa sb => Sys2Proof.Machine.execVsub c ty d sa sb s
  | .vmul c ty d sa sb => Sys2Proof.Machine.execVmul c ty d sa sb s
  | .vand c ty d sa sb => Sys2Proof.Machine.execVand c ty d sa sb s
  | .vor c ty d sa sb => Sys2Proof.Machine.execVor c ty d sa sb s
  | .vxor c ty d sa sb => Sys2Proof.Machine.execVxor c ty d sa sb s
  | .vmin c ty d sa sb => Sys2Proof.Machine.execVmin c ty d sa sb s
  | .vmax c ty d sa sb => Sys2Proof.Machine.execVmax c ty d sa sb s
  | .vminu c ty d sa sb => Sys2Proof.Machine.execVminu c ty d sa sb s
  | .vmaxu c ty d sa sb => Sys2Proof.Machine.execVmaxu c ty d sa sb s
  | .vshl c ty d sa sb => Sys2Proof.Machine.execVshl c ty d sa sb s
  | .vshr c ty d sa sb => Sys2Proof.Machine.execVshr c ty d sa sb s
  | .vsar c ty d sa sb => Sys2Proof.Machine.execVsar c ty d sa sb s
  | .vcmpeq c ty d sa sb => Sys2Proof.Machine.execVcmpeq c ty d sa sb s
  | .vcmplt c ty d sa sb => Sys2Proof.Machine.execVcmplt c ty d sa sb s
  | .vcmpltu c ty d sa sb => Sys2Proof.Machine.execVcmpltu c ty d sa sb s
  | .vfma c ty d sa sb => Sys2Proof.Machine.execVfma c ty d sa sb s
  | .vlds c ty d sa sb => Sys2Proof.Machine.execVlds c ty d sa sb s
  | .vsts c ty d sa sb => Sys2Proof.Machine.execVsts c ty d sa sb s
  | .vbcast c ty d sa sb => Sys2Proof.Machine.execVbcast c ty d sa sb s
  | .vext c ty d sa sb => Sys2Proof.Machine.execVext c ty d sa sb s
  | .vins c ty d sa sb => Sys2Proof.Machine.execVins c ty d sa sb s
  | .vradd c ty d sa sb => Sys2Proof.Machine.execVradd c ty d sa sb s
  | .vrmin c ty d sa sb => Sys2Proof.Machine.execVrmin c ty d sa sb s
  | .vrmax c ty d sa sb => Sys2Proof.Machine.execVrmax c ty d sa sb s
  | .afadd c z order wide d sa sb => Sys2Proof.Machine.execAfadd c z order wide d sa sb s
  | .aswap c z order wide d sa sb => Sys2Proof.Machine.execAswap c z order wide d sa sb s
  | .acas c z order wide d sa sb => Sys2Proof.Machine.execAcas c z order wide d sa sb s
  | .amin c z order wide d sa sb => Sys2Proof.Machine.execAmin c z order wide d sa sb s
  | .amax c z order wide d sa sb => Sys2Proof.Machine.execAmax c z order wide d sa sb s
  | .aminu c z order wide d sa sb => Sys2Proof.Machine.execAminu c z order wide d sa sb s
  | .amaxu c z order wide d sa sb => Sys2Proof.Machine.execAmaxu c z order wide d sa sb s
  | .aand c z order wide d sa sb => Sys2Proof.Machine.execAand c z order wide d sa sb s
  | .aor c z order wide d sa sb => Sys2Proof.Machine.execAor c z order wide d sa sb s
  | .axor c z order wide d sa sb => Sys2Proof.Machine.execAxor c z order wide d sa sb s
  | .li c imm => Sys2Proof.Machine.execLi c imm s
  | .addi c imm => Sys2Proof.Machine.execAddi c imm s
  | .shi c imm => Sys2Proof.Machine.execShi c imm s
  | .andi c imm => Sys2Proof.Machine.execAndi c imm s
  | .lix c imm => Sys2Proof.Machine.execLix c imm s
  | .addx c imm => Sys2Proof.Machine.execAddx c imm s
  | .liy c imm => Sys2Proof.Machine.execLiy c imm s
  | .addy c imm => Sys2Proof.Machine.execAddy c imm s
  | .addf c imm => Sys2Proof.Machine.execAddf c imm s
  | .ori c imm => Sys2Proof.Machine.execOri c imm s
  | .xori c imm => Sys2Proof.Machine.execXori c imm s
  | .shifti c imm => Sys2Proof.Machine.execShifti c imm s
  | .mov c imm => Sys2Proof.Machine.execMov c imm s
  | .ret c imm => Sys2Proof.Machine.execRet c imm s
  | .ja c imm => Sys2Proof.Machine.execJa c imm s
  | .calla c imm => Sys2Proof.Machine.execCalla c imm s
  | .ld c base size disp => Sys2Proof.Machine.execLd c base size disp s
  | .lds c base size disp => Sys2Proof.Machine.execLds c base size disp s
  | .st c base size disp => Sys2Proof.Machine.execSt c base size disp s
  | .addMem c base size disp => Sys2Proof.Machine.execAddMem c base size disp s
  | .subMem c base size disp => Sys2Proof.Machine.execSubMem c base size disp s
  | .andMem c base size disp => Sys2Proof.Machine.execAndMem c base size disp s
  | .orMem c base size disp => Sys2Proof.Machine.execOrMem c base size disp s
  | .xorMem c base size disp => Sys2Proof.Machine.execXorMem c base size disp s
  | .mulMem c base size disp => Sys2Proof.Machine.execMulMem c base size disp s
  | .ldx c base size disp => Sys2Proof.Machine.execLdx c base size disp s
  | .stx c base size disp => Sys2Proof.Machine.execStx c base size disp s
  | .ldy c base size disp => Sys2Proof.Machine.execLdy c base size disp s
  | .sty c base size disp => Sys2Proof.Machine.execSty c base size disp s
  | .lea c base size disp => Sys2Proof.Machine.execLea c base size disp s
  | .vld c base size disp => Sys2Proof.Machine.execVld c base size disp s
  | .vst c base size disp => Sys2Proof.Machine.execVst c base size disp s
  | .bCond c cond slot disp => Sys2Proof.Machine.execBCond c cond slot disp s
  | .jmp c disp => Sys2Proof.Machine.execJmp c disp s
  | .call c disp => Sys2Proof.Machine.execCall c disp s
  | .mfsr c opnd => Sys2Proof.Machine.execMfsr c opnd s
  | .mtsr c opnd => Sys2Proof.Machine.execMtsr c opnd s
  | .mfsw c opnd => Sys2Proof.Machine.execMfsw c opnd s
  | .mtsw c opnd => Sys2Proof.Machine.execMtsw c opnd s
  | .sync c opnd => Sys2Proof.Machine.execSync c opnd s
  | .ifence c opnd => Sys2Proof.Machine.execIfence c opnd s
  | .fence c opnd => Sys2Proof.Machine.execFence c opnd s
  | .trap c opnd => Sys2Proof.Machine.execTrap c opnd s
  | .svc c opnd => Sys2Proof.Machine.execSvc c opnd s
  | .hvc c opnd => Sys2Proof.Machine.execHvc c opnd s
  | .eret c opnd => Sys2Proof.Machine.execEret c opnd s
  | .wfi c opnd => Sys2Proof.Machine.execWfi c opnd s
  | .brk c opnd => Sys2Proof.Machine.execBrk c opnd s
  | .gate c opnd => Sys2Proof.Machine.execGate c opnd s
  | .enter c opnd => Sys2Proof.Machine.execEnter c opnd s
  | .exit c opnd => Sys2Proof.Machine.execExit c opnd s
  | .pflush c opnd => Sys2Proof.Machine.execPflush c opnd s
  | .pbar c opnd => Sys2Proof.Machine.execPbar c opnd s
  | .pmrd c opnd => Sys2Proof.Machine.execPmrd c opnd s
  | .pmstop c opnd => Sys2Proof.Machine.execPmstop c opnd s
  | .pmgo c opnd => Sys2Proof.Machine.execPmgo c opnd s
  | .tlbiv c opnd => Sys2Proof.Machine.execTlbiv c opnd s
  | .tlbiall c opnd => Sys2Proof.Machine.execTlbiall c opnd s
  | .tlbivb c opnd => Sys2Proof.Machine.execTlbivb c opnd s
  | .tlbiallb c opnd => Sys2Proof.Machine.execTlbiallb c opnd s
  | .tlbitid c opnd => Sys2Proof.Machine.execTlbitid c opnd s
  | .cwb c opnd => Sys2Proof.Machine.execCwb c opnd s
  | .cflush c opnd => Sys2Proof.Machine.execCflush c opnd s
  | .cinv c opnd => Sys2Proof.Machine.execCinv c opnd s
  | .czero c opnd => Sys2Proof.Machine.execCzero c opnd s
  | .cpf c opnd => Sys2Proof.Machine.execCpf c opnd s
  | .cwbset c opnd => Sys2Proof.Machine.execCwbset c opnd s
  | .cflushset c opnd => Sys2Proof.Machine.execCflushset c opnd s
  | .cinvset c opnd => Sys2Proof.Machine.execCinvset c opnd s
  | .tswitch c opnd => Sys2Proof.Machine.execTswitch c opnd s
  | .iclr c opnd => Sys2Proof.Machine.execIclr c opnd s
  | .vinj c opnd => Sys2Proof.Machine.execVinj c opnd s
  | .interruptEntry c => Sys2Proof.Machine.execInterruptEntry c s
  | .wfiWake c => Sys2Proof.Machine.execWfiWake c s
  | .brMispred c indirect => Sys2Proof.Machine.execBrMispred c indirect s
  | .storeDrain c => Sys2Proof.Machine.execStoreDrain c s
  | .hazePromote c line => Sys2Proof.Machine.execHazePromote c line s
  | .pageWalk c va acc => Sys2Proof.Machine.execPageWalk c va acc s
  | .tlbiAckTimeout c issuer => Sys2Proof.Machine.execTlbiAckTimeout c issuer s
  | .l2Evict c line => Sys2Proof.Machine.execL2Evict c line s
  | .orderGrantObserved lostAt => Sys2Proof.Machine.execOrderGrantObserved lostAt s
  | .homeSnoopTimeout line holder => Sys2Proof.Machine.execHomeSnoopTimeout line holder s
  | .homeWaitExpired line => Sys2Proof.Machine.execHomeWaitExpired line s
  | .flitHop die flit words routeOk => Sys2Proof.Machine.execFlitHop die flit words routeOk s
  | .initiatorTimeout node tag wrLine => Sys2Proof.Machine.execInitiatorTimeout node tag wrLine s
  | .retryReissue node tag wrLine => Sys2Proof.Machine.execRetryReissue node tag wrLine s
  | .tagReserveExpiry node tag => Sys2Proof.Machine.execTagReserveExpiry node tag s
  | .ringReplayTimeout src dst => Sys2Proof.Machine.execRingReplayTimeout src dst s
  | .ringIdleDue src dst => Sys2Proof.Machine.execRingIdleDue src dst s
  | .drainLimitExpiry d => Sys2Proof.Machine.execDrainLimitExpiry d s
  | .timeBaseUpdate periods => Sys2Proof.Machine.execTimeBaseUpdate periods s
  | .timerCompare c => Sys2Proof.Machine.execTimerCompare c s
  | .htimerCompare c => Sys2Proof.Machine.execHtimerCompare c s
  | .quiesceCmdGo tid => Sys2Proof.Machine.execQuiesceCmdGo tid s
  | .quiesceDrainExpired => Sys2Proof.Machine.execQuiesceDrainExpired s
  | .teCtlWrite tid value => Sys2Proof.Machine.execTeCtlWrite tid value s
  | .governorInterval milliamps => Sys2Proof.Machine.execGovernorInterval milliamps s
  | .dramTokenWaitEnd line => Sys2Proof.Machine.execDramTokenWaitEnd line s
  | .dieBudgetReport cls die watts temps => Sys2Proof.Machine.execDieBudgetReport cls die watts temps s
  | .wardenCreate req => Sys2Proof.Machine.execWardenCreate req s
  | .addPage req => Sys2Proof.Machine.execAddPage req s
  | .addEntry req => Sys2Proof.Machine.execAddEntry req s
  | .sealRow req => Sys2Proof.Machine.execSealRow req s
  | .attest req => Sys2Proof.Machine.execAttest req s
  | .wardenDestroy req => Sys2Proof.Machine.execWardenDestroy req s
  | .wardenRestart => Sys2Proof.Machine.execWardenRestart s
  | .entropyFailure => Sys2Proof.Machine.execEntropyFailure s
  | .seedTripleRefill c l1i core l2 => Sys2Proof.Machine.execSeedTripleRefill c l1i core l2 s
  | .cutHold domain cut => Sys2Proof.Machine.execCutHold domain cut s
  | .enclaveGraceExpiry domain => Sys2Proof.Machine.execEnclaveGraceExpiry domain s
  | .forcedExit c => Sys2Proof.Machine.execForcedExit c s
  | .qpCreate e v => Sys2Proof.Machine.execQpCreate e v s
  | .qpDestroy e v => Sys2Proof.Machine.execQpDestroy e v s
  | .qpRearm e v => Sys2Proof.Machine.execQpRearm e v s
  | .qpQuery e v => Sys2Proof.Machine.execQpQuery e v s
  | .doorbell e tid idx v => Sys2Proof.Machine.execDoorbell e tid idx v s
  | .frameReceive p link fcsOk bytes => Sys2Proof.Machine.execFrameReceive p link fcsOk bytes s
  | .frameTransmitted p link => Sys2Proof.Machine.execFrameTransmitted p link s
  | .rcAckTimeout qpn => Sys2Proof.Machine.execRcAckTimeout qpn s
  | .cnpRateRecovery qpn => Sys2Proof.Machine.execCnpRateRecovery qpn s
  | .linkStateChange p link up => Sys2Proof.Machine.execLinkStateChange p link up s
  | .mgmtFrameReceive bytes => Sys2Proof.Machine.execMgmtFrameReceive bytes s
  | .smbusQuickCommand addr write => Sys2Proof.Machine.execSmbusQuickCommand addr write s
  | .smbusReadByte addr code => Sys2Proof.Machine.execSmbusReadByte addr code s
  | .dtlRd h => Sys2Proof.Machine.execDtlRd h s
  | .dtlWr h d => Sys2Proof.Machine.execDtlWr h d s
  | .dtlWrp h d => Sys2Proof.Machine.execDtlWrp h d s
  | .dtlRddata h d => Sys2Proof.Machine.execDtlRddata h d s
  | .dtlWrack h => Sys2Proof.Machine.execDtlWrack h s
  | .dtlMsg h => Sys2Proof.Machine.execDtlMsg h s
  | .dtlBudget h d => Sys2Proof.Machine.execDtlBudget h d s
  | .dtlNak h => Sys2Proof.Machine.execDtlNak h s
  | .guestBucketReady stream => Sys2Proof.Machine.execGuestBucketReady stream s
  | .guestFenceComplete => Sys2Proof.Machine.execGuestFenceComplete s
  | .guestLinkLoss => Sys2Proof.Machine.execGuestLinkLoss s
  | .guestBudgetTimeout => Sys2Proof.Machine.execGuestBudgetTimeout s
  | .guestSleepTimeout => Sys2Proof.Machine.execGuestSleepTimeout s
  | .fwCtlWrite v => Sys2Proof.Machine.execFwCtlWrite v s
  | .jobGo l v => Sys2Proof.Machine.execJobGo l v s
  | .jobAbort l v => Sys2Proof.Machine.execJobAbort l v s
  | .laneRearm l v => Sys2Proof.Machine.execLaneRearm l v s
  | .compressorBlock l => Sys2Proof.Machine.execCompressorBlock l s
  | .scrubGo k v => Sys2Proof.Machine.execScrubGo k v s
  | .scrubAbort k v => Sys2Proof.Machine.execScrubAbort k v s
  | .scrubStep k => Sys2Proof.Machine.execScrubStep k s
  | .remapWrite k n v => Sys2Proof.Machine.execRemapWrite k n v s
  | .remapCopyStep k => Sys2Proof.Machine.execRemapCopyStep k s
  | .sliceRemapWrite h n v => Sys2Proof.Machine.execSliceRemapWrite h n v s
  | .flipArm slice n v => Sys2Proof.Machine.execFlipArm slice n v s
  | .mcErrClear k v => Sys2Proof.Machine.execMcErrClear k v s
  | .clrErr h v => Sys2Proof.Machine.execClrErr h v s
  | .sliceLfsrWrite h v => Sys2Proof.Machine.execSliceLfsrWrite h v s
  | .violationClear block v => Sys2Proof.Machine.execViolationClear block v s
  | .statClear r v => Sys2Proof.Machine.execStatClear r v s
  | .pvClear u v => Sys2Proof.Machine.execPvClear u v s
  | .registerWrite node tid pa wide v => Sys2Proof.Machine.execRegisterWrite node tid pa wide v s
  | .mtAdd v => Sys2Proof.Machine.execMtAdd v s
  | .mtRemove v => Sys2Proof.Machine.execMtRemove v s
  | .mtRearm v => Sys2Proof.Machine.execMtRearm v s
  | .helloTimer => Sys2Proof.Machine.execHelloTimer s
  | .heartbeatTimer => Sys2Proof.Machine.execHeartbeatTimer s
  | .helloFrame f => Sys2Proof.Machine.execHelloFrame f s
  | .heartbeatFrame f => Sys2Proof.Machine.execHeartbeatFrame f s
  | .joinFrame f => Sys2Proof.Machine.execJoinFrame f s
  | .joinOkFrame f => Sys2Proof.Machine.execJoinOkFrame f s
  | .joinTimeout => Sys2Proof.Machine.execJoinTimeout s
  | .contrailDrop f => Sys2Proof.Machine.execContrailDrop f s
  | .stateFrame f => Sys2Proof.Machine.execStateFrame f s
  | .linesFrame f => Sys2Proof.Machine.execLinesFrame f s
  | .outputFrame f => Sys2Proof.Machine.execOutputFrame f s
  | .endFrame f => Sys2Proof.Machine.execEndFrame f s
  | .ackFrame f => Sys2Proof.Machine.execAckFrame f s
  | .intentFrame f => Sys2Proof.Machine.execIntentFrame f s
  | .grantFrame f => Sys2Proof.Machine.execGrantFrame f s
  | .sentFrame f => Sys2Proof.Machine.execSentFrame f s
  | .nakFrame f => Sys2Proof.Machine.execNakFrame f s
  | .resendFrame f => Sys2Proof.Machine.execResendFrame f s
  | .resendGapTimeout => Sys2Proof.Machine.execResendGapTimeout s
  | .epochBoundaryStart m => Sys2Proof.Machine.execEpochBoundaryStart m s
  | .boundaryAbandon m => Sys2Proof.Machine.execBoundaryAbandon m s
  | .boundaryRetry m => Sys2Proof.Machine.execBoundaryRetry m s
  | .captureRead m => Sys2Proof.Machine.execCaptureRead m s
  | .epochApply m => Sys2Proof.Machine.execEpochApply m s
  | .partnerLoss => Sys2Proof.Machine.execPartnerLoss s
  | .mirrorLeaveExpiry => Sys2Proof.Machine.execMirrorLeaveExpiry s
  | .pkgCmdHold => Sys2Proof.Machine.execPkgCmdHold s
  | .pkgCmdOff => Sys2Proof.Machine.execPkgCmdOff s
  | .domReqRun d => Sys2Proof.Machine.execDomReqRun d s
  | .domReqRetain d => Sys2Proof.Machine.execDomReqRetain d s
  | .domReqOff d => Sys2Proof.Machine.execDomReqOff d s
  | .doorAnswer d a => Sys2Proof.Machine.execDoorAnswer d a s
  | .domainCloseComplete d => Sys2Proof.Machine.execDomainCloseComplete d s
  | .domainWakeComplete d => Sys2Proof.Machine.execDomainWakeComplete d s
  | .wakeTimer => Sys2Proof.Machine.execWakeTimer s
  | .avsResponse master good => Sys2Proof.Machine.execAvsResponse master good s
  | .avsStatusRead master vdone => Sys2Proof.Machine.execAvsStatusRead master vdone s
  | .avsRequestFail master => Sys2Proof.Machine.execAvsRequestFail master s
  | .tbStep v => Sys2Proof.Machine.execTbStep v s
  | .tbSlew v => Sys2Proof.Machine.execTbSlew v s
  | .powerCeilWrite v => Sys2Proof.Machine.execPowerCeilWrite v s
  | .fenceComplete u => Sys2Proof.Machine.execFenceComplete u s
  | .fcAckedWrite v => Sys2Proof.Machine.execFcAckedWrite v s
  | .acknowledgeStarvation agent starving => Sys2Proof.Machine.execAcknowledgeStarvation agent starving s
  | .referenceClockLost island => Sys2Proof.Machine.execReferenceClockLost island s
  | .referenceClockReturn island => Sys2Proof.Machine.execReferenceClockReturn island s
  | .resetCmdFull index => Sys2Proof.Machine.execResetCmdFull index s
  | .resetCmdComputeDie index => Sys2Proof.Machine.execResetCmdComputeDie index s
  | .resetCmdCore index => Sys2Proof.Machine.execResetCmdCore index s
  | .coldRstNAssert => Sys2Proof.Machine.execColdRstNAssert s
  | .vaonPowerUp => Sys2Proof.Machine.execVaonPowerUp s
  | .vaonLoss => Sys2Proof.Machine.execVaonLoss s
  | .coldResetEnd mgmtId smbAddr testMode => Sys2Proof.Machine.execColdResetEnd mgmtId smbAddr testMode s
  | .thermalTrip die temp => Sys2Proof.Machine.execThermalTrip die temp s
  | .jtagTapReset => Sys2Proof.Machine.execJtagTapReset s
  | .jtagBypass tdi => Sys2Proof.Machine.execJtagBypass tdi s
  | .jtagIdcode => Sys2Proof.Machine.execJtagIdcode s
  | .jtagSamplePreload lands preload => Sys2Proof.Machine.execJtagSamplePreload lands preload s
  | .jtagExtest lands shiftIn => Sys2Proof.Machine.execJtagExtest lands shiftIn s
  | .jtagClamp tdi => Sys2Proof.Machine.execJtagClamp tdi s
  | .jtagHighz tdi => Sys2Proof.Machine.execJtagHighz tdi s
  | .rowNop => Sys2Proof.Machine.execRowNop s
  | .rowWriteReg => Sys2Proof.Machine.execRowWriteReg s
  | .loadSection => Sys2Proof.Machine.execLoadSection s
  | .powerOn => Sys2Proof.Machine.execPowerOn s
  | .powerOff => Sys2Proof.Machine.execPowerOff s
  | .retain => Sys2Proof.Machine.execRetain s
  | .restore => Sys2Proof.Machine.execRestore s
  | .resetAssert => Sys2Proof.Machine.execResetAssert s
  | .rowResetRelease => Sys2Proof.Machine.execRowResetRelease s
  | .drain => Sys2Proof.Machine.execDrain s
  | .rowFence => Sys2Proof.Machine.execRowFence s
  | .unfence => Sys2Proof.Machine.execUnfence s
  | .avsSet => Sys2Proof.Machine.execAvsSet s
  | .linkTrain modules => Sys2Proof.Machine.execLinkTrain modules s
  | .bist pass => Sys2Proof.Machine.execBist pass s
  | .selfRefreshEnter => Sys2Proof.Machine.execSelfRefreshEnter s
  | .selfRefreshExit => Sys2Proof.Machine.execSelfRefreshExit s
  | .signal => Sys2Proof.Machine.execSignal s
  | .rowCall => Sys2Proof.Machine.execRowCall s
  | .skipIf => Sys2Proof.Machine.execSkipIf s
  | .rowEnd => Sys2Proof.Machine.execRowEnd s
  | .rowWaitMet => Sys2Proof.Machine.execRowWaitMet s
  | .rowWaitFailed => Sys2Proof.Machine.execRowWaitFailed s
  | .getResult => Sys2Proof.Machine.execGetResult s
  | .getStatus => Sys2Proof.Machine.execGetStatus s
  | .readReg => Sys2Proof.Machine.execReadReg s
  | .readPlog => Sys2Proof.Machine.execReadPlog s
  | .getAttestKey => Sys2Proof.Machine.execGetAttestKey s
  | .imageStart => Sys2Proof.Machine.execImageStart s
  | .imageData => Sys2Proof.Machine.execImageData s
  | .imageCommit => Sys2Proof.Machine.execImageCommit s
  | .runTable => Sys2Proof.Machine.execRunTable s
  | .setPkgState => Sys2Proof.Machine.execSetPkgState s
  | .resetFull => Sys2Proof.Machine.execResetFull s
  | .resetComputeDie => Sys2Proof.Machine.execResetComputeDie s
  | .resetCore => Sys2Proof.Machine.execResetCore s
  | .resetCold => Sys2Proof.Machine.execResetCold s
  | .writeReg => Sys2Proof.Machine.execWriteReg s
  | .provisionKey => Sys2Proof.Machine.execProvisionKey s
  | .raiseFloor => Sys2Proof.Machine.execRaiseFloor s
  | .setPairing => Sys2Proof.Machine.execSetPairing s
  | .plogAck => Sys2Proof.Machine.execPlogAck s
  | .setMkey => Sys2Proof.Machine.execSetMkey s
  | .subscribe => Sys2Proof.Machine.execSubscribe s
  | .setNet => Sys2Proof.Machine.execSetNet s
  | .contrailBreak f => Sys2Proof.Machine.execContrailBreak f s
  | .contrailFrameInvalid f badCheck => Sys2Proof.Machine.execContrailFrameInvalid f badCheck s
  | .dtlReservedMessage ty h => Sys2Proof.Machine.execDtlReservedMessage ty h s
  | .wardenRestartComplete => Sys2Proof.Machine.execWardenRestartComplete s
  | .entropyHealthRestored => Sys2Proof.Machine.execEntropyHealthRestored s
  | .coldRstNRelease => Sys2Proof.Machine.execColdRstNRelease s

end Sys2Proof.Machine
end

