-- ==== Sys2Proof/Machine/Words.lean ====
section
/-! DEFINITION. What a core does with an instruction word: it runs the instruction that the word encodes, and a word that
encodes none is illegal (R87). -/

namespace Sys2Proof.Machine

/-- A word of a reserved opcode or function: ILLEGAL, after the exceptions of fetching it, and no other effect (R87). -/
def State.illegalWord (s : State) (g : Nat) : State := s.coreStep g fun _ => do legal false; pure none

/-- Core g runs a word at its P: the command that the word spells, or the illegal-instruction exception (R86, R87). -/
def execWord (g : Nat) (w : BitVec 32) (s : State) : Out :=
  match decodeGliwin g w with
  | some i => exec i s
  | none => onWf (coreOk g) (s.illegalWord g)

end Sys2Proof.Machine
end

