-- ==== Sys2Proof/Machine/Step.lean ====
section
/-! DEFINITION. One step of the block: the command at the front of the queue, or what the package does by itself while no
command waits. -/

namespace Sys2Proof.Machine

/-- Every flit inside the fabric that a router can pass on moves one router further, without an error. -/
def State.hopAll (s : State) : State :=
  if s.hier.flights.isEmpty then s
  else
    (List.range s.inflight.length).foldl (fun s i =>
      (List.range 17).foldl (fun s die => if (s.inflight[i]?).any s.inFabric then s.flitHop die i [] true else s) s) s

/-- DESIGN CHOICE (log 2): with no command waiting, flits in the fabric move on, the oldest message that can arrive does, and
one reference period of 6.4 ns passes (R432). A message that no unit takes is lost. -/
def idle (s : State) : State :=
  let s := s.hopAll
  match s.inflight.find? s.mayArrive with
  | none => s.advance 1
  | some m =>
    match exec m s with
    | .next t => t.advance 1
    | _ => (s.arrive m).advance 1

/-- One step: the command at the front of the queue is taken and runs with the queue's rest. -/
def step (s : State) : Host.Outcome State Fault Refusal :=
  match s.pending with
  | c :: rest => exec c { s with pending := rest }
  | [] => .next (idle s)

/-- The state with the command that a word of the table spells put at the front of the queue. -/
def State.withFetchWord (s : State) (nbits w : Nat) : State :=
  match decodeTableWord nbits w with
  | some c => { s with pending := c :: s.pending }
  | none => s

end Sys2Proof.Machine
end

