-- ==== Sys2Proof/Safety.lean ====
section
/-! DEFINITION. What counts as a run that goes on, and the words in which statements about commands are made. -/

namespace Sys2Proof.Machine

/-- The command completes in a next state of which `P` holds. -/
def Completes (i : Instr) (s : State) (P : State → Prop) : Prop := ∃ t, exec i s = .next t ∧ P t

/-- The message, when it may arrive, completes in a next state of which `P` holds. -/
def Arrives (i : Instr) (s : State) (P : State → Prop) : Prop := s.mayArrive i = true → Completes i s P

/-- The CurData of a line, arriving in `s`, is the last that a read of an engine waits for: `r` is that read with all it got,
`s1` the state in which its engine goes on. -/
def State.ReadEnds (s : State) (h : Hdr) (line : Nat) (d : LineData) (r : Reader) (s1 : State) : Prop :=
  hdrOk h = true ∧ lineOk line = true ∧ 576 ≤ h.node ∧ s.current h = true ∧ s.mayArrive (.curdata h line d) = true ∧
    (((s.arrive (.curdata h line d)).countRead h.node).finish h).readerData h.node h.tag d = (.done r, s1)

/-- The CurData of a line, arriving in `s`, ends a read of an engine with a failure at `pa` (R302): code 0 is poison. -/
def State.ReadFails (s : State) (h : Hdr) (line : Nat) (d : LineData) (r : Reader) (code pa : Nat) (s1 : State) : Prop :=
  hdrOk h = true ∧ lineOk line = true ∧ 576 ≤ h.node ∧ s.current h = true ∧ s.mayArrive (.curdata h line d) = true ∧
    (((s.arrive (.curdata h line d)).countRead h.node).finish h).readerData h.node h.tag d = (.bad r code pa, s1)

/-- A step that neither faults nor is refused. -/
def Safe (s : State) : Prop := ∃ t, step s = .next t

/-- A line value on its way between caches, or between a cache and its home. -/
def dataInFlight (line : Nat) : Instr → Option LineData
  | .fwdm _ l d => if l == line then some d else none
  | .datam _ l d => if l == line then some d else none
  | .wbdata _ l d => if l == line then some d else none
  | .snpdata _ l d _ => if l == line then some d else none
  | _ => none

/-- The newest copy among a core's caches: of a core that its home lists, an L2 in M, O or E, or an evict-pending buffer;
forwarded data not yet granted (R245, R246). A copy that a disabled cache retained is not listed, and counts for no other
agent (R222, R225). -/
def Core.newest (c : Core) (line : Nat) (listed : Bool) : Option LineData :=
  if !c.l2On then none
  else
    match if listed then (c.l2Line line).filter fun l => l.st == .m || l.st == .o || l.st == .e else none with
    | some l => some ⟨l.bytes, l.poison⟩
    | none =>
      match (c.txns.find? fun t => t.line == line && t.data.isSome).bind (·.data) with
      | some d => some d
      | none =>
        if listed then
          (c.evict.find? fun b => b.line == line && (b.st == .m || b.st == .o || b.st == .e)).map fun b => ⟨b.bytes, b.poison⟩
        else none

/-- The newest copy of a line among all cores. -/
def State.newest (s : State) (line : Nat) : Option LineData :=
  let d := s.dirOf line
  s.cores.findSome? fun e => e.2.newest line (d.any (·.lists e.1))

/-- The value every agent reads at this moment (R21, R132): the owner's copy, data under way, the home's, DRAM's. -/
def State.lineNow (s : State) (line : Nat) : LineData :=
  match s.locate line with
  | none => ⟨0, false⟩
  | some p =>
    match s.newest line with
    | some d => d
    | none =>
      match s.inflight.findSome? (dataInFlight line) with
      | some d => d
      | none =>
        match (s.txnAt line).bind fun t => if t.fresh then t.data else none with
        | some d => d
        | none =>
          match tfind? s.hier.wq line with
          | some d => d
          | none =>
            match s.slicePeek p.home line with
            | some d => d
            | none => s.dramPeek p line

/-- Core `c` executes its next instruction now: nothing is to be done at the boundary before it (R109), and fetching it
succeeds with the state `s1` (R122, R170). `x` is what the instruction sees. -/
def Fetches (c : Nat) (s : State) (x : Ctx) (s1 : State) : Prop :=
  s.canExec c = true ∧ (s.core c).tlbMark = false ∧ s.boundary c = none ∧ x = (s.core c).ctx c ∧ fetch x s = .ok () s1

/-- The state after an instruction of core `c` whose effect has left `s`: it completes, the next address being `p`, unless it
keeps stores that must wait until earlier ones are visible; then it completes with the last of them (R97). -/
def State.ends (s : State) (c : Nat) (x : Ctx) (p : Word) (eret : Bool := false) : State :=
  if (s.core c).stall == .none then s.retire c x.sw x.n p eret else s

/-- The registers of a core are those of another state of it: Table 3-1, SW and the system registers. -/
def Core.SameRegs (k k0 : Core) : Prop :=
  k.a = k0.a ∧ k.x = k0.x ∧ k.y = k0.y ∧ k.l = k0.l ∧ k.p = k0.p ∧ k.f = k0.f ∧ k.va = k0.va ∧ k.sw = k0.sw ∧
    ∀ n, n < 0xC0 ∨ 0xE3 ≤ n → k.reg n = k0.reg n

/-- Core `k` is `k0` with P at `p`, the performance counters and STEP_COUNT counted, what belongs to one instruction alone
gone, and nothing else changed. -/
def Core.After (k k0 : Core) (p : Word) : Prop :=
  (∀ n, n < 0xC0 ∨ 0xE3 ≤ n → k.reg n = k0.reg n) ∧
    k = { k0.fresh k.idx with p := p, skipBp := false, sr := k.sr, ovf := k.ovf }

/-- A line whose home is at rest (R235, R236): populated, its base die the only one, running and not fenced, no request of it
running, none of any line waiting, no write or recall of it under way, its slice tags without an error, not owned by an
enclave, not mirrored, and room for it in the directory. -/
def State.HomeQuiet (s : State) (line : Nat) (p : Place) : Prop :=
  s.locate line = some p ∧ s.isFenced (1400 + p.base) = false ∧ s.runs (baseUncore p.base) = true ∧ s.bases.length < 2 ∧
    s.txnAt line = none ∧ s.hier.queues = [] ∧ s.recalling line = false ∧ s.txnCount p.home < 16 ∧
    tfind? s.hier.wq line = none ∧ (∀ e ∈ (s.slice p.home).lines, e.2.tag = 0) ∧
    rangeOwner s.sec.baseRanges line = none ∧ s.mirror.slots = [] ∧ s.dirTaken p.home line < 16

/-- The thirteen requests that a home admits in order, without a stream hash (Table 8-2). -/
def homeRequests (h : Hdr) (line off : Nat) (sh : Bool) (d : LineData) (q : Part) (a : AtomOp) : List Instr :=
  [.rds h line sh none, .rdx h line none, .upg h line, .claim h line, .rdcur h line, .wrline h line d, .wrpart h line q,
    .atom h (64 * line + off) a, .wbreq h line, .offer h line, .drop h line, .cwbreq h line, .cflreq h line]

/-- A frame of a TYPE from the partner is valid at a member whose pair is PAIRED (Table 15-5, R403, R409). -/
def State.TakesFrame (s : State) (ty : Nat) (f : CFrame) : Prop :=
  s.mirrorRuns = true ∧ s.mirror.left = false ∧ s.mirrorLink f.port = true ∧ s.mirror.st = 2 ∧ s.idOk f = true ∧
    lenOk ty f.payload = true

/-- The state in which the engine looks at a numbered frame whose turn it is: heard, numbered, its bytes counted. -/
def State.inTurn (s : State) (f : CFrame) : State :=
  (s.modMirror fun g => { g with heard := tput g.heard f.port s.now, expect := g.expect + 1 }).countContrail
    (f.tid.setWidth 12) f.payload.length

/-- No gap stands open any more. -/
def State.noGap (s : State) : State := s.modMirror fun g => { g with gapSince := none }

/-- The Sequencer stands at a row that has not begun, with no write waiting (R57, R60). -/
def State.AtRow (s : State) (c : RowAt) (r : SeqRun) : Prop :=
  s.seq.writes = [] ∧ s.seq.run = some r ∧ s.curRow = some c ∧ r.waiting = false

/-- The row's wait begins: what its action has answered so far. -/
def State.rowWaits (s : State) (r : SeqRun) (n : Nat) : State :=
  s.putRun { r with waiting := true, since := s.now, outcome := n }

end Sys2Proof.Machine
end

