-- ==== Sys2Proof/Certificates/Slice0/Obligations.lean ====
section
/-! DEFINITION. The statements for the provers. -/

open Sys2Proof Sys2Proof.Machine

/-! ### The block -/

/-- A step with a command at the front of the queue is that command's meaning on the state with the queue's rest. -/
def Obligations.StepRunsFront : Prop :=
  ∀ (c : Instr) (rest : List Instr) (s : State),
    step { s with pending := c :: rest } = exec c { s with pending := rest }

/-- The model's choice (log 2): on an empty queue a step always goes on, and with nothing under way only TIME, by 6.4 ns at
the rate the oscillator and TB_SLEW give, and the free counter move. -/
def Obligations.EmptyQueueStep : Prop :=
  (∀ s : State, s.pending = [] → Safe s) ∧
  ∀ s : State, s.pending = [] → s.inflight = [] → s.board.clocks = [] →
    step s = .next { s with time := { s.time with
      sub := s.time.sub + 64 * (1000000000 + s.time.slew.toInt).toNat } }

/-- No command that names only what the part has ever stops the block, in any state; a command that does not faults as
illFormed. -/
def Obligations.WellFormedCompletes : Prop :=
  ∀ (i : Instr) (s : State),
    (i.wf = true → ∃ t, exec i s = .next t) ∧ (i.wf = false → exec i s = .fault .illFormed)

/-- Every Gliwin instruction, with every value of every field, is what the decoder reads from its word (Tables 3-2 to 3-14,
4-8, 5-11, 6-10, 7-3, 11-2). -/
def Obligations.GliwinRoundTrip : Prop :=
  ∀ (i : Instr) (c : Nat) (w : BitVec 32), coreOf i = some c → encodeGliwin i = some w → decodeGliwin c w = some i

/-- Words written out bit by bit from Tables 3-2 to 3-14: the canonical NOP 0x2100_0000, the two words of R87 that are always
illegal, TSWITCH with slot 2, MFSR's word, and one word of each other format. -/
def Obligations.GliwinWords : Prop :=
  decodeGliwin 7 0x21000000#32 = some (.addi 7 0) ∧
  decodeGliwin 7 0x00000000#32 = none ∧ decodeGliwin 7 0xFFFFFFFF#32 = none ∧
  decodeGliwin 7 0xFC800800#32 = some (.tswitch 7 0x0800) ∧
  decodeGliwin 7 0xFC000000#32 = some (.mfsr 7 0) ∧
  decodeGliwin 7 0b00000000010001000011000000000001#32 = some (.add 7 2 4 6) ∧
  decodeGliwin 7 0b00010000000001000000001000000000#32 = some (.vadd 7 2 0 4 0) ∧
  decodeGliwin 7 0b00010100001000100001100001110010#32 = some (.acas 7 0 3 true 1 2 3) ∧
  decodeGliwin 7 0b01000000110000000000000000000101#32 = some (.ld 7 0 3 5) ∧
  decodeGliwin 7 0b11000000100011111111111111111111#32 = some (.bCond 7 1 3 0x3FFFF) ∧
  decodeGliwin 7 0b11000100000000000000000000000010#32 = some (.jmp 7 2)

/-- At reset the queue is empty, nothing is under way, no core runs, every system register reads its reset value of
Table 4-5, RESET_ENTRY is 0x1_0000, TIME is 0, no fence stands and no image is active. -/
def Obligations.ResetValues : Prop :=
  State.reset.pending = [] ∧ State.reset.inflight = [] ∧
  (∀ g, (State.reset.core g).run = .off) ∧ (∀ g n, (State.reset.core g).reg n = srReset n) ∧
  srReset 0x15 = 0x0000FFFFFFFFFFFF ∧ srReset 0x95 = BitVec.allOnes 64 ∧
  (∀ g, tget State.reset.resetEntry g 0x10000 = 0x10000) ∧
  State.reset.now = 0 ∧ State.reset.fenced = [] ∧ State.reset.seq.active = none

/-! ### What every instruction of a core does besides its own effect -/

/-- With no window open and no STEP due, completing an instruction moves P, counts, draws free values, and changes nothing
else: no other core, no other unit, no register of the core but P, the counters and STEP_COUNT. -/
def Claims.RetireFrame : Prop :=
  ∀ (s : State) (c n : Nat) (sw p : Word), (s.core c).win = [] → swSs sw = false →
    ∃ (k : Core) (n' : Nat), s.retire c sw n p = ({ s with free := n' } : State).setCore c k ∧ k.After (s.core c) p

/-- Fetching an instruction, reading slots and reading an operand in memory, with all that their translations do, change no
register of any core, and leave no core waiting that did not wait. -/
def Claims.FetchFrame : Prop :=
  (∀ (c : Nat) (s s1 : State) (x : Ctx), Fetches c s x s1 → ∀ g, (s1.core g).SameRegs (s.core g) ∧
    (s1.core g).stall = (s.core g).stall) ∧
  (∀ (x : Ctx) (ks : List Nat) (v : Table Word) (s s1 : State), slotsRead x ks s = .ok v s1 →
    ∀ g, (s1.core g).SameRegs (s.core g) ∧ (s1.core g).stall = (s.core g).stall) ∧
  ∀ (x : Ctx) (base size : BitVec 2) (disp : BitVec 22) (m : Nat) (s s1 : State), operandRead x base size disp s = .ok m s1 →
    ∀ g, (s1.core g).SameRegs (s.core g) ∧ (s1.core g).stall = (s.core g).stall

/-- What fetching and completing an instruction leave as they are: Claims.FetchFrame and Claims.RetireFrame. -/
def Obligations.CompletionFrame : Prop := Claims.FetchFrame ∧ Claims.RetireFrame

/-- When the body of an instruction stops with an exception, the exception is taken and its events of class Never do not
count; when it must wait, P stays at it, so that the same command comes again (model's choice, log 50). When its body has
ended it completes, unless it keeps stores. -/
def Obligations.StoppedInstruction : Prop :=
  ∀ (c : Nat) (s s1 s2 : State) (x : Ctx) (body : Ctx → Exec (Option Word)) (e : Exc), Fetches c s x s1 →
    (body x s1 = .error (.exc e) s2 → s.coreStep c body = (s2.undo c).takeExc c x.sw e) ∧
    (body x s1 = .error .wait s2 → s.coreStep c body = s2.undo c) ∧
    (∀ p, body x s1 = .ok (some p) s2 → s.coreStep c body = s2.ends c x p) ∧
    s2.undo c = s2.modCore c fun k => { k with due := [] }

/-- Outside enclave mode, with no window open and SW.EX clear at the level the exception goes to: EPC, ESW, ECAUSE and EADDR
of that level are saved, F and EFRAME are exchanged, PL, IE, SS and EX are set, and P is the handler's address. EPC is the
instruction that the exception belongs to. Nothing but the core, and which free values come next, changes. -/
def Claims.ExceptionEntry : Prop :=
  ∀ (s : State) (g : Nat) (e : Exc), let c := s.core g
    let t := max (if c.routed e.code then 2 else 1) (swPl c.sw)
    swEm c.sw = false → c.win = [] → (swEx c.sw = false ∨ t ≠ swPl c.sw) → swPl c.sw ≤ 2 → e.code < 0x100 →
    ∃ (k : Core) (n : Nat), s.takeExc g c.sw e = ({ s with free := n } : State).setCore g k ∧
      k.reg (excBase t) = (if e.next then c.p + 4 else e.pc.getD c.p) ∧ k.reg (excBase t + 1) = c.sw ∧
      fld (k.reg (excBase t + 2)) 0 10 = e.code ∧ fld (k.reg (excBase t + 2)) 14 2 = swPl c.sw ∧
      k.reg (excBase t + 3) = e.addr ∧ k.reg (excBase t + 5) = c.f ∧ k.f = setFld (c.reg (excBase t + 5)) 0 3 0 ∧
      swPl k.sw = t ∧ swIe k.sw = false ∧ swSs k.sw = false ∧ swEx k.sw = true ∧
      k.p = setFld (c.reg (excBase t + 4) + vecOffset e.code) 0 2 0 ∧ k.run = .running ∧
      k.a = c.a ∧ k.x = c.x ∧ k.y = c.y ∧ k.l = c.l ∧ k.va = c.va

/-- R108: an exception whose level is the present one while SW.EX is set goes to H, with ECAUSE.NESTED; at H the core stops
and a double exception is reported. -/
def Claims.DoubleException : Prop :=
  ∀ (s : State) (g : Nat) (e : Exc), let c := s.core g
    swEm c.sw = false → swEx c.sw = true → max (if c.routed e.code then 2 else 1) (swPl c.sw) = swPl c.sw →
    (swPl c.sw = 2 → s.takeExc g c.sw e = (s.setCore g { c with run := .stopped }).fault (s.coreSrc g) 0x01 none 0) ∧
    (swPl c.sw ≠ 2 → s.takeExc g c.sw e = s.enterExc g 2 true c.sw e)

/-- A core that runs a word runs the instruction that the word encodes; a word of a reserved opcode or function, such as
0x0000_0000, 0xFFFF_FFFF and 0x2E00_0001, raises the illegal-instruction exception and does nothing else. -/
def Claims.IllegalWords : Prop :=
  ∀ (c : Nat) (w : BitVec 32) (s : State),
    (∀ i, decodeGliwin c w = some i → execWord c w s = exec i s) ∧
    (∀ (s1 : State) (x : Ctx), decodeGliwin c w = none → Fetches c s x s1 →
      execWord c w s = .next ((s1.undo c).takeExc c x.sw { code := 0x01 })) ∧
    decodeGliwin c 0x00000000#32 = none ∧ decodeGliwin c 0xFFFFFFFF#32 = none ∧ decodeGliwin c 0x2E000001#32 = none

/-- What taking an exception saves, where it goes, what a second one does, and the words that raise ILLEGAL: Claims.ExceptionEntry and Claims.DoubleException and Claims.IllegalWords. -/
def Obligations.ExceptionTaking : Prop := Claims.ExceptionEntry ∧ Claims.DoubleException ∧ Claims.IllegalWords

/-! ### Format T -/

/-- s[D] takes the value of Tables 3-5 and 3-6, and the instruction completes, whenever its slots can be read and written. -/
def Claims.IntegerResults : Prop :=
  ∀ p ∈ ([(.add, fun a b => a + b), (.sub, fun a b => a - b), (.andT, fun a b => a &&& b), (.orT, fun a b => a ||| b),
      (.xor, fun a b => a ^^^ b), (.shl, fun a b => a <<< (b.toNat % 64)), (.shr, fun a b => a >>> (b.toNat % 64)),
      (.sar, fun a b => a.sshiftRight (b.toNat % 64)), (.ror, fun a b => a.rotateRight (b.toNat % 64)),
      (.min, fun a b => if a.toInt ≤ b.toInt then a else b), (.max, fun a b => if a.toInt ≤ b.toInt then b else a),
      (.minu, fun a b => if a.toNat ≤ b.toNat then a else b), (.maxu, fun a b => if a.toNat ≤ b.toNat then b else a),
      (.slt, fun a b => if a.toInt < b.toInt then 1 else 0), (.sltu, fun a b => if a.toNat < b.toNat then 1 else 0),
      (.mul, fun a b => a * b)] : List ((Nat → BitVec 5 → BitVec 5 → BitVec 5 → Instr) × (Word → Word → Word))),
  ∀ (c : Nat) (d sa sb : BitVec 5) (s s1 s2 s3 : State) (x : Ctx) (v : Table Word),
    Fetches c s x s1 → slotsRead x [sa.toNat, sb.toNat] s1 = .ok v s2 →
    slotsWrite x [(d.toNat, p.2 (tget v sa.toNat 0) (tget v sb.toNat 0))] s2 = .ok () s3 →
    exec (p.1 c d sa sb) s = .next (s3.ends c x (x.pc + 4))

/-- s[D] takes the value of the one operand with SB 0; with another SB the instruction is illegal. -/
def Claims.UnaryResults : Prop :=
  ∀ p ∈ ([(.movs, fun a => a), (.clz, fun a => BitVec.ofNat 64 (leadingZeros a)),
      (.ctz, fun a => BitVec.ofNat 64 (trailingZeros a)), (.popc, fun a => BitVec.ofNat 64 (popcount a.toNat 64)),
      (.bswap, byteSwap), (.fsqrt, fun a => BitVec.ofNat 64 (fpSqrt f64 a.toNat)), (.fcvti, fpToInt64),
      (.fcvtf, fpOfInt64)] : List ((Nat → BitVec 5 → BitVec 5 → BitVec 5 → Instr) × (Word → Word))),
  ∀ (c : Nat) (d sa sb : BitVec 5) (s s1 s2 s3 : State) (x : Ctx) (v : Table Word), Fetches c s x s1 →
    (sb = 0 → slotsRead x [sa.toNat] s1 = .ok v s2 → slotsWrite x [(d.toNat, p.2 (tget v sa.toNat 0))] s2 = .ok () s3 →
      exec (p.1 c d sa sb) s = .next (s3.ends c x (x.pc + 4))) ∧
    (sb ≠ 0 → exec (p.1 c d sa sb) s = .next ((s1.undo c).takeExc c x.sw { code := 0x01 }))

/-- The integer group, MUL and the one-operand instructions: the destination slot's new value: Claims.IntegerResults and Claims.UnaryResults. -/
def Obligations.IntegerGroup : Prop := Claims.IntegerResults ∧ Claims.UnaryResults

/-- The high 64 bits of the signed and of the unsigned product. -/
def Claims.MultiplyHigh : Prop :=
  ∀ p ∈ ([(.mulh, fun a b => BitVec.ofInt 64 (a.toInt * b.toInt / 2 ^ 64)),
      (.mulhu, fun a b => BitVec.ofNat 64 (a.toNat * b.toNat / 2 ^ 64))] :
      List ((Nat → BitVec 5 → BitVec 5 → BitVec 5 → Instr) × (Word → Word → Word))),
  ∀ (c : Nat) (d sa sb : BitVec 5) (s s1 s2 s3 : State) (x : Ctx) (v : Table Word), Fetches c s x s1 →
    (s1.cap 4 = true → slotsRead x [sa.toNat, sb.toNat] s1 = .ok v s2 →
      slotsWrite x [(d.toNat, p.2 (tget v sa.toNat 0) (tget v sb.toNat 0))] s2 = .ok () s3 →
      exec (p.1 c d sa sb) s = .next (s3.ends c x (x.pc + 4))) ∧
    (s1.cap 4 = false → exec (p.1 c d sa sb) s = .next ((s1.undo c).takeExc c x.sw { code := 0x01 }))

/-- Quotients that round toward zero and remainders with the dividend's sign; a divisor of 0 raises DIVIDE and writes
nothing. -/
def Claims.DivisionResults : Prop :=
  ∀ p ∈ ([(.div, fun a b => BitVec.ofInt 64 (a.toInt.tdiv b.toInt)), (.divu, fun a b => BitVec.ofNat 64 (a.toNat / b.toNat)),
      (.rem, fun a b => BitVec.ofInt 64 (a.toInt.tmod b.toInt)), (.remu, fun a b => BitVec.ofNat 64 (a.toNat % b.toNat))] :
      List ((Nat → BitVec 5 → BitVec 5 → BitVec 5 → Instr) × (Word → Word → Word))),
  ∀ (c : Nat) (d sa sb : BitVec 5) (s s1 s2 s3 : State) (x : Ctx) (v : Table Word),
    Fetches c s x s1 → slotsRead x [sa.toNat, sb.toNat] s1 = .ok v s2 →
    (tget v sb.toNat 0 ≠ 0 → slotsWrite x [(d.toNat, p.2 (tget v sa.toNat 0) (tget v sb.toNat 0))] s2 = .ok () s3 →
      exec (p.1 c d sa sb) s = .next (s3.ends c x (x.pc + 4))) ∧
    (tget v sb.toNat 0 = 0 →
      exec (p.1 c d sa sb) s = .next ((s2.undo c).takeExc c x.sw { code := 0x03 }))

/-- High products, quotients and remainders, and the divide exception: Claims.MultiplyHigh and Claims.DivisionResults. -/
def Obligations.MultiplyDivide : Prop := Claims.MultiplyHigh ∧ Claims.DivisionResults

/-- s[D] takes the binary64 result; FMA also reads D. -/
def Obligations.FloatResults : Prop :=
  (∀ p ∈ ([(.fadd, fun a b => BitVec.ofNat 64 (fpAdd f64 a.toNat b.toNat)),
      (.fsub, fun a b => BitVec.ofNat 64 (fpSub f64 a.toNat b.toNat)),
      (.fmul, fun a b => BitVec.ofNat 64 (fpMul f64 a.toNat b.toNat)),
      (.fdiv, fun a b => BitVec.ofNat 64 (fpDiv f64 a.toNat b.toNat)),
      (.fmin, fun a b => BitVec.ofNat 64 (fpMin f64 a.toNat b.toNat)),
      (.fmax, fun a b => BitVec.ofNat 64 (fpMax f64 a.toNat b.toNat)),
      (.flt, fun a b => if fpLt f64 a.toNat b.toNat then 1 else 0),
      (.feq, fun a b => if fpEq f64 a.toNat b.toNat then 1 else 0)] :
      List ((Nat → BitVec 5 → BitVec 5 → BitVec 5 → Instr) × (Word → Word → Word))),
    ∀ (c : Nat) (d sa sb : BitVec 5) (s s1 s2 s3 : State) (x : Ctx) (v : Table Word),
      Fetches c s x s1 → slotsRead x [sa.toNat, sb.toNat] s1 = .ok v s2 →
      slotsWrite x [(d.toNat, p.2 (tget v sa.toNat 0) (tget v sb.toNat 0))] s2 = .ok () s3 →
      exec (p.1 c d sa sb) s = .next (s3.ends c x (x.pc + 4))) ∧
  ∀ (c : Nat) (d sa sb : BitVec 5) (s s1 s2 s3 : State) (x : Ctx) (v : Table Word),
    Fetches c s x s1 → slotsRead x [sa.toNat, sb.toNat, d.toNat] s1 = .ok v s2 →
    slotsWrite x [(d.toNat, BitVec.ofNat 64 (fpFma f64 (tget v sa.toNat 0).toNat (tget v sb.toNat 0).toNat
      (tget v d.toNat 0).toNat))] s2 = .ok () s3 →
    exec (.fma c d sa sb) s = .next (s3.ends c x (x.pc + 4))

/-- AES on pairs, SHA-2 schedule words, CRC-32C, and the rounds of SHA-2 over slot groups; ILLEGAL while the feature bit is
clear. -/
def Obligations.CryptoResults : Prop :=
  (∀ p ∈ ([(.aese, aesEnc), (.aesel, aesEncLast), (.aesd, aesDec), (.aesdl, aesDecLast)] :
      List ((Nat → BitVec 5 → BitVec 5 → BitVec 5 → Instr) × (BitVec 128 → BitVec 128 → BitVec 128))),
    ∀ (c : Nat) (d sa sb : BitVec 5) (s s1 s2 s3 : State) (x : Ctx) (v : Table Word), Fetches c s x s1 → s1.cap 1 = true →
      d.toNat % 2 = 0 → sa.toNat % 2 = 0 → sb.toNat % 2 = 0 →
      slotsRead x [sa.toNat, sa.toNat + 1, sb.toNat, sb.toNat + 1] s1 = .ok v s2 →
      slotsWrite x (pairSlots d (p.2 (pairOf v sa) (pairOf v sb))) s2 = .ok () s3 →
      exec (p.1 c d sa sb) s = .next (s3.ends c x (x.pc + 4))) ∧
  (∀ p ∈ ([(.sha256w, 2, fun a b => (smallSig1 32 (a.setWidth 32) + smallSig0 32 (b.setWidth 32)).setWidth 64),
      (.sha512w, 2, fun a b => smallSig1 64 a + smallSig0 64 b),
      (.crc32cb, 3, fun a b => (crc32c (a.setWidth 32) (toBytes b 1)).setWidth 64),
      (.crc32ch, 3, fun a b => (crc32c (a.setWidth 32) (toBytes b 2)).setWidth 64),
      (.crc32cw, 3, fun a b => (crc32c (a.setWidth 32) (toBytes b 4)).setWidth 64),
      (.crc32cd, 3, fun a b => (crc32c (a.setWidth 32) (toBytes b 8)).setWidth 64)] :
      List ((Nat → BitVec 5 → BitVec 5 → BitVec 5 → Instr) × Nat × (Word → Word → Word))),
    ∀ (c : Nat) (d sa sb : BitVec 5) (s s1 s2 s3 : State) (x : Ctx) (v : Table Word), Fetches c s x s1 →
      (s1.cap p.2.1 = true → slotsRead x [sa.toNat, sb.toNat] s1 = .ok v s2 →
        slotsWrite x [(d.toNat, p.2.2 (tget v sa.toNat 0) (tget v sb.toNat 0))] s2 = .ok () s3 →
        exec (p.1 c d sa sb) s = .next (s3.ends c x (x.pc + 4))) ∧
      (s1.cap p.2.1 = false →
        exec (p.1 c d sa sb) s = .next ((s1.undo c).takeExc c x.sw { code := 0x01 }))) ∧
  (∀ (c : Nat) (d sa : BitVec 5) (s s1 s2 s3 : State) (x : Ctx) (v : Table Word), Fetches c s x s1 → s1.cap 1 = true →
    slotsRead x [sa.toNat] s1 = .ok v s2 →
    slotsWrite x [(d.toNat, ofBytes 64 ((toBytes (tget v sa.toNat 0) 8).map sbox))] s2 = .ok () s3 →
    exec (.aessub c d sa 0) s = .next (s3.ends c x (x.pc + 4))) ∧
  ∀ p ∈ ([(.sha256r, 32, 4), (.sha512r, 64, 8)] : List ((Nat → BitVec 5 → BitVec 5 → BitVec 5 → Instr) × Nat × Nat)),
    ∀ (c : Nat) (d sa : BitVec 5) (s s1 s2 s3 : State) (x : Ctx) (v : Table Word), Fetches c s x s1 → s1.cap 2 = true →
      d.toNat % p.2.2 = 0 → slotsRead x (slotRange d p.2.2 ++ [sa.toNat]) s1 = .ok v s2 →
      slotsWrite x (shaGroup p.2.1 p.2.2 v d sa) s2 = .ok () s3 →
      exec (p.1 c d sa 0) s = .next (s3.ends c x (x.pc + 4))

/-- Each lane of VA takes the operation's result with the lane of g4(SA), for every lane type the operation allows; D and SB
are 0 and SA a multiple of 4. -/
def Claims.VectorLanes : Prop :=
  ∀ p ∈ ([(.vadd, isTy, laneAdd), (.vsub, isTy, laneSub), (.vmul, isTy, laneMul), (.vand, isIntTy, fun _ a b => a &&& b),
      (.vor, isIntTy, fun _ a b => a ||| b), (.vxor, isIntTy, fun _ a b => a ^^^ b), (.vmin, isTy, laneMin),
      (.vmax, isTy, laneMax), (.vminu, isIntTy, fun _ a b => min a b), (.vmaxu, isIntTy, fun _ a b => max a b),
      (.vshl, isIntTy, fun ty a b => a <<< (b % laneWidth ty)), (.vshr, isIntTy, fun ty a b => a >>> (b % laneWidth ty)),
      (.vsar, isIntTy, fun ty a b =>
        (laneInt (laneWidth ty) a >>> (b % laneWidth ty) % (2 : Int) ^ laneWidth ty).toNat),
      (.vcmpeq, isTy, fun ty a b => if laneEq ty a b then 2 ^ laneWidth ty - 1 else 0),
      (.vcmplt, isTy, fun ty a b => if laneLt ty a b then 2 ^ laneWidth ty - 1 else 0),
      (.vcmpltu, isIntTy, fun ty a b => if a < b then 2 ^ laneWidth ty - 1 else 0)] :
      List ((Nat → BitVec 3 → BitVec 5 → BitVec 5 → BitVec 5 → Instr) × (BitVec 3 → Bool) × (BitVec 3 → Nat → Nat → Nat))),
  ∀ (c : Nat) (ty : BitVec 3) (d sa sb : BitVec 5) (s s1 s2 : State) (x : Ctx) (v : Table Word), Fetches c s x s1 →
    (s1.cap 0 = true → p.2.1 ty = true → d = 0 → sb = 0 → sa.toNat % 4 = 0 → slotsRead x (slotRange sa 4) s1 = .ok v s2 →
      exec (p.1 c ty d sa sb) s =
        .next (((s2.modCore c fun k => { k with va := unlanes ty (List.zipWith (p.2.2 ty) (lanes ty k.va)
          (lanes ty (ofLanes 64 ((slotRange sa 4).map fun i => tget v i 0)))) }).dueEvent c 0x102).ends c x (x.pc + 4))) ∧
    (s1.cap 0 = false ∨ p.2.1 ty = false ∨ d ≠ 0 ∨ sb ≠ 0 ∨ sa.toNat % 4 ≠ 0 →
      exec (p.1 c ty d sa sb) s = .next ((s1.undo c).takeExc c x.sw { code := 0x01 }))

/-- The vector instructions that move lanes or reduce them, on operands that R87 allows. -/
def Claims.VectorMoves : Prop :=
  ∀ (c : Nat) (ty : BitVec 3) (d sa sb : BitVec 5) (s s1 s2 s3 : State) (x : Ctx) (v : Table Word), Fetches c s x s1 →
    s1.cap 0 = true →
    (isFloatTy ty = true → sa.toNat % 4 = 0 → sb.toNat % 4 = 0 → slotsRead x (slotRange sa 4 ++ slotRange sb 4) s1 = .ok v s2 →
      exec (.vfma c ty 0 sa sb) s = .next (((s2.modCore c fun k => { k with va := unlanes ty (List.zipWith
        (fun a (q : Nat × Nat) => fpFma (laneFmt ty) q.1 q.2 a) (lanes ty k.va)
        ((lanes ty (ofLanes 64 ((slotRange sa 4).map fun i => tget v i 0))).zip
          (lanes ty (ofLanes 64 ((slotRange sb 4).map fun i => tget v i 0))))) }).dueEvent c 0x102).ends c x (x.pc + 4))) ∧
    (sa.toNat % 4 = 0 → slotsRead x (slotRange sa 4) s1 = .ok v s2 →
      exec (.vlds c 3 0 sa 0) s = .next (((s2.modCore c fun k =>
        { k with va := ofLanes 64 ((slotRange sa 4).map fun i => tget v i 0) }).dueEvent c 0x102).ends c x (x.pc + 4))) ∧
    (d.toNat % 4 = 0 →
      slotsWrite x ((List.range 4).map fun i => (d.toNat + i, lane 64 (s1.core c).va i)) s1 = .ok () s3 →
      exec (.vsts c 3 d 0 0) s = .next ((s3.dueEvent c 0x102).ends c x (x.pc + 4))) ∧
    (isTy ty = true → slotsRead x [sa.toNat] s1 = .ok v s2 →
      exec (.vbcast c ty 0 sa 0) s = .next (((s2.modCore c fun k => { k with
        va := unlanes ty (List.replicate (256 / laneWidth ty) (tget v sa.toNat 0).toNat) }).dueEvent c 0x102).ends c x (x.pc + 4))) ∧
    (isTy ty = true → sb.toNat < 256 / laneWidth ty →
      slotsWrite x [(d.toNat, BitVec.ofNat 64 (fld (s1.core c).va (laneWidth ty * sb.toNat) (laneWidth ty)))] s1 = .ok () s3 →
      exec (.vext c ty d 0 sb) s = .next ((s3.dueEvent c 0x102).ends c x (x.pc + 4))) ∧
    (isTy ty = true → sb.toNat < 256 / laneWidth ty → slotsRead x [sa.toNat] s1 = .ok v s2 →
      exec (.vins c ty 0 sa sb) s = .next (((s2.modCore c fun k => { k with
        va := setFld k.va (laneWidth ty * sb.toNat) (laneWidth ty) (tget v sa.toNat 0).toNat }).dueEvent c 0x102).ends c x
          (x.pc + 4))) ∧
    ∀ p ∈ ([(.vradd, laneAdd, fun a b => a + b), (.vrmin, laneMin, min), (.vrmax, laneMax, max)] :
        List ((Nat → BitVec 3 → BitVec 5 → BitVec 5 → BitVec 5 → Instr) × (BitVec 3 → Nat → Nat → Nat) × (Int → Int → Int))),
      isTy ty = true →
      slotsWrite x [(d.toNat, if isFloatTy ty then
          BitVec.ofNat 64 ((lanes ty (s1.core c).va).tail.foldl (p.2.1 ty) ((lanes ty (s1.core c).va).headD 0))
        else BitVec.ofInt 64 (((lanes ty (s1.core c).va).map (laneInt (laneWidth ty))).tail.foldl p.2.2
          (((lanes ty (s1.core c).va).map (laneInt (laneWidth ty))).headD 0)))] s1 = .ok () s3 →
      exec (p.1 c ty d 0 0) s = .next ((s3.dueEvent c 0x102).ends c x (x.pc + 4))

/-- The vector group: VA's and the slots' new values: Claims.VectorLanes and Claims.VectorMoves. -/
def Obligations.VectorGroup : Prop := Claims.VectorLanes ∧ Claims.VectorMoves

/-- An atomic on normal memory, 8 bytes wide, with every earlier store visible and its addresses translated, is sent as one
Atom with the operation, its ORDER and its operand, and the core waits for AtomData. -/
def Claims.AtomicIssue : Prop :=
  ∀ p ∈ ([(.afadd, 0), (.aswap, 1), (.acas, 2), (.amin, 3), (.amax, 4), (.aminu, 5), (.amaxu, 6), (.aand, 7), (.aor, 8),
      (.axor, 9)] : List ((Nat → BitVec 4 → BitVec 2 → Bool → BitVec 5 → BitVec 5 → BitVec 5 → Instr) × Nat)),
  ∀ (c : Nat) (order : BitVec 2) (d sa sb : BitVec 5) (s s1 s2 s3 s4 s5 : State) (x : Ctx) (v : Table Word) (tr : Tr)
      (dst : Piece) (h : Hdr),
    Fetches c s x s1 → slotsRead x [sa.toNat, sb.toNat] s1 = .ok v s2 → (tget v sa.toNat 0).toNat % 8 = 0 →
    x.dbp .atomic (tget v sa.toNat 0) 8 = none → translate x .atomic (tget v sa.toNat 0) s2 = .ok tr s3 →
    isDevice tr.pa = false → slotDest x d.toNat s3 = .ok dst s4 → isDevice dst.tr.pa = false → (s4.core c).sb = [] →
    s4.coreIssue c (fun h => .atom h tr.pa
      { op := p.2, wide := false, order := order, uncached := tr.uc || !(s4.core c).l2On,
        operand := (tget v sb.toNat 0).setWidth 128,
        compare := if p.2 = 2 then (s4.core c).a.setWidth 128 else 0, poison := false }) = some (h, s5) →
    exec (p.1 c 0 order false d sa sb) s = .next ((s5.dueEvent c 0x103).modCore c fun k =>
      { k with stall := .atomic h.tag (tget v sa.toNat 0) [(dst.tr.pa, dst.tr.uc, dst.va)] })

/-- An atomic whose address is not a multiple of its size raises ATOMIC_ALIGN with the address. -/
def Claims.AtomicAlignment : Prop :=
  ∀ f ∈ ([.afadd, .aswap, .acas, .amin, .amax, .aminu, .amaxu, .aand, .aor, .axor] :
      List (Nat → BitVec 4 → BitVec 2 → Bool → BitVec 5 → BitVec 5 → BitVec 5 → Instr)),
  ∀ (c : Nat) (order : BitVec 2) (d sa sb : BitVec 5) (s s1 s2 s3 : State) (x : Ctx) (v : Table Word) (tr : Tr),
    Fetches c s x s1 → slotsRead x [sa.toNat, sb.toNat] s1 = .ok v s2 →
    ((tget v sa.toNat 0).toNat % 8 ≠ 0 → exec (f c 0 order false d sa sb) s =
      .next ((s2.undo c).takeExc c x.sw { code := 0x05, addr := tget v sa.toNat 0 })) ∧
    ((tget v sa.toNat 0).toNat % 8 = 0 → x.dbp .atomic (tget v sa.toNat 0) 8 = none →
      translate x .atomic (tget v sa.toNat 0) s2 = .ok tr s3 → isDevice tr.pa = true → exec (f c 0 order false d sa sb) s =
      .next ((s3.undo c).takeExc c x.sw { code := 0x06, addr := tget v sa.toNat 0 }))

/-- An atomic leaves for its home, or raises its alignment or target exception: Claims.AtomicIssue and Claims.AtomicAlignment. -/
def Obligations.AtomicGroup : Prop := Claims.AtomicIssue ∧ Claims.AtomicAlignment

/-! ### Formats K, A, B, J -/

/-- The registers that LI to MOV write, from the registers as they were. -/
def Obligations.ImmediateResults : Prop :=
  (∀ p ∈ ([(.li, fun k i => { k with a := sext64 i }), (.addi, fun k i => { k with a := k.a + sext64 i }),
      (.shi, fun k i => { k with a := (k.a <<< 24) ||| zext64 i }), (.andi, fun k i => { k with a := k.a &&& sext64 i }),
      (.lix, fun k i => { k with x := sext64 i }), (.addx, fun k i => { k with x := k.x + sext64 i }),
      (.liy, fun k i => { k with y := sext64 i }), (.addy, fun k i => { k with y := k.y + sext64 i }),
      (.addf, fun k i => { k with f := setFld (k.f + sext64 i * 8) 0 3 0 }),
      (.ori, fun k i => { k with a := k.a ||| zext64 i }), (.xori, fun k i => { k with a := k.a ^^^ zext64 i })] :
      List ((Nat → BitVec 24 → Instr) × (Core → BitVec 24 → Core))),
    ∀ (c : Nat) (imm : BitVec 24) (s s1 : State) (x : Ctx), Fetches c s x s1 →
      exec (p.1 c imm) s = .next ((s1.modCore c fun k => p.2 k imm).ends c x (x.pc + 4))) ∧
  ∀ (c : Nat) (imm : BitVec 24) (s s1 : State) (x : Ctx), Fetches c s x s1 →
    (imm.toNat / 256 = 0 → exec (.shifti c imm) s = .next ((s1.modCore c fun k => { k with
      a := match imm.toNat / 64 with
        | 0 => k.a <<< (imm.toNat % 64)
        | 1 => k.a >>> (imm.toNat % 64)
        | 2 => k.a.sshiftRight (imm.toNat % 64)
        | _ => k.a.rotateRight (imm.toNat % 64) }).ends c x (x.pc + 4))) ∧
    (imm.toNat / 256 = 0 → imm.toNat / 16 ≤ 5 → imm.toNat % 16 ≤ 4 →
      exec (.mov c imm) s = .next ((s1.modCore c fun k =>
        movDest k (imm.toNat % 16) (movSource x k (imm.toNat / 16))).ends c x (x.pc + 4))) ∧
    (imm.toNat / 256 ≠ 0 →
      exec (.shifti c imm) s = .next ((s1.undo c).takeExc c x.sw { code := 0x01 }) ∧
      exec (.mov c imm) s = .next ((s1.undo c).takeExc c x.sw { code := 0x01 }))

/-- The register that each load writes, zero- or sign-extended, and A after arithmetic with the operand; LEA accesses no
memory. -/
def Claims.LoadResults : Prop :=
  (∀ p ∈ ([(.ld, fun k _ m => { k with a := BitVec.ofNat 64 m }), (.lds, fun k z m => { k with a := sextOf z m }),
      (.ldx, fun k _ m => { k with x := BitVec.ofNat 64 m }), (.ldy, fun k _ m => { k with y := BitVec.ofNat 64 m }),
      (.addMem, fun k z m => { k with a := k.a + sextOf z m }), (.subMem, fun k z m => { k with a := k.a - sextOf z m }),
      (.andMem, fun k _ m => { k with a := k.a &&& BitVec.ofNat 64 m }),
      (.orMem, fun k _ m => { k with a := k.a ||| BitVec.ofNat 64 m }),
      (.xorMem, fun k _ m => { k with a := k.a ^^^ BitVec.ofNat 64 m }),
      (.mulMem, fun k z m => { k with a := k.a * sextOf z m })] :
      List ((Nat → BitVec 2 → BitVec 2 → BitVec 22 → Instr) × (Core → BitVec 2 → Nat → Core))),
    ∀ (c : Nat) (base size : BitVec 2) (disp : BitVec 22) (s s1 s2 : State) (x : Ctx) (m : Nat), Fetches c s x s1 →
      operandRead x base size disp s1 = .ok m s2 →
      exec (p.1 c base size disp) s = .next ((s2.modCore c fun k => p.2 k size m).ends c x (x.pc + 4))) ∧
  (∀ (c : Nat) (base size : BitVec 2) (disp : BitVec 22) (s s1 : State) (x : Ctx), Fetches c s x s1 →
    exec (.lea c base size disp) s = .next ((s1.modCore c fun k => { k with
      a := (match base.toNat with | 0 => k.f | 1 => k.x | 2 => k.y | _ => x.pc) +
        sext64 disp * BitVec.ofNat 64 (2 ^ size.toNat) }).ends c x (x.pc + 4))) ∧
  ∀ (c : Nat) (base : BitVec 2) (disp : BitVec 22) (s s1 s2 : State) (x : Ctx) (m : Nat), Fetches c s x s1 →
    s1.cap 0 = true → readMem x (x.ea (s1.core c) base disp 32) 32 s1 = .ok m s2 →
    exec (.vld c base 3 disp) s =
      .next ((s2.modCore c fun k => { k with va := BitVec.ofNat 256 m }).ends c x (x.pc + 4))

/-- ST, STX, STY and VST store the register's bytes at the operand's address. -/
def Claims.StoreIssue : Prop :=
  (∀ p ∈ ([(.st, Core.a), (.stx, Core.x), (.sty, Core.y)] :
      List ((Nat → BitVec 2 → BitVec 2 → BitVec 22 → Instr) × (Core → Word))),
    ∀ (c : Nat) (base size : BitVec 2) (disp : BitVec 22) (s s1 s2 : State) (x : Ctx), Fetches c s x s1 →
      operandWrite x base size disp (p.2 (s1.core c)) s1 = .ok () s2 →
      exec (p.1 c base size disp) s = .next (s2.ends c x (x.pc + 4))) ∧
  ∀ (c : Nat) (base : BitVec 2) (disp : BitVec 22) (s s1 s2 : State) (x : Ctx), Fetches c s x s1 → s1.cap 0 = true →
    storeMem x (x.ea (s1.core c) base disp 32) 32 (s1.core c).va s1 = .ok () s2 →
    exec (.vst c base 3 disp) s = .next (s2.ends c x (x.pc + 4))

/-- Format A: the registers loads write and what stores write: Claims.LoadResults and Claims.StoreIssue. -/
def Obligations.MemoryOperands : Prop := Claims.LoadResults ∧ Claims.StoreIssue

/-- A store of one slot to normal memory appends one entry with the slot's physical address and its eight bytes to the store
buffer; no byte of DRAM and no other core changes with it, nor the core's own L2 while its prefetcher is off. -/
def Claims.StoreBuffered : Prop :=
  ∀ (x : Ctx) (k : Nat) (v : Word) (p : Piece) (s s1 : State), slotDest x k s = .ok p s1 → isDevice p.tr.pa = false →
    (s1.core x.g).sb.length < 96 → ∃ s2 : State, storePieces x [⟨p, v.setWidth 256⟩] true s1 = .ok () s2 ∧
    (∃ e : SbEntry, (s2.core x.g).sb = (s1.core x.g).sb ++ [e] ∧ e.pa = p.tr.pa ∧ e.mask = 0xFF ∧
      e.data = v.setWidth 256 ∧ e.uncached = p.tr.uc ∧ e.sent = false) ∧
    s2.hier.dram = s1.hier.dram ∧ (bit ((s1.core x.g).eff srPfCtl) 0 = false → (s2.core x.g).l2 = (s1.core x.g).l2) ∧
    ∀ g, g ≠ x.g → s2.core g = s1.core g

/-- The next address of each transfer; a register target that is no multiple of 4 raises FETCH_ALIGN. -/
def Obligations.Transfers : Prop :=
  (∀ (c : Nat) (cond : BitVec 3) (slot : BitVec 5) (disp : BitVec 18) (s s1 s2 : State) (x : Ctx) (v : Word),
    Fetches c s x s1 → slotRead x slot.toNat s1 = .ok v s2 → x.pc.toNat % 4 = 0 →
    ∃ s3 : State, exec (.bCond c cond slot disp) s = .next (s3.ends c x
        (if condHolds cond (s2.core c).a v then x.pc + sext64 disp * 4 else x.pc + 4)) ∧
      (s3.core c).SameRegs (s2.core c)) ∧
  (∀ (c : Nat) (disp : BitVec 26) (s s1 : State) (x : Ctx), Fetches c s x s1 → x.pc.toNat % 4 = 0 →
    (∃ s3 : State, exec (.jmp c disp) s = .next (s3.ends c x (x.pc + sext64 disp * 4)) ∧
      (s3.core c).SameRegs (s1.core c)) ∧
    ∃ s3 : State, exec (.call c disp) s = .next (s3.ends c x (x.pc + sext64 disp * 4)) ∧
      (s3.core c).SameRegs { s1.core c with l := x.pc + 4 }) ∧
  ∀ p ∈ ([(.ret, Core.l, false), (.ja, Core.a, false), (.calla, Core.a, true)] :
      List ((Nat → BitVec 24 → Instr) × (Core → Word) × Bool)),
    ∀ (c : Nat) (s s1 : State) (x : Ctx), Fetches c s x s1 →
      ((p.2.1 (s1.core c)).toNat % 4 = 0 →
        ∃ s3 : State, exec (p.1 c 0) s = .next (s3.ends c x (p.2.1 (s1.core c))) ∧
          (s3.core c).SameRegs (if p.2.2 then { s1.core c with l := x.pc + 4 } else s1.core c)) ∧
      ((p.2.1 (s1.core c)).toNat % 4 ≠ 0 →
        ∃ s3 : State, exec (p.1 c 0) s = .next ((s3.undo c).takeExc c x.sw { code := 0x04, addr := p.2.1 (s1.core c) }) ∧
          (s3.core c).SameRegs (s1.core c))

/-! ### Format S -/

/-- A read puts the register's value into its slot; a write gives the register the value with its effect distance. Both where
the register exists, the level suffices and no trap is set (srCheck). -/
def Claims.SystemRegisterMoves : Prop :=
  ∀ (c d : Nat) (opnd : BitVec 16) (s s1 s2 s3 : State) (x : Ctx) (v : Word), Fetches c s x s1 →
    (srCheck x opnd false s1 = .ok d s2 →
      slotsWrite x [(fld opnd 10 5, s2.srRead c (fld opnd 0 10))] s2 = .ok () s3 →
      exec (.mfsr c opnd) s = .next (s3.ends c x (x.pc + 4))) ∧
    (srCheck x opnd true s1 = .ok d s2 → slotRead x (fld opnd 10 5) s2 = .ok v s3 → fld opnd 0 10 ≠ 0x97 →
      exec (.mtsr c opnd) s = .next ((s3.mtsrWrite c (fld opnd 0 10) v d).ends c x (x.pc + 4))) ∧
    (fld opnd 5 11 = 0 → slotsWrite x [(fld opnd 0 5, (s1.core c).sw)] s1 = .ok () s3 →
      exec (.mfsw c opnd) s = .next (s3.ends c x (x.pc + 4))) ∧
    (fld opnd 5 11 = 0 → 1 ≤ x.pl → slotRead x (fld opnd 0 5) s1 = .ok v s3 → swPl v ≠ 3 → swPl v ≤ x.pl →
      ∃ t : State, exec (.mtsw c opnd) s = .next (t.ends c x (x.pc + 4)) ∧ swPl (t.core c).sw = swPl v ∧
        swIe (t.core c).sw = swIe v ∧ swSs (t.core c).sw = swSs v ∧ swEx (t.core c).sw = swEx v ∧
        swEm (t.core c).sw = swEm (s3.core c).sw) ∧
    (fld opnd 5 11 = 0 → 1 ≤ x.pl → slotRead x (fld opnd 0 5) s1 = .ok v s3 → swPl v ≠ 3 → x.pl < swPl v →
      exec (.mtsw c opnd) s = .next ((s3.undo c).takeExc c x.sw { code := 0x02 })) ∧
    (bit opnd 15 = false → fld opnd 4 6 = 0 → (bit (x.reg 0xE0) 3 = true ∨ 1 ≤ x.pl) →
      slotsWrite x [(fld opnd 10 5, (s1.core c).reg (0xC0 + fld opnd 0 4))] s1 = .ok () s3 →
      exec (.pmrd c opnd) s = .next (s3.ends c x (x.pc + 4)))

/-- A write with a distance d above 1 gives the register its new value at once for MFSR, and opens a window: every other agent
sees the old value or the new one until d instructions, the writer the first of them, have executed; then the new one. -/
def Claims.EffectDistance : Prop :=
  ∀ (s : State) (g n d : Nat) (v : Word), 1 < d → (s.core g).win = [] →
    let t := s.srWrite g n v d
    (t.core g).reg n = v ∧ ((t.core g).eff n = v ∨ (t.core g).eff n = (s.core g).reg n) ∧
    (t.core g).win = [⟨n, (s.core g).reg n, d⟩] ∧ (∀ m, m ≠ n → (t.core g).reg m = (s.core g).reg m) ∧
    ∀ (u : State) (old : Word) (k : Nat), (u.core g).win = [⟨n, old, k⟩] →
      (1 < k → ((u.tick g).core g).win = [⟨n, old, k - 1⟩]) ∧ (k = 1 → ((u.tick g).core g).win = [] ∧
        ∀ m, m < 0x140 ∨ 0x141 ≤ m → ((u.tick g).core g).eff m = (u.core g).reg m)

/-- Moves to and from system registers, and the windows in which they take effect: Claims.SystemRegisterMoves and Claims.EffectDistance. -/
def Obligations.SystemRegisters : Prop := Claims.SystemRegisterMoves ∧ Claims.EffectDistance

/-- The three barriers complete once every earlier store is visible, and wait, with P where it is, before that; SYNC closes
every window, IFENCE frees the unproven Haze entries. PFLUSH clears the predictor, PBAR also sets SW.PB. -/
def Claims.Barriers : Prop :=
  ∀ (c : Nat) (s s1 : State) (x : Ctx), Fetches c s x s1 →
    ((s1.core c).sb = [] →
      exec (.sync c 0) s = .next ((s1.closeWindows c).ends c x (x.pc + 4)) ∧
      exec (.ifence c 0) s = .next ((s1.hazeFlush c).ends c x (x.pc + 4)) ∧
      exec (.fence c 0) s = .next (s1.ends c x (x.pc + 4))) ∧
    ((s1.core c).sb ≠ [] → ∀ f ∈ ([.sync, .ifence, .fence] : List (Nat → BitVec 16 → Instr)),
      exec (f c 0) s = .next (s1.undo c)) ∧
    exec (.pflush c 0) s = .next (((s1.modCore c fun k => { k with pred := ⟨[], [], 0⟩ }).hazeFlush c).ends c x
      (x.pc + 4)) ∧
    exec (.pbar c 0) s = .next (((s1.modCore c fun k =>
      { k with pred := ⟨[], [], 0⟩, sw := setBit k.sw 8 true }).hazeFlush c).ends c x (x.pc + 4))

/-- TRAP, SVC and BREAK raise their exception with EPC the next instruction and EADDR the operand; so does HVC above U, which
raises PRIVILEGE at U. GATE has no effect when executed. -/
def Claims.CallsToHigherLevels : Prop :=
  ∀ (c : Nat) (opnd : BitVec 16) (s s1 : State) (x : Ctx), Fetches c s x s1 →
    exec (.trap c opnd) s = .next ((s1.undo c).takeExc c x.sw { code := 0x09, addr := zext64 opnd, next := true }) ∧
    exec (.svc c opnd) s = .next ((s1.undo c).takeExc c x.sw { code := 0x0A, addr := zext64 opnd, next := true }) ∧
    exec (.brk c opnd) s = .next ((s1.undo c).takeExc c x.sw { code := 0x0B, addr := zext64 opnd, next := true }) ∧
    (1 ≤ x.pl → exec (.hvc c opnd) s = .next ((s1.undo c).takeExc c x.sw { code := 0x60, addr := zext64 opnd, next := true })) ∧
    (x.pl = 0 → exec (.hvc c opnd) s = .next ((s1.undo c).takeExc c x.sw { code := 0x02 })) ∧
    exec (.gate c opnd) s = .next (s1.ends c x (x.pc + 4))

/-- Barriers wait and complete, calls raise their exceptions: Claims.Barriers and Claims.CallsToHigherLevels. -/
def Obligations.BarriersAndCalls : Prop := Claims.Barriers ∧ Claims.CallsToHigherLevels

/-- ERET at S or H with a saved level not above its own and an aligned EPC: P takes EPC, SW takes the writable fields of ESW,
F and EFRAME are exchanged, and no instruction breakpoint fires on the first instruction after it. A saved level above its
own raises PRIVILEGE. -/
def Obligations.ReturnFromException : Prop :=
  ∀ (c : Nat) (s s1 : State) (x : Ctx), let k := s1.core c; let b := excBase x.pl
    Fetches c s x s1 → 1 ≤ x.pl →
    (swPl (k.reg (b + 1)) ≤ x.pl → fld (k.reg b) 0 2 = 0 →
      exec (.eret c 0) s = .next (((s1.dueEvent c 0x004).eret c x.pl).ends c x (k.reg b) true)) ∧
    (x.pl < swPl (k.reg (b + 1)) →
      exec (.eret c 0) s = .next ((s1.undo c).takeExc c x.sw { code := 0x02 })) ∧
    (∀ (t : State) (sw p : Word) (n : Nat), swSs sw = false → ((t.retire c sw n p true).core c).skipBp = true) ∧
    ∀ (t : State) (l : Nat), (t.core c).win = [] → l = 1 ∨ l = 2 → swEm (t.core c).sw = false →
      ∃ (j : Core) (n : Nat), t.eret c l = ({ t with free := n } : State).setCore c j ∧
        j.sw = ((t.core c).reg (excBase l + 1) &&& 0x3B) ||| ((t.core c).sw &&& 0x100) ∧
        j.f = setFld ((t.core c).reg (excBase l + 5)) 0 3 0 ∧ j.reg (excBase l + 5) = (t.core c).f ∧
        j.a = (t.core c).a ∧ j.x = (t.core c).x ∧ j.y = (t.core c).y ∧ j.l = (t.core c).l ∧ j.va = (t.core c).va

/-- WFI at S or H without a trap: the core waits at the next instruction when nothing is pending, else goes on. WFI_WAKE and
the compares end the wait of a core with a pending interrupt: it takes the interrupt if it can be taken, else it runs on. -/
def Claims.WaitForInterrupt : Prop :=
  (∀ (c : Nat) (s s1 : State) (x : Ctx), Fetches c s x s1 → 1 ≤ x.pl → (x.pl = 1 → bit (x.reg 0x18) 16 = false) →
    (((s1.core c).pendingInts s1.now) = [] →
      exec (.wfi c 0) s = .next ((s1.modCore c fun k => { k with run := .wfi }).ends c x (x.pc + 4))) ∧
    (((s1.core c).pendingInts s1.now) ≠ [] →
      exec (.wfi c 0) s = .next ((s1.modCore c id).ends c x (x.pc + 4)))) ∧
  ∀ (c : Nat) (s : State), s.coreRuns c = true → (s.core c).run = .wfi → (s.core c).pendingInts s.now ≠ [] →
    let wakes (i : Instr) : Prop :=
      ((s.core c).takes s.now (s.core c).seenSw = none →
        exec i s = .next (s.setCore c { s.core c with run := .running })) ∧
      ∀ code, s.atBoundary c = true → (s.core c).takes s.now (s.core c).seenSw = some code →
        exec i s = .next (s.interrupt c code)
    wakes (.wfiWake c) ∧ ((s.core c).timer s.now = true → wakes (.timerCompare c)) ∧
      ((s.core c).htimer s.now = true → wakes (.htimerCompare c))

/-- At a boundary with an interrupt that SW and the routing let through, outside enclave mode, the core enters its handler
with EPC the instruction not yet started, before any instruction runs; with none, INTERRUPT_ENTRY changes nothing. -/
def Claims.InterruptEntry : Prop :=
  ∀ (c : Nat) (s : State), s.atBoundary c = true → swEm (s.core c).sw = false →
    let sw := (s.core c).seenSw
    (∀ code, (s.core c).takes s.now sw = some code →
      exec (.interruptEntry c) s = .next (s.enterExc c
        (max ((s.core c).intLevel code) (swPl sw)) false sw { code := code }) ∧
      ∀ (body : Ctx → Exec (Option Word)), (s.core c).run = .running → (s.core c).tlbMark = false →
        s.coreStep c body = s.enterExc c (max ((s.core c).intLevel code) (swPl sw)) false sw { code := code }) ∧
    ((s.core c).takes s.now sw = none → exec (.interruptEntry c) s = .next s)

/-- WFI, what ends its wait, and interrupt entry: Claims.WaitForInterrupt and Claims.InterruptEntry. -/
def Obligations.WaitingAndInterrupts : Prop := Claims.WaitForInterrupt ∧ Claims.InterruptEntry

/-- PMSTOP and PMGO write PMCTL.EN with distance 1; ICLR clears the latches it names; VINJ sends the router a message. -/
def Claims.CounterAndTenantInstructions : Prop :=
  ∀ (c : Nat) (opnd : BitVec 16) (s s1 s2 : State) (x : Ctx) (v : Word), Fetches c s x s1 →
    (1 ≤ x.pl → exec (.pmstop c 0) s =
      .next ((s1.srWrite c 0xE0 (setBit ((s1.core c).reg 0xE0) 0 false) 1).ends c x (x.pc + 4))) ∧
    (1 ≤ x.pl → exec (.pmgo c 0) s =
      .next ((s1.srWrite c 0xE0 (setBit ((s1.core c).reg 0xE0) 0 true) 1).ends c x (x.pc + 4))) ∧
    (x.pl = 0 → exec (.pmstop c 0) s = .next ((s1.undo c).takeExc c x.sw { code := 0x02 }) ∧
      exec (.pmgo c 0) s = .next ((s1.undo c).takeExc c x.sw { code := 0x02 })) ∧
    (x.pl = 2 → opnd.toNat < 4 → exec (.iclr c opnd) s = .next ((s1.modCore c fun k =>
      { k with ipi := k.ipi && !bit opnd 0, doorbell := k.doorbell && !bit opnd 1 }).ends c x (x.pc + 4))) ∧
    (x.pl = 2 → bit opnd 15 = false → fld opnd 0 10 = 0 → slotRead x (fld opnd 10 5) s1 = .ok v s2 →
      exec (.vinj c opnd) s = .next ((s2.send (.routerMessage (BitVec.ofNat 12 (fld v 16 12))
        (BitVec.ofNat 9 (fld v 0 9)))).ends c x (x.pc + 4)))

/-- With earlier stores visible and the level S: TLBIALL removes every entry of the core, TLBIV those of its address and the
whole walk cache. -/
def Claims.LocalInvalidation : Prop :=
  ∀ (c : Nat) (opnd : BitVec 16) (s s1 s2 : State) (x : Ctx) (v : Word), Fetches c s x s1 → 1 ≤ x.pl →
    ((s1.core c).sb = [] → exec (.tlbiall c 0) s = .next (((s1.modCore c fun k =>
      { k with itlb := [], dtlb := [], l2tlb := [], wcache := [], fmap := [] }).hazeFlush c).ends c x (x.pc + 4))) ∧
    (bit opnd 15 = false → fld opnd 0 10 = 0 → slotRead x (fld opnd 10 5) s1 = .ok v s2 → (s2.core c).sb = [] →
      exec (.tlbiv c opnd) s = .next (((s2.modCore c fun k =>
        { k.purgeVa v.toNat with wcache := [], fmap := [] }).hazeFlush c).ends c x (x.pc + 4)))

/-- A broadcast leaves for every enabled core, after the issuer's frame-operand map has gone, and its issuer waits for those
that must acknowledge; one that no core must acknowledge completes at once. A core of another TID, and the agent of a fenced
one, acknowledge at once; a core of its TID drops its entries and executes nothing until its stores of that moment are visible.
An acknowledgement that is missing after TIMEOUT_NS of class 0 is made up, with a fault. -/
def Claims.BroadcastInvalidation : Prop :=
  (∀ (c : Nat) (opnd : BitVec 16) (s s1 s2 : State) (x : Ctx) (v : Word), Fetches c s x s1 →
    bit opnd 15 = false → fld opnd 0 10 = 0 →
    ∀ p ∈ ([(.tlbivb, (x.reg srTid).setWidth 12, some v, 1), (.tlbitid, v.setWidth 12, none, 2)] :
      List ((Nat → BitVec 16 → Instr) × BitVec 12 × Option Word × Nat)), p.2.2.2 ≤ x.pl →
      slotRead x (fld opnd 10 5) s1 = .ok v s2 → (s2.core c).sb = [] →
      exec (p.1 c opnd) s = .next (
        let r := ((s2.modCore c fun k => { k with fmap := [] }).hazeFlush c).broadcast c p.2.1 p.2.2.1
        if r.1.isEmpty then r.2.ends c x (x.pc + 4)
        else r.2.modCore c fun k => { k with stall := .bcast r.1 })) ∧
  (∀ (c : Nat) (s s1 : State) (x : Ctx), Fetches c s x s1 → 1 ≤ x.pl → (s1.core c).sb = [] →
    exec (.tlbiallb c 0) s = .next (
      let r := ((s1.modCore c fun k => { k with fmap := [] }).hazeFlush c).broadcast c ((x.reg srTid).setWidth 12) none
      if r.1.isEmpty then r.2.ends c x (x.pc + 4)
      else r.2.modCore c fun k => { k with stall := .bcast r.1 })) ∧
  (∀ (c i : Nat) (s : State) (b : Bcast), c < 576 → i < 576 → s.mayArrive (.tlbiBroadcastTake c i) = true →
    (s.core c).bcasts = [b] → b.issuer = i → b.stores = none →
    let t := s.arrive (.tlbiBroadcastTake c i)
    (s.unitFenced c = true → exec (.tlbiBroadcastTake c i) s = .next (t.bcastEnd c i)) ∧
    (s.unitFenced c = false → (s.dom c).st = .run → (s.dom c).inReset = false → (s.core c).stall = .none →
      (s.core c).run = .running →
      ((s.core c).tid ≠ b.tid → exec (.tlbiBroadcastTake c i) s = .next (t.bcastEnd c i)) ∧
      ((s.core c).tid = b.tid → b.va = none → (s.core c).sb ≠ [] → ∃ u, exec (.tlbiBroadcastTake c i) s = .next u ∧
        (u.core c).itlb = [] ∧ (u.core c).dtlb = [] ∧ (u.core c).l2tlb = [] ∧ (u.core c).wcache = [] ∧ (u.core c).fmap = [] ∧
        (u.core c).bcasts = [{ b with stores := some (s.core c).sb.length }] ∧ u.canExec c = false))) ∧
  (∀ (c i : Nat) (s : State) (b : Bcast), c < 576 → i < 576 → (s.core c).bcasts = [b] → b.issuer = i →
    (s.now < b.since + s.timeoutNs 0 → exec (.tlbiAckTimeout c i) s = .next s) ∧
    (b.since + s.timeoutNs 0 ≤ s.now → exec (.tlbiAckTimeout c i) s =
      .next (((s.fault (s.coreSrc c) 0x07 none 0).modCore c fun k => { k with tlbMark := true }).bcastEnd c i))) ∧
  ∀ (c i : Nat) (s : State), s.bcastEnd c i =
    (s.modCore c fun k => { k with bcasts := k.bcasts.filter fun b => b.issuer != i }).bcastAck i c

/-- Local and broadcast invalidation: Claims.LocalInvalidation and Claims.BroadcastInvalidation. -/
def Obligations.Invalidation : Prop := Claims.LocalInvalidation ∧ Claims.BroadcastInvalidation

/-- On a populated line in normal memory, with earlier stores visible: CWB and CFLUSH send CWbReq and CFlReq, CINV of a line
the L2 holds sends Drop and keeps the copy in an evict-pending buffer, and the core waits for the last response; CZERO of an
owned line zeroes it. -/
def Claims.LineMaintenance : Prop :=
  ∀ (c : Nat) (opnd : BitVec 16) (s s1 s2 s3 s4 : State) (x : Ctx) (v : Word) (line : Nat) (uc : Bool) (h : Hdr),
    Fetches c s x s1 → bit opnd 15 = false → fld opnd 0 10 = 0 → slotRead x (fld opnd 10 5) s1 = .ok v s2 →
    (∀ p ∈ ([(.cwb, .cwbreq), (.cflush, .cflreq)] : List ((Nat → BitVec 16 → Instr) × (Hdr → Nat → Instr))),
      maintLine x v .load s2 = .ok (some (line, uc)) s3 → s3.coreIssue c (fun h => p.2 h line) = some (h, s4) →
      exec (p.1 c opnd) s = .next (s4.modCore c fun k => { k with stall := .maint v [h.tag] })) ∧
    (x.pl = 2 → maintLine x v .store s2 = .ok (some (line, uc)) s3 → ((s3.core c).inL2 line).isSome = true →
      s3.evictAs c line .drop = some s4 → ∃ b : EvictBuf, (s4.core c).evict = (s3.core c).evict ++ [b] ∧ b.line = line ∧
        exec (.cinv c opnd) s = .next (s4.modCore c fun k => { k with stall := .maint v [b.tag] })) ∧
    (maintLine x v .store s2 = .ok (some (line, false)) s3 → (s3.core c).l1dOn = true → (s3.core c).owns line = true →
      exec (.czero c opnd) s = .next ((s3.modCore c fun k => ((k.fillL1d line).zeroOwned line).dropFrames line).ends c x
        (x.pc + 4)))

/-- With earlier stores visible, at their level: CWBSET writes back the modified and owned lines of the set that X names,
CFLUSHSET gives every line up, CINVSET drops every line; each waits for the answers, and completes at once when there are none,
as with a set that holds nothing. Below their level they raise PRIVILEGE. -/
def Claims.SetMaintenance : Prop :=
  ∀ (c : Nat) (s s1 : State) (x : Ctx), Fetches c s x s1 →
    (∀ (tags : List Nat) (s2 : State), (s1.core c).sb = [] → let i := fld (s1.core c).x 0 10; let held := (s1.core c).setHeld i
      let after (t : State) : State := if tags = [] then t.ends c x (x.pc + 4)
        else t.modCore c fun k => { k with stall := .maint 0 tags }
      (1 ≤ x.pl →
        s1.writeBacks c ((held.filter fun l => l.st == .m || l.st == .o).map (·.line)) = some (tags, s2) →
        exec (.cwbset c 0) s = .next (after s2)) ∧
      (1 ≤ x.pl → s1.giveLines c (held.map (·.line)) = some (tags, s2) →
        exec (.cflushset c 0) s = .next (after (s2.modCore c fun k => k.noteCleaned i))) ∧
      (x.pl = 2 → s1.dropLines c (held.map (·.line)) = some (tags, s2) →
        exec (.cinvset c 0) s = .next (after (s2.modCore c fun k => k.noteCleaned i)))) ∧
    s1.writeBacks c [] = some ([], s1) ∧ s1.giveLines c [] = some ([], s1) ∧ s1.dropLines c [] = some ([], s1) ∧
    (x.pl = 0 → ∀ f ∈ ([.cwbset, .cflushset, .cinvset] : List (Nat → BitVec 16 → Instr)),
      exec (f c 0) s = .next ((s1.undo c).takeExc c x.sw { code := 0x02 }))

/-- CPF of a cached, populated line that the L2 lacks sends one RdS and completes; of a line the L2 holds it fills L1D. -/
def Claims.PrefetchInstruction : Prop :=
  ∀ (c : Nat) (opnd : BitVec 16) (s s1 s2 s3 s4 : State) (x : Ctx) (v : Word) (t : Tr) (h : Hdr), Fetches c s x s1 →
    bit opnd 15 = false → fld opnd 0 10 = 0 → slotRead x (fld opnd 10 5) s1 = .ok v s2 → (s2.core c).sb = [] →
    translate x .load v s2 = .ok t s3 → t.uc = false → isDevice t.pa = false → s3.isDram t.pa = true →
    (s3.core c).l2On = true → (s3.core c).waits (t.pa / 64) = false →
    ((s3.core c).inL2 (t.pa / 64) = none →
      s3.fillIssue c (t.pa / 64) 1 true .data (fun h => .rds h (t.pa / 64) false none) = some (h, s4) →
      exec (.cpf c opnd) s = .next (s4.ends c x (x.pc + 4))) ∧
    (((s3.core c).inL2 (t.pa / 64)).isSome = true →
      exec (.cpf c opnd) s = .next ((s3.modCore c fun k => k.fillL1d (t.pa / 64)).ends c x (x.pc + 4)))

/-- The cache instructions: what each sends and waits for: Claims.LineMaintenance and Claims.SetMaintenance and Claims.PrefetchInstruction. -/
def Obligations.CacheMaintenance : Prop := Claims.LineMaintenance ∧ Claims.SetMaintenance ∧ Claims.PrefetchInstruction

/-! ### What a core does besides instructions -/

/-- STORE_DRAIN writes the head entry into a line that the L2 owns and removes it; a head whose line the L2 lacks asks for it
with RdX; an empty store buffer changes nothing. -/
def Claims.StoreDrain : Prop :=
  ∀ (c : Nat) (s : State), c < 576 → s.mayDrain c = true →
    ((s.core c).sb = [] → exec (.storeDrain c) s = .next s) ∧
    ∀ (e : SbEntry) (es : List SbEntry), (s.core c).sb = e :: es → e.uncached = false → (s.core c).l2On = true →
      (s.core c).bcasts = [] → (s.core c).stall = .none →
      ((s.core c).owns (e.pa / 64) = true → ∃ t, exec (.storeDrain c) s = .next t ∧
        t.core c = { ((s.core c).writeOwned (e.pa / 64) e.data e.mask (e.pa % 64)) with sb := es } ∧ t.hier = s.hier ∧
        t.inflight = s.inflight ∧ ∀ g, g ≠ c → t.core g = s.core g) ∧
      ∀ (h : Hdr) (s2 : State), (s.core c).inL2 (e.pa / 64) = none → (s.core c).waits (e.pa / 64) = false →
        s.makeWay c (e.pa / 64) = some s →
        s.issue c e.tid (s.core c).cls (fun h => .rdx h (e.pa / 64) e.hash) = some (h, s2) →
        exec (.storeDrain c) s = .next (s2.modCore c fun k => { k with
          txns := k.txns ++ [⟨h.tag, e.pa / 64, 2, none, false, false, .data⟩] })

/-- A store is buffered with its bytes and later becomes visible in an owned line: Claims.StoreBuffered and Claims.StoreDrain. -/
def Obligations.StoresBecomeVisible : Prop := Claims.StoreBuffered ∧ Claims.StoreDrain

/-- A misprediction discards every Haze entry whose user is not proven and changes no register but counters; promoting an
entry whose line the L2 holds frees that entry, and one whose line it lacks sends the coherent read. -/
def Claims.SpeculationRows : Prop :=
  (∀ (c : Nat) (ind : Bool) (s : State), s.canExec c = true → ∃ t, exec (.brMispred c ind) s = .next t ∧
    (t.core c).haze = (s.core c).haze.filter (·.promoted) ∧ (t.core c).SameRegs (s.core c) ∧ t.hier = s.hier ∧
    ∀ g, g ≠ c → t.core g = s.core g) ∧
  ∀ (c line : Nat) (s : State), line < 2 ^ 46 → s.coreRuns c = true →
    ((s.core c).haze.any fun e => e.line == line && !e.promoted) = true →
    (((s.core c).l2Line line).isSome = true → ∃ t, exec (.hazePromote c line) s = .next t ∧
      (t.core c).haze = (s.core c).haze.filter (fun e => e.line != line) ∧ (t.core c).SameRegs (s.core c) ∧ t.hier = s.hier) ∧
    ∀ h t, (s.core c).l2Line line = none → (s.core c).waits line = false →
      ((s.prove ((s.core c).ctx c) line).modCore c fun k => { k with proven := true }).fillIssue c line 1 false .data
        (fun h => .rds h line false (((s.core c).ctx c).hint (s.core c))) = some (h, t) →
      exec (.hazePromote c line) s = .next t

/-- A walk that succeeds leaves what it filled, one that must wait for an entry leaves its request, and one that fails leaves
nothing; an eviction frees the line's way and sends
WbReq for a modified or owned line, Offer or Drop for a clean one, with one evict-pending buffer. -/
def Claims.WalksAndEvictions : Prop :=
  (∀ (c : Nat) (va : Word) (acc : Access) (s : State), s.canExec c = true →
    let x := (s.core c).ctx c
    x.pl ≠ 2 → x.s1On = true →
    (∀ v t, translateRaw x acc va s = .ok v t → exec (.pageWalk c va acc) s = .next t) ∧
    (∀ t, translateRaw x acc va s = .error .wait t → exec (.pageWalk c va acc) s = .next t) ∧
    (∀ e t, translateRaw x acc va s = .error (.exc e) t → exec (.pageWalk c va acc) s = .next s)) ∧
  ∀ (c line : Nat) (s : State), c < 576 → line < 2 ^ 46 → s.mayDrain c = true → s.check c line = s →
    ((s.core c).inL2 line).isSome = true → (s.core c).l2On = true → (s.core c).evict.length < 16 →
    (s.core c).awaitsGo line = false →
    (s.freeTag c).isSome = true →
    ∃ t h, exec (.l2Evict c line) s = .next t ∧ (t.core c).inL2 line = none ∧
      (∃ b, (t.core c).evict = (s.core c).evict ++ [b] ∧ b.line = line ∧ b.tag = h.tag) ∧
      (line < s.dramLines → (.wbreq h line ∈ t.inflight ∨ .offer h line ∈ t.inflight ∨ .drop h line ∈ t.inflight))

/-- Mispredictions, Haze promotion, walks and evictions: Claims.SpeculationRows and Claims.WalksAndEvictions. -/
def Obligations.CoreBackground : Prop := Claims.SpeculationRows ∧ Claims.WalksAndEvictions

/-- When the section reaches a compute die, a core that waited for it runs, with its seeds loaded, and no other core
changes; at a base die each slice takes its seed. -/
def Obligations.CacheSection : Prop :=
  (∀ (die : Nat) (s : State), die < 12 → s.sentSection true die = true →
    s.mayArrive (.cacheSectionArrival true die) = true →
    ((coresOf die).filter fun g => (s.core g).run == .waitSection) = [] →
    exec (.cacheSectionArrival true die) s = .next (s.arrive (.cacheSectionArrival true die))) ∧
  (∀ (die : Nat) (s : State), die < 4 → s.sentSection false die = true →
    s.mayArrive (.cacheSectionArrival false die) = true → exec (.cacheSectionArrival false die) s = .next ((s.arrive (.cacheSectionArrival false die)).loadSlices die)) ∧
  ∀ (g : Nat) (s : State), (((s.loadCoreSection g).core g).run = .running) ∧
    ((s.loadCoreSection g).core g).lfsr2 = seedOf (BitVec.ofNat 64 (s.img secCache (0x920 + 2 * g) 2 0) |>.setWidth 16) ∧
    ∀ h, h ≠ g → (s.loadCoreSection g).core h = s.core h

/-! ### Enclaves on a core, tenants -/

/-- ENTER in enclave mode raises its exception; the check of an IDLE entry owned by a READY enclave lets the core in at the
instruction after the gate; EXIT outside enclave mode raises its exception and inside returns to ENC_RETURN. -/
def Claims.EnclaveGateway : Prop :=
  (∀ (c : Nat) (k : BitVec 16) (s s1 s2 s3 : State) (x : Ctx) (tgt e : Word) (tr : Tr) (b : Option (Option Nat)), k.toNat < 32 →
    k.toNat % 2 = 0 → Fetches c s x s1 → slotRead x k.toNat s1 = .ok tgt s2 → slotRead x (k.toNat + 1) s2 = .ok e s3 →
    (x.em = true → exec (.enter c k) s = .next ((s3.undo c).takeExc c x.sw { code := 0x53 })) ∧
    (x.em = false → (s3.enclave (e.toNat % 1024)).st = .evicted →
      exec (.enter c k) s = .next ((s3.undo c).takeExc c x.sw { code := 0x52 })) ∧
    ∀ s4, x.em = false → (s3.enclave (e.toNat % 1024)).st = .ready → translateRaw x .fetch tgt s3 = .ok (tr, b) s4 →
      tgt.toNat % 4 = 0 → ∀ (s5 : State) (l : LineData), readLine x (tr.pa / 64) tr.uc .instr s4 = .ok (.inl l) s5 →
      l.poison = false → isGateWord (lineBytes l (tr.pa % 64) 4) = true → (s5.core c).reservoir ≠ [] →
      ∃ g : BitVec 16, exec (.enter c k) s = .next ((s5.modCore c fun j => { j with
        stall := .gate (e.setWidth 10) tgt g tr.pa }).send (.gateCheck c (e.setWidth 10) tgt g))) ∧
  (∀ (c : Nat) (eid : BitVec 10) (tgt : Word) (gate : BitVec 16) (pa i : Nat) (n : Entry) (s : State), c < 576 →
    s.mayArrive (.gateCheck c eid tgt gate) = true → (s.core c).stall = .gate eid tgt gate pa → s.coreRuns c = true → (s.enclave eid.toNat).st = .ready →
    (s.enclave eid.toNat).gateEntry tgt gate = some (i, n) → s.ownerOf pa = some eid.toNat → n.run = .idle →
    exec (.gateCheck c eid tgt gate) s = .next
      (((s.arrive (.gateCheck c eid tgt gate)).setEntry eid.toNat i (.running c)).gatePasses c
        ((s.core c).enterIdle eid.toNat i n) (tgt + 4))) ∧
  ∀ (c : Nat) (s s1 : State) (x : Ctx), Fetches c s x s1 →
    (x.em = false → exec (.exit c 0) s = .next ((s1.undo c).takeExc c x.sw { code := 0x54 })) ∧
    (x.em = true → exec (.exit c 0) s = .next ((((((s1.leaveEntry c).modCore c fun k => k.gateOut 0).hazeFlush c).event c
      (setBit x.sw 2 false) 0x001).releaseCuts).ends c x ((s1.core c).reg 0x101)))

/-- A forced exit scrubs A, X and L and returns to ENC_RETURN; an acknowledged save area makes the entry INTERRUPTED; the
reservoir takes a triple of non-zero seeds while it holds fewer than four. -/
def Claims.EnclaveExits : Prop :=
  (∀ (c : Nat) (s : State), s.coreRuns c = true → (s.core c).forced = true → (s.core c).stall = .none →
    (s.core c).run = .running → swEm (s.core c).sw = true → ∃ t, exec (.forcedExit c) s = .next t ∧
    (t.core c).a = 0 ∧ (t.core c).x = 0 ∧ (t.core c).y = 0 ∧ (t.core c).l = 0 ∧ (t.core c).va = 0 ∧
    (t.core c).p = (s.core c).reg 0x101 ∧ swEm (t.core c).sw = false ∧ (t.core c).forced = false) ∧
  (∀ (c e i : Nat) (n : Entry) (x : Enclave) (s : State), c < 576 → s.sec.enclaves = [(e, x)] → x.entries = [(i, n)] →
    x.st = .ready → n.run = .running c → swEm (s.core c).sw = false → s.mayArrive (.saveAreaAcked c) = true → ∃ t, exec (.saveAreaAcked c) s = .next t ∧
    (t.enclave e).entries = [(i, { n with run := .interrupted })]) ∧
  ∀ (c : Nat) (a b d : BitVec 16) (s : State), c < 576 → (s.core c).reservoir.length < 4 → a ≠ 0 → b ≠ 0 → d ≠ 0 →
    exec (.seedTripleRefill c a b d) s =
      .next (({ s with sec := s.sec.draw } : State).modCore c fun k => { k with reservoir := k.reservoir ++ [(a, b, d)] })

/-- How a core enters and leaves an enclave: Claims.EnclaveGateway and Claims.EnclaveExits. -/
def Obligations.EnclaveEntryAndExit : Prop := Claims.EnclaveGateway ∧ Claims.EnclaveExits

/-- TSWITCH at H with no vector pending: TID takes the new tenant, every translation entry goes, the router is told, and the
core waits; the answer with no group to pull gives the class and completes it. -/
def Claims.TenantSwitch : Prop :=
  (∀ (c : Nat) (opnd : BitVec 16) (s s1 s2 : State) (x : Ctx) (v : Word), Fetches c s x s1 → x.pl = 2 →
    bit opnd 15 = false → fld opnd 0 10 = 0 → slotRead x (fld opnd 10 5) s1 = .ok v s2 → (s2.core c).sb = [] →
    (s2.core c).win = [] → (∀ g, g < 8 → (s2.core c).reg (0x84 + g) = 0) →
    ∃ t, exec (.tswitch c opnd) s = .next t ∧ (t.core c).stall = .tswitch (s2.core c).tid (v.setWidth 12) [] ∧
      (t.core c).tid = v.setWidth 12 ∧ (t.core c).itlb = [] ∧ (t.core c).dtlb = [] ∧ (t.core c).l2tlb = [] ∧
      t.inflight = s2.inflight ++ [.residencyUpdate c (v.setWidth 12) true] ∧ t.hier = s2.hier) ∧
  ∀ (c : Nat) (cls : BitVec 3) (old new : BitVec 12) (s : State), c < 576 → (s.core c).stall = .tswitch old new [] →
    (s.core c).heldDel = [] → s.mayArrive (.residencyAnswer c cls 0) = true →
    exec (.residencyAnswer c cls 0) s = .next (((((s.arrive (.residencyAnswer c cls 0)).modCore c fun k =>
      k.setNow srQos (cls.setWidth 64)).modCore c fun k =>
        Core.contextSwitch { k with heldDel := [], stall := .none }).hazeFlush c).finishStall c)

/-- PMSTOP, PMGO, ICLR, VINJ and TSWITCH: Claims.CounterAndTenantInstructions and Claims.TenantSwitch. -/
def Obligations.TenantInstructions : Prop := Claims.CounterAndTenantInstructions ∧ Claims.TenantSwitch

/-! ### Coherence at the home -/

/-- With one enabled base die, each of the thirteen ordered requests joins its line's queue (`enqueue`), and the home runs on.
An owned line and a node without its own check answer DENIED; a fenced base die answers FENCED, one that is off or in reset
DOMAIN_OFF (the model's choice, log 54), and one that a row holds stopped keeps the request. -/
def Claims.HomeAdmission : Prop :=
  ∀ (h : Hdr) (line off : Nat) (sh : Bool) (d : LineData) (q : Part) (a : AtomOp) (s : State) (p : Place),
    hdrOk h = true → lineOk line = true → off < 64 → s.locate line = some p →
    ∀ m ∈ homeRequests h line off sh d q a, s.mayArrive m = true → ∃ wl, reqInfo m = some (h, line, wl) ∧
      let s0 := s.arrive m
      let s1 := s0.sliceCheck p.home line
      let u := s.dom (baseUncore p.base)
      (s.isFenced (1400 + p.base) = true → exec m s = .next ((s0.withdraw h line wl).send (.err h (64 * line) 6))) ∧
      (s.isFenced (1400 + p.base) = false → s.runs (baseUncore p.base) = false →
        ((u.inReset || u.st == .off || u.st == .retained) = true →
          exec m s = .next ((s0.withdraw h line wl).send (.err h (64 * line) 3))) ∧
        ((u.inReset || u.st == .off || u.st == .retained) = false →
          exec m s = .next (s0.holdAt (baseUncore p.base) m))) ∧
      (s.isFenced (1400 + p.base) = false → s.runs (baseUncore p.base) = true →
        (s.denied h.node line = true → exec m s = .next ((s1.withdraw h line wl).send (.err h (64 * line) 9))) ∧
        (s.denied h.node line = false → s.bases.length < 2 →
          exec m s = .next ((s1.enqueue p.base line (.of h wl (some m) false none)).kick line)))

/-- On a line without a directory entry or a waiting request: a slice that holds it serves the reads and Claim is granted;
writes go to the controller; evictions and maintenance that find nothing are answered at once. -/
def Claims.HomeAnswersIdle : Prop :=
  ∀ (h : Hdr) (line : Nat) (s : State) (p : Place), hdrOk h = true → lineOk line = true → s.HomeQuiet line p →
    s.dirFind p.home line = none →
    (∀ k l, s.sliceUp p.home = true → sliceFind (s.slice p.home) line = some (k, l) → lineClass l.chk = .clean →
      (∀ sh, Arrives (.rds h line sh none) s fun t =>
        t.inflight = s.inflight.erase (.rds h line sh none) ++
          [if sh then .datas h line ⟨l.bytes, false⟩ else .datae h line ⟨l.bytes, false⟩] ∧
        t.dirOf line = some (if sh then .s (.ptr [h.node]) else .x h.node)) ∧
      Arrives (.rdx h line none) s (fun t => t.inflight = s.inflight.erase (.rdx h line none) ++
        [.datam h line ⟨l.bytes, false⟩] ∧ t.dirOf line = some (.x h.node)) ∧
      Arrives (.upg h line) s (fun t => t.inflight = s.inflight.erase (.upg h line) ++
        [.datam h line ⟨l.bytes, false⟩] ∧ t.dirOf line = some (.x h.node)) ∧
      Arrives (.rdcur h line) s (fun t => t.inflight = s.inflight.erase (.rdcur h line) ++
        [.curdata h line ⟨l.bytes, false⟩] ∧ t.hier.dirs = s.hier.dirs ∧ t.txnAt line = none) ∧
      Arrives (.hazerd h line) s (fun t => t.inflight = s.inflight.erase (.hazerd h line) ++
        [.hazedata h line ⟨l.bytes, false⟩] ∧ t.hier = (s.arrive (.hazerd h line)).hier)) ∧
    Arrives (.claim h line) s (fun t => t.inflight = s.inflight.erase (.claim h line) ++ [.go h line] ∧
      t.dirOf line = some (.x h.node)) ∧
    (s.sliceUp p.home = true → sliceFind (s.slice p.home) line = none →
      (∀ d, Arrives (.wrline h line d) s fun t => t.inflight = s.inflight.erase (.wrline h line d) ++ [.mwr line] ∧
        tfind? t.hier.wq line = some d ∧ t.hier.dirs = s.hier.dirs) ∧
      (∀ q, Arrives (.wrpart h line q) s fun t =>
        t.inflight = s.inflight.erase (.wrpart h line q) ++ [.mmerge line q] ∧ t.hier.dirs = s.hier.dirs) ∧
      Arrives (.cwbreq h line) s (fun t => t.inflight = s.inflight.erase (.cwbreq h line) ++ [.cmp h line] ∧
        t.hier.dirs = s.hier.dirs) ∧
      Arrives (.cflreq h line) s (fun t => t.inflight = s.inflight.erase (.cflreq h line) ++ [.cmp h line] ∧
        t.hier.dirs = s.hier.dirs) ∧
      Arrives (.hazerd h line) s (fun t => t.inflight = s.inflight.erase (.hazerd h line) ++ [.hazeno h line] ∧
        t.hier = (s.arrive (.hazerd h line)).hier)) ∧
    ((s.core h.node).kept = [] → Arrives (.wbreq h line) s fun t =>
      t.inflight = s.inflight.erase (.wbreq h line) ++ [.wbcancel h line] ∧ t.hier.dirs = s.hier.dirs) ∧
    Arrives (.offer h line) s (fun t => t.inflight = s.inflight.erase (.offer h line) ++ [.decline h line] ∧
      t.hier.dirs = s.hier.dirs) ∧
    Arrives (.drop h line) s (fun t => t.inflight = s.inflight.erase (.drop h line) ++ [.cmp h line] ∧
      t.hier.dirs = s.hier.dirs)

/-- On a line that another core holds exclusively, each request sends the one snoop of Table 8-3 to that core, and the home
waits for its answer. -/
def Claims.HomeSnoopsHolder : Prop :=
  ∀ (h : Hdr) (line off k g : Nat) (sh : Bool) (d : LineData) (q : Part) (a : AtomOp) (s : State) (p : Place),
    hdrOk h = true → lineOk line = true → off < 64 → s.HomeQuiet line p → s.dirFind p.home line = some (k, .x g) →
    g ≠ h.node →
    ∀ r ∈ ([(.rds h line sh none, 1), (.rdx h line none, 2), (.upg h line, 2), (.claim h line, 3), (.rdcur h line, 4),
        (.wrline h line d, 3), (.wrpart h line q, 5), (.atom h (64 * line + off) a, 5), (.cwbreq h line, 6),
        (.cflreq h line, 5)] : List (Instr × Nat)),
      Arrives r.1 s fun t => t.inflight = s.inflight.erase r.1 ++ [snoopMsg r.2 h g line] ∧
        t.hier.dirs = s.hier.dirs ∧ (t.txnAt line).map (·.owed) = some [(g, r.2)]

/-- The home answers with the operand's old value and writes the new one into the slice's copy; a poisoned line or operand answers
poisoned and the line stays. -/
def Claims.AtomAtHome : Prop :=
  ∀ (h : Hdr) (line off k : Nat) (l : SLine) (a : AtomOp) (s : State) (p : Place), hdrOk h = true → lineOk line = true →
    off < 64 → s.HomeQuiet line p → s.dirFind p.home line = none → s.sliceUp p.home = true → a.uncached = false →
    sliceFind (s.slice p.home) line = some (k, l) → (s.slice p.home).armed = false →
    (lineClass l.chk = .clean → a.poison = false → Arrives (.atom h (64 * line + off) a) s fun t =>
      t.inflight = s.inflight.erase (.atom h (64 * line + off) a) ++
        [.atomdata h (64 * line + off) (atomLine a l.bytes off).1 false] ∧
      tfind? (t.slice p.home).lines k = some ⟨line, (atomLine a l.bytes off).2, 0, true, l.cls, 0⟩) ∧
    ((lineClass l.chk = .poisoned ∨ lineClass l.chk = .clean ∧ a.poison = true) → Arrives (.atom h (64 * line + off) a) s fun t =>
      t.inflight = s.inflight.erase (.atom h (64 * line + off) a) ++
        [.atomdata h (64 * line + off) (atomLine a l.bytes off).1 true] ∧ t.slice p.home = s.slice p.home)

/-- What a home answers and whom it snoops: Claims.HomeAnswersIdle and Claims.HomeSnoopsHolder and Claims.AtomAtHome. -/
def Obligations.HomeAnswers : Prop := Claims.HomeAnswersIdle ∧ Claims.HomeSnoopsHolder ∧ Claims.AtomAtHome

/-- Where no station has a token that it may post, a grant changes nothing. The grant goes to the station in turn, taking one of
its credits; the turn moves past it, and the waiting request of the token is admitted. A station that cannot correct the
grant stops admitting ordered requests. -/
def Claims.OrderGrant : Prop :=
  (∀ (s : State) (l : Option Nat), (∀ st, st < 5 → s.mayPost st = none) → exec (.orderGrantObserved l) s = .next s) ∧
  ∀ (s : State) (st : Nat) (tk : Token) (ts : List Token) (p : Place), st < 5 → s.hier.order.turn = st →
    tget s.hier.order.posted st [] = tk :: ts → s.locate tk.line = some p →
    tget s.hier.order.used (4 * st + p.base) 0 < s.creditShare →
    let s1 : State := { s with hier := { s.hier with order := { s.hier.order with
      posted := tput s.hier.order.posted st ts, turn := (st + 1) % 5,
      used := tmod s.hier.order.used (4 * st + p.base) 0 (· + 1),
      frame := ringFrame (tk.word.setWidth 592) 0 0 false false } } }
    (s.hier.order.lost.contains p.base = false → exec (.orderGrantObserved none) s = .next (s1.takeIn tk)) ∧
    (s.hier.order.lost.contains p.base = true → exec (.orderGrantObserved none) s = .next s1) ∧
    (s.baseEn p.base = true → exec (.orderGrantObserved (some p.base)) s = .next (s1.grantLost p.base))

/-- Requests are admitted in order, on one base die or through the order channel: Claims.HomeAdmission and Claims.OrderGrant. -/
def Obligations.HomeAdmits : Prop := Claims.HomeAdmission ∧ Claims.OrderGrant

/-! ### Snoops and their answers -/

/-- A running core whose L2 holds the line answers by Table 8-4, once its arrays are checked, and keeps the state the table
gives; one that has no copy, or whose L2 is disabled, answers NotPresent; a set lost to a tag error answers poisoned data. A
retained or waking core's door keeps the snoop and wakes it. -/
def Claims.SnoopAtHolder : Prop :=
  ∀ (req : Hdr) (g line : Nat) (s : State), hdrOk req = true → g < 576 → lineOk line = true →
    ∀ r ∈ ([(.snps, 1), (.snpx, 2), (.snpinv, 3), (.snpcur, 4), (.snpflush, 5), (.snpclean, 6)] :
      List ((Hdr → Nat → Nat → Instr) × Nat)),
    let m := r.1 req g line
    let s1 := (s.arrive m).check g line
    let c := (s1.core g).mergeOn line
    s.mayArrive m = true →
    (s.unitFenced g = true → (s.dom g).st ≠ .closing → exec m s =
      .next ((s.arrive m).send (if s.hier.lost.contains (g, line) then .snpdata g line ⟨0, true⟩ .i else .notpresent g line))) ∧
    (s.unitFenced g = false → s.coreEnabled g = true →
      ((s.dom g).st = .run → (s1.core g).l2On = true →
        (∀ kl k l, (s1.core g).inL2 line = some kl → c.inL2 line = some (k, l) →
          ((s1.core g).setLost line = false → exec m s = .next ((s1.setCore g
            (if (snoopRule r.2 l.st).1 = .i then { c.leaveL1 line with l2 := tdel (c.leaveL1 line).l2 k }
             else { c with l2 := tput c.l2 k { l with st := (snoopRule r.2 l.st).1 } })).sendAll
              (snoopAnswer r.2 req g line l.st ⟨l.bytes, l.poison⟩))) ∧
          ((s1.core g).setLost line = true → exec m s =
            .next ((s1.setCore g { c.leaveL1 line with l2 := tdel c.l2 k }).lostAnswer g line))) ∧
        ((s1.core g).inL2 line = none → (s1.core g).evict = [] → exec m s =
          .next (if (s1.core g).setLost line then s1.lostAnswer g line else s1.send (.notpresent g line)))) ∧
      ((s.dom g).st = .run → (s.core g).l2On = false → (s.core g).inL2 line = none →
        exec m s = .next ((s.arrive m).send (.notpresent g line))) ∧
      ((s.dom g).st = .off → exec m s = .next ((s.arrive m).send (.notpresent g line))) ∧
      ((s.dom g).st = .retained ∨ (s.dom g).st = .waking → exec m s = .next (((s.arrive m).holdAt g m).doorWake g)))

/-- An answer that is not the last is noted; the last one lets the transaction go on, with the data an answer brought; an
answer to a snoop given up is discarded. A holder that does not answer in TIMEOUT_NS of class 0 is reported and counts as an
answer, and poisons the line it owned; other waits of the home expire by the same limit. -/
def Claims.SnoopAnswers : Prop :=
  (∀ (g line : Nat) (s : State) (t : Txn) (p : Place) (code : Nat) (os : List (Nat × Nat)) (d : LineData) (st : L2St),
    g < 576 → lineOk line = true → s.locate line = some p → s.txnAt line = some t → t.owed = (g, code) :: os →
    (∀ o ∈ os, o.1 ≠ g) →
    ∀ r ∈ ([(.acki g line, ⟨.i, none, true, false⟩), (.acks g line, ⟨.s, none, true, false⟩),
        (.acke g line, ⟨.e, none, true, false⟩), (.acko g line, ⟨.o, none, true, false⟩),
        (.snpdata g line d st, ⟨st, some d, true, false⟩)] : List (Instr × Answer)), s.mayArrive r.1 = true →
      let u : Txn := { t with
        owed := os, forwarded := t.forwarded || ((code == 1 || code == 2) && r.2.data.isNone),
        answer := if code ≠ 3 then r.2.state else t.answer, data := r.2.data.or t.data,
        fresh := t.fresh || r.2.data.isSome }
      (s.hier.lateSnoops.contains (g, line) = true → exec r.1 s = .next { s.arrive r.1 with
        hier := { (s.arrive r.1).hier with lateSnoops := s.hier.lateSnoops.erase (g, line) } }) ∧
      (s.hier.lateSnoops.contains (g, line) = false →
        (os ≠ [] → exec r.1 s = .next ((s.arrive r.1).setTxn line u)) ∧
        ∀ rest, os = [] → t.plan = .await 0 :: rest →
          exec r.1 s = .next ((((s.arrive r.1).setTxn line u).setTxn line { u with plan := rest }).kick line))) ∧
  (∀ (g line k : Nat) (s : State) (t : Txn) (p : Place) (os : List (Nat × Nat)) (l : List Nat), g < 576 →
    lineOk line = true → s.locate line = some p → s.txnAt line = some t → t.owed = (g, 3) :: os → os ≠ [] →
    (∀ o ∈ os, o.1 ≠ g) → s.dirFind p.home line = some (k, .s (.ptr l)) → s.mayArrive (.notpresent g line) = true →
    s.hier.lateSnoops.contains (g, line) = false → exec (.notpresent g line) s =
      .next (((s.arrive (.notpresent g line)).dirRemove p.home line g).setTxn line { t with owed := os })) ∧
  (∀ (g line code k : Nat) (s : State) (t : Txn) (p : Place) (os : List (Nat × Nat)) (dir : Dir), g < 576 →
    lineOk line = true → s.locate line = some p → s.txnAt line = some t → t.owed = (g, code) :: os → os ≠ [] →
    (∀ o ∈ os, o.1 ≠ g) → s.dirFind p.home line = some (k, dir) →
    (s.homeDue t.since = false → exec (.homeSnoopTimeout line g) s = .next s) ∧
    (s.homeDue t.since = true → Completes (.homeSnoopTimeout line g) s fun u =>
      u.inflight = s.inflight ++ [.faultMessage (sliceSrc p.home) 0x10 (some (hdrOf t.req).tid) (64 * line % 2 ^ 52)] ∧
      ((u.txnAt line).map (·.owed)) = some os ∧ ((u.txnAt line).map (·.poison)) = some (t.poison || match dir with
        | .x h => h == g
        | .o w _ => w == g
        | .s _ => false) ∧
      (u.slice p.home).snoopTimeouts = ((s.slice p.home).snoopTimeouts + 1) % 2 ^ 32)) ∧
  ∀ (line w : Nat) (s : State) (t : Txn) (p : Place) (rest : List Act), lineOk line = true → s.locate line = some p →
    s.txnAt line = some t → t.plan = .await w :: rest → w = 1 ∨ w = 2 ∨ w = 3 →
    (s.homeDue t.since = false → exec (.homeWaitExpired line) s = .next s) ∧
    (s.homeDue t.since = true → exec (.homeWaitExpired line) s =
      .next (((s.fault (sliceSrc p.home) 0x11 (some (hdrOf t.req).tid) (64 * line)).setTxn
      line { t with
        plan := rest, data := if w = 1 then t.data else some ⟨0, true⟩,
        fresh := if w = 2 then true else t.fresh }).kick line))

/-! ### Grants -/

/-- DataS, DataE, DataM and FwdS grant S, E, M and S at once; FwdM waits for Go, and Go for the data, or takes the line the
L2 already shares. A late grant is taken, acknowledged and given up, once its Go and its data are both there. -/
def Claims.GrantsAtRequester : Prop :=
  ∀ (h : Hdr) (line : Nat) (d : LineData) (s : State), hdrOk h = true → lineOk line = true →
    (∀ r ∈ ([(.datas, .s), (.datae, .e), (.datam, .m), (.fwds, .s)] : List ((Hdr → Nat → LineData → Instr) × L2St)),
      s.mayArrive (r.1 h line d) = true →
      let s1 := (s.arrive (r.1 h line d)).countRead h.node
      (∀ t, s.isLate h = false → (s.core h.node).txn h.tag = some t →
        exec (r.1 h line d) s = .next (s1.granted h line t r.2 d)) ∧
      (s.isLate h = true → exec (r.1 h line d) s = .next (s1.lateGrant h line r.2 d))) ∧
    (s.mayArrive (.fwdm h line d) = true →
      let s1 := (s.arrive (.fwdm h line d)).countRead h.node
      (∀ t, s.isLate h = false → (s.core h.node).txn h.tag = some t → t.want = 2 →
        (t.go = false → exec (.fwdm h line d) s =
          .next (s1.setCore h.node ((s1.core h.node).putTxn { t with data := some d }))) ∧
        (t.go = true → exec (.fwdm h line d) s = .next (s1.granted h line { t with data := some d } .m d))) ∧
      (s.isLate h = true → (s.tag h.node h.tag).lateGo = true →
        exec (.fwdm h line d) s = .next (s1.lateGrant h line .m d)) ∧
      (s.isLate h = true → (s.tag h.node h.tag).lateGo = false → (s.tag h.node h.tag).reserved = true →
        Completes (.fwdm h line d) s fun t => t.tag h.node h.tag = { s.tag h.node h.tag with lateData := some d } ∧
          t.inflight = (s.arrive (.fwdm h line d)).inflight)) ∧
    (s.mayArrive (.go h line) = true →
      let s1 := s.arrive (.go h line)
      (∀ t, s.isLate h = false → (s.core h.node).txn h.tag = some t →
        (t.want = 2 → t.data = some d → exec (.go h line) s = .next (s1.granted h line { t with go := true } .m d)) ∧
        (∀ l, t.want = 3 → t.data = none → (s.core h.node).l2Line line = some l → exec (.go h line) s =
          .next (s1.granted h line { t with go := true } .m ⟨l.bytes, l.poison⟩)) ∧
        (t.want = 4 → exec (.go h line) s = .next (s1.granted h line { t with go := true } .m ⟨0, false⟩))) ∧
      (s.isLate h = true → (s.tag h.node h.tag).lateData = some d →
        exec (.go h line) s = .next (s1.lateGrant h line .m d)))

/-- Where the set has a free way and no store or prefetch waits: CmpAck leaves last, the transaction is over, the tag is free, and the L2
holds the line in the granted state. -/
def Claims.GrantPlacesLine : Prop :=
  ∀ (h : Hdr) (line w : Nat) (t : CoreTxn) (st : L2St) (d : LineData) (s : State), t.tag = h.tag → t.want ≠ 4 →
    (t.prefetch && d.poison) = false → (s.core h.node).inL2 line = none → (s.core h.node).sb = [] →
    (s.core h.node).pfWait = [] → ((s.core h.node).haze.find? fun e => e.line == line && e.promoted) = none →
    lowest (fun w => (tfind? (s.core h.node).l2 (line % 1024 * 16 + w)).isNone) 16 = some w →
    let u := s.granted h line t st d
    u.inflight = s.inflight ++ [.cmpack h line] ∧ ((u.core h.node).txn h.tag) = none ∧
      (u.tag h.node h.tag).req = none ∧
      (u.core h.node).inL2 line = some (line % 1024 * 16 + w, ⟨line, st, d.bytes, d.poison, false, .none⟩) ∧
      (u.core h.node).SameRegs (s.core h.node) ∧ ∀ g, g ≠ h.node → u.core g = s.core g

/-- A grant at its requester and the line it leaves in the L2: Claims.GrantsAtRequester and Claims.GrantPlacesLine. -/
def Obligations.GrantTraffic : Prop := Claims.GrantsAtRequester ∧ Claims.GrantPlacesLine

/-- The message that the home's transaction waits for, from the request it runs for, lets it go on, with the data it brings;
a CmpAck that comes before the last snoop answer is kept. The same message for another request changes nothing, and a late
layer-1 answer is discarded. -/
def Claims.TransactionEnds : Prop :=
  ∀ (h : Hdr) (line : Nat) (d : LineData) (s : State) (t : Txn) (a : Act) (rest : List Act), hdrOk h = true →
    lineOk line = true → s.txnAt line = some t → t.plan = a :: rest →
    (s.runsFor h line = true →
      (s.mayArrive (.cmpack h line) = true → exec (.cmpack h line) s = .next (if a = .await 1 then
          ((s.arrive (.cmpack h line)).setTxn line { t with plan := rest }).kick line
        else (s.arrive (.cmpack h line)).setTxn line { t with acked := true })) ∧
      (a = .await 2 → ∀ m ∈ [.wbdata h line d, .offerdata h line d], s.mayArrive m = true → exec m s =
        .next (((s.arrive m).setTxn line { t with plan := rest, data := some d, fresh := true }).kick line))) ∧
    (s.runsFor h line = false → ∀ m ∈ [.cmpack h line, .wbdata h line d, .offerdata h line d], s.mayArrive m = true →
      exec m s = .next (s.arrive m)) ∧
    (s.mayArrive (.mdata line d) = true →
      let s1 := s.arrive (.mdata line d)
      (s.hier.l1Late.contains line = false → a = .await 3 → exec (.mdata line d) s = .next
        (((s1.layer1Over line (· == 1)).setTxn line { t with plan := rest, data := some d }).kick line)) ∧
      (s.hier.l1Late.contains line = true → exec (.mdata line d) s =
        .next { s1 with hier := { s1.hier with l1Late := s1.hier.l1Late.erase line } }))

/-- Snoops at the holder, their answers at the home, and what lets the home go on: Claims.SnoopAtHolder and Claims.SnoopAnswers and Claims.TransactionEnds. -/
def Obligations.SnoopTraffic : Prop := Claims.SnoopAtHolder ∧ Claims.SnoopAnswers ∧ Claims.TransactionEnds

/-- WbGo makes the buffer's data leave; Accept makes it leave and frees the buffer; WbCancel, Decline, AcceptHeld and Cmp free
it. A late answer is only counted. -/
def Claims.EvictionAnswers : Prop :=
  ∀ (h : Hdr) (line : Nat) (s : State) (b : EvictBuf), hdrOk h = true → lineOk line = true → h.node < 576 → h.tag < 256 →
    ((s.core h.node).evict.find? fun b => b.line == line && b.tag == h.tag) = some b →
    let cnt (s : State) := s.stat h.node fun x => { x with wrBytes := x.wrBytes + 64 }
    (s.isLate h = false →
      (s.mayArrive (.wbgo h line) = true → exec (.wbgo h line) s =
        .next ((cnt (s.arrive (.wbgo h line))).send (.wbdata h line ⟨b.bytes, b.poison⟩))) ∧
      (s.mayArrive (.accept h line) = true → exec (.accept h line) s = .next (((cnt (s.arrive (.accept h line))).send
        (.offerdata h line ⟨b.bytes, b.poison⟩)).freeEvict h line)) ∧
      (∀ m ∈ [.wbcancel h line, .decline h line, .acceptheld h line], s.mayArrive m = true →
        exec m s = .next ((s.arrive m).freeEvict h line)) ∧
      (s.current h = true → s.mayArrive (.cmp h line) = true →
        exec (.cmp h line) s = .next ((s.arrive (.cmp h line)).freeEvict h line))) ∧
    (s.isLate h = true → ∀ m ∈ [.wbgo h line, .accept h line, .wbcancel h line, .decline h line, .acceptheld h line,
      .cmp h line], s.mayArrive m = true → exec m s = .next ((s.arrive m).lateResponse h))

/-- Cmp for an uncached store removes it from the store buffer; Err for the store at its head raises DATA_ERROR with that
store's address; CurData of an uncached read is kept for the instruction that waits; AtomData stores the old value in the
destination slots and completes the instruction, or raises LOAD_POISON when poisoned; a Haze read's answer fills or refuses
its entry. -/
def Claims.RequestAnswers : Prop :=
  ∀ (h : Hdr) (line : Nat) (s : State), hdrOk h = true → lineOk line = true → h.node < 576 → h.tag < 256 →
    s.current h = true →
    (∀ (e : SbEntry) (es : List SbEntry) (t : CoreTxn), (s.core h.node).evict = [] → (s.core h.node).sb = e :: es →
      (s.core h.node).txn h.tag = some t → t.want = 7 → (s.core h.node).stall = .none → (s.core h.node).bcasts = [] →
      s.junction = [] → s.mayArrive (.cmp h line) = true →
      ∃ u, exec (.cmp h line) s = .next u ∧ (u.core h.node).sb = es ∧ (u.core h.node).txn h.tag = none ∧
        (u.tag h.node h.tag).req = none ∧ (u.core h.node).SameRegs (s.core h.node)) ∧
    (∀ (d : LineData) (t : CoreTxn), (s.core h.node).txn h.tag = some t → t.want = 5 → s.mayArrive (.curdata h line d) = true →
      ∃ u, exec (.curdata h line d) s = .next u ∧ (u.core h.node).cur = (s.core h.node).cur ++ [(line, d)] ∧
        (u.core h.node).txn h.tag = none ∧ (u.tag h.node h.tag).req = none) ∧
    (∀ (va : Word) (dst : List (Nat × Bool × Word)) (pa : Nat) (old : BitVec 128), pa / 64 = line → pa < 2 ^ 52 →
      (s.core h.node).stall = .atomic h.tag va dst →
      (s.mayArrive (.atomdata h pa old false) = true →
        let x := (s.core h.node).ctx h.node
        let s1 := ((s.arrive (.atomdata h pa old false)).countRead h.node).modCore h.node fun c => { c with stall := .none }
        (∀ u t, atomicStore x dst old s1 = .ok u t → ((t.finish h).core h.node).stall = .none →
          exec (.atomdata h pa old false) s = .next ((t.finish h).finishStall h.node)) ∧
        ∀ e t, atomicStore x dst old s1 = .error (.exc e) t → exec (.atomdata h pa old false) s =
          .next (((t.finish h).modCore h.node fun c => { c with due := [] }).takeExc h.node x.sw e)) ∧
      (s.mayArrive (.atomdata h pa old true) = true → exec (.atomdata h pa old true) s = .next
        (((((s.arrive (.atomdata h pa old true)).countRead h.node).finish h).modCore h.node fun c =>
          { c with stall := .none, due := [] }).takeExc h.node ((s.core h.node).ctx h.node).sw { code := 0x41, addr := va }))) ∧
    (∀ (d : LineData) (e : HazeEntry), (s.core h.node).haze = [e] → e.line = line → e.promoted = false →
      (s.mayArrive (.hazedata h line d) = true → ∃ u, exec (.hazedata h line d) s = .next u ∧
        (u.core h.node).haze = [{ e with data := some d, refused := false }] ∧ (u.tag h.node h.tag).req = none) ∧
      (s.mayArrive (.hazeno h line) = true → ∃ u, exec (.hazeno h line) s = .next u ∧
        (u.core h.node).haze = [{ e with data := none, refused := true }] ∧ (u.tag h.node h.tag).req = none)) ∧
    ∀ (code : BitVec 16) (pa : Nat) (e : SbEntry) (es : List SbEntry) (t : CoreTxn), pa / 64 = line → pa < 2 ^ 52 →
      code ≠ 4 → (s.tag h.node h.tag).req = some (.wrpart h line ⟨e.data, e.mask, BitVec.ofNat 6 (e.pa % 64), false⟩) →
      (s.core h.node).evict = [] → (s.core h.node).sb = e :: es → e.pa / 64 = line → s.junction = [] →
      (s.core h.node).txn h.tag = some t → t.want = 7 → (s.core h.node).stall = .none → (s.core h.node).bcasts = [] →
      s.mayArrive (.err h pa code) = true →
      ∃ s1 : State, exec (.err h pa code) s = .next (s1.dataError h.node e.va e.pc) ∧ (s1.core h.node).sb = es ∧
        (s1.tag h.node h.tag).req = none

/-- The data of an engine's last line completes its read; poisoned data fails it. -/
def Claims.ReadDataAtEngine : Prop :=
  ∀ (h : Hdr) (line : Nat) (d : LineData) (s s1 : State) (r : Reader), hdrOk h = true → lineOk line = true →
    s.current h = true → 576 ≤ h.node → s.mayArrive (.curdata h line d) = true →
    ((((s.arrive (.curdata h line d)).countRead h.node).finish h).readerData h.node h.tag d = (.done r, s1) →
      exec (.curdata h line d) s = .next (s1.readDone h.tag r)) ∧
    ∀ e a, (((s.arrive (.curdata h line d)).countRead h.node).finish h).readerData h.node h.tag d = (.bad r e a, s1) →
      exec (.curdata h line d) s = .next (s1.readFailed h.tag r e a)

/-- Answers to evictions, requests and an engine's reads: Claims.EvictionAnswers and Claims.RequestAnswers and Claims.ReadDataAtEngine. -/
def Obligations.AnswersToRequests : Prop := Claims.EvictionAnswers ∧ Claims.RequestAnswers ∧ Claims.ReadDataAtEngine

/-! ### Memory -/

/-- With the stack's domain in RUN and no fence: a read answers MData, MWr reserves an entry and answers MWrGo, MMerge stores
the merged line, MAtom answers the old value and stores the new one unless the line or the operand is poisoned. Where the
stack's door does not serve, it answers Err with its code: FENCED under a fence. -/
def Claims.LayerOneRequests : Prop :=
  ∀ (line : Nat) (s : State) (p : Place), lineOk line = true → s.locate line = some p →
    let k := p.stack
    let awake (s : State) := s.setMc k { s.mc k with selfRefresh := false, grants := (s.mc k).grants + 1 }
    (s.unitFenced (stackDomain k) = false → (s.dom (stackDomain k)).st = .run → (s.dom (stackDomain k)).inReset = false →
      (s.mayArrive (.mrd line) = true → ∀ d s2, (awake (s.arrive (.mrd line))).dramRead p line = (d, s2) →
        exec (.mrd line) s = .next (s2.send (.mdata line d))) ∧
      (s.mayArrive (.mwr line) = true → exec (.mwr line) s =
        .next (((awake (s.arrive (.mwr line))).setMc k { (awake s).mc k with
          queue := ((awake s).mc k).queue ++ [line] }).send (.mwrgo line))) ∧
      (∀ q d s2, s.mayArrive (.mmerge line q) = true → (awake (s.arrive (.mmerge line q))).dramRead p line = (d, s2) →
        exec (.mmerge line q) s = .next ((s2.dramWrite p line (mergePart d q)).send (.cmp (s.homeHdr p line) line))) ∧
      ∀ req off a d s2, hdrOk req = true → off < 64 → s.mayArrive (.matom req (64 * line + off) a) = true →
        (awake (s.arrive (.matom req (64 * line + off) a))).dramRead p line = (d, s2) →
        exec (.matom req (64 * line + off) a) s = .next ((((if d.poison || a.poison then s2
          else s2.dramWrite p line ⟨(atomLine a d.bytes off).2, false⟩)).send
            (.atomdata req (64 * line + off) (atomLine a d.bytes off).1 (d.poison || a.poison))).send
              (.cmp (s.homeHdr p line) line))) ∧
    (s.unitFenced (stackDomain k) = true → ∀ m ∈ [.mrd line, .mwr line], s.mayArrive m = true →
      exec m s = .next ((s.arrive m).send (.err (s.homeHdr p line) (64 * line) 6))) ∧
    ∀ m ∈ [.mrd line, .mwr line], s.mayArrive m = true → ∀ a s2, (s.arrive m).door (stackDomain k) true = (a, s2) →
      a ≠ .serve → exec m s = .next (s2.send (.err (s.homeHdr p line) (64 * line) (BitVec.ofNat 16 a.code)))

/-- MWrGo makes the kept data leave; MWrData stores it and frees its entry; without an entry nothing is stored. A home that
waited for tokens goes on. -/
def Claims.LineWrites : Prop :=
  ∀ (line : Nat) (d : LineData) (s : State) (p : Place), lineOk line = true → s.locate line = some p →
    (s.mayArrive (.mwrgo line) = true → tfind? s.hier.wq line = some d →
      exec (.mwrgo line) s = .next ((s.arrive (.mwrgo line)).send (.mwrdata line d))) ∧
    (s.mayArrive (.mwrdata line d) = true → (s.mc p.stack).queue.contains line = true → exec (.mwrdata line d) s =
      .next ((((s.arrive (.mwrdata line d)).setMc p.stack { s.mc p.stack with
        queue := (s.mc p.stack).queue.erase line }).dramWrite p line d).send (.cmp (s.homeHdr p line) line))) ∧
    (s.mayArrive (.mwrdata line d) = true → (s.mc p.stack).queue.contains line = false → exec (.mwrdata line d) s = .next (s.arrive (.mwrdata line d))) ∧
    ∀ t rest, s.qos.waiting.contains line = true → s.txnAt line = some t → t.plan = .await 5 :: rest →
      exec (.dramTokenWaitEnd line) s = .next ((({ s with qos := { s.qos with
        waiting := s.qos.waiting.erase line } } : State).setTxn line { t with plan := rest }).kick line)

/-- Without an armed flip mask and outside the enclaves' ranges a line reads as it was written, poisoned or not; every byte of
another stored line is unchanged, whatever the mask. -/
def Claims.StoredLines : Prop :=
  ∀ (s : State) (p : Place) (line : Nat) (d : LineData), memWf s.hier.dram = true →
    ((s.mc p.stack).armed = false → rangeOwner (s.mc p.stack).ranges line = none →
      (s.dramWrite p line d).dramPeek p line = d) ∧
    ∀ a, a / 64 ≠ s.dramLoc p.stack p.local_ →
      memRead (s.dramWrite p line d).hier.dram a = memRead s.hier.dram a

/-- Reset's memory has the canonical form, in which no listed byte equals what an unlisted one reads as (the model's choice,
log entry 1), and each command that stores at a controller keeps it. -/
def Claims.MemoryForm : Prop :=
  memWf State.reset.hier.dram = true ∧
  ∀ (line k : Nat) (req : Hdr) (pa : Nat) (a : AtomOp) (q : Part) (d : LineData) (s t : State), memWf s.hier.dram = true →
    ∀ m ∈ [.mrd line, .mwr line, .mmerge line q, .matom req pa a, .mwrgo line, .mwrdata line d, .scrubStep k,
      .remapCopyStep k], exec m s = .next t → memWf t.hier.dram = true

/-- Layer-1 requests and line writes, and that memory reads back and keeps its form: Claims.LayerOneRequests and Claims.LineWrites and Claims.StoredLines and Claims.MemoryForm. -/
def Obligations.MemoryTraffic : Prop := Claims.LayerOneRequests ∧ Claims.LineWrites ∧ Claims.StoredLines ∧ Claims.MemoryForm

/-- A 1 in a reserved bit of SCRUB_CMD is counted. GO while a pass runs is a violation; an aligned range of populated memory starts a pass; the checks' first failure is the
outcome. No step comes before GAP_NS has passed, nor while a layer-1 request waits and fewer than 64 were granted. A step examines
one line of the stack; the last ends the pass with the count; ABORT ends it ABORTED. -/
def Claims.Scrubbing : Prop :=
  ∀ (k : Nat) (v : Word) (s : State), k < 12 → s.runs (stackDomain k) = true →
    let m := s.mc k
    let s0 := s.reserved (mcBlock k) scrubBits v
    let m0 : Mc := { m with
      gap := (v >>> 32).setWidth 16, mode := v.setWidth 2, res := m.res.accept, cnt1 := 0, cnt3 := 0, cnt2 := 0, cntP := 0,
      first := 0, last := 0, worst := 0 }
    let base := fld m.scrubBase 0 52
    let len := m.scrubLen.toNat
    (bit v 63 = true → m.pass.isSome = true → exec (.scrubGo k v) s = .next (s0.violate (mcBlock k))) ∧
    (bit v 63 = true → m.pass = none →
      (bit v 1 = true → exec (.scrubGo k v) s = .next (s0.setMc k { m0 with res := m0.res.fail codeFieldInvalid 0 })) ∧
      (bit v 1 = false → len = 0 → exec (.scrubGo k v) s = .next (s0.setMc k { m0 with res := m0.res.done 0 })) ∧
      (bit v 1 = false → len ≠ 0 → (base % 64 ≠ 0 ∨ len % 64 ≠ 0) →
        exec (.scrubGo k v) s = .next (s0.setMc k { m0 with res := m0.res.fail codeAlign 0 })) ∧
      (bit v 1 = false → len ≠ 0 → base % 64 = 0 → len % 64 = 0 → 64 * s.dramLines < base + len →
        exec (.scrubGo k v) s = .next (s0.setMc k { m0 with res := m0.res.fail codeLengthRange 0 })) ∧
      (bit v 1 = false → len ≠ 0 → base % 64 = 0 → len % 64 = 0 → base + len ≤ 64 * s.dramLines →
        exec (.scrubGo k v) s = .next (s0.setMc k { m0 with
          pass := some ⟨base / 64, (base + len) / 64, bit v 0, m0.gap.toNat, 0, s.now⟩ }))) ∧
    (bit v 63 = false → bit v 62 = true → m.pass.isSome = true → exec (.scrubAbort k v) s = .next (s0.setMc k { m with
      gap := (v >>> 32).setWidth 16, mode := v.setWidth 2, res := m.res.fail codeAborted 0, pass := none })) ∧
    ∀ q, m.pass = some q → (s.now < q.due → exec (.scrubStep k) s = .next s) ∧
      (s.layer1Waits k = true → m.grants < 64 → exec (.scrubStep k) s = .next s) ∧
      (q.due ≤ s.now → s.layer1Waits k = false ∨ 64 ≤ m.grants → ∃ t, exec (.scrubStep k) s = .next t ∧
      ∀ p, s.locate q.next = some p → p.stack = k → (s.dramLook p).2 = .clean →
        (q.next + 1 = q.stop → (t.mc k).pass = none ∧ (t.mc k).res = m.res.done (q.examined + 1)) ∧
        (q.next + 1 ≠ q.stop → (t.mc k).pass = some { q with next := q.next + 1, examined := q.examined + 1, due := s.now + q.gap } ∧
          (t.mc k).res = m.res) ∧ t.hier.dram = s.hier.dram)

/-- A REMAP write without COPY switches at once; a new entry with COPY starts the copy with V 0; a step copies one line, and
the last sets V. -/
def Claims.RowRemap : Prop :=
  ∀ (k n : Nat) (v : Word) (s : State), k < 12 → n < 16 → s.runs (stackDomain k) = true →
    let m := s.mc k
    let s0 := s.reserved (mcBlock k) (maskBits 63 62 ||| maskBits 21 0) v
    let new : Word := BitVec.ofNat 64 ((bit v 63).toNat * 2 ^ 63 + fld v 0 22)
    (bit v 62 = false → exec (.remapWrite k n v) s = .next (s0.setMc k { m with
      remap := tput m.remap n new, copying := m.copying.filter fun c => c.1 != n })) ∧
    (bit v 62 = true → bit v 63 = true → remapV (tget m.remap n 0) = false → exec (.remapWrite k n v) s =
      .next (s0.setMc k { m with
        remap := tput m.remap n (setBit new 63 false),
        copying := (m.copying.filter fun c => c.1 != n) ++ [(n, remapRow new, 0)] })) ∧
    (m.copying = [] → exec (.remapCopyStep k) s = .next s) ∧
    ∀ row i rest, m.copying = (n, row, i) :: rest → ∃ t, exec (.remapCopyStep k) s = .next t ∧
      (lineClass (tget s.hier.chk (s.dramLoc k (row * 512 + i)) 0) = .clean → memWf s.hier.dram = true → m.armed = false →
        readRaw t.hier.dram (spareLine k n + i) = readRaw s.hier.dram (s.dramLoc k (row * 512 + i))) ∧
      (i ≠ 511 → (t.mc k).copying = (n, row, i + 1) :: rest) ∧
      (i = 511 → (t.mc k).copying = rest ∧ remapV (tget (t.mc k).remap n 0) = true)

/-- FLIP_CTL with ARM arms the mask of a controller or a slice; CLEAR zeroes the counts; a slice's seed starts its LFSR; an
unchanged remap entry changes nothing, and one that leaves no copy is entered. -/
def Claims.ControlRegistersOfMemory : Prop :=
  ∀ (s : State) (v : Word),
    (∀ k, k < 12 → s.runs (stackDomain k) = true →
      let s1 := s.reserved (mcBlock k) (maskBits 17 16 ||| maskBits 10 0) v
      let s2 := s.reserved (mcBlock k) (maskBits 63 63 ||| maskBits 55 0) v
      (bit v 16 = true → exec (.flipArm false k v) s = .next (s1.setMc k { s.mc k with
        flipWin := (v >>> 8).setWidth 3, flipHi := v.setWidth 8, armed := true })) ∧
      (bit v 63 = true → exec (.mcErrClear k v) s = .next (s2.setMc k { s.mc k with ue := 0, ce := 0 })) ∧
      (bit v 63 = false → exec (.mcErrClear k v) s = .next s2)) ∧
    ∀ h n, h < 384 → n < 4 →
      let r (m : Word) := s.reserved (l3Block (h / 96)) m v
      (bit v 16 = true → exec (.flipArm true h v) s = .next ((r (maskBits 17 16 ||| maskBits 10 0)).setSlice h { s.slice h with
        flipWin := (v >>> 8).setWidth 3, flipHi := v.setWidth 8, armed := true })) ∧
      (s.baseEn (h / 96) = true →
        (bit v 8 = true → exec (.clrErr h v) s = .next ((r (maskBits 8 0)).setSlice h { s.slice h with
          ctl := v.setWidth 8, ue := 0, ce := 0 })) ∧
        exec (.sliceLfsrWrite h v) s = .next ((r (maskBits 15 0)).setSlice h { s.slice h with
          seed := v.setWidth 16, lfsr := seedOf (v.setWidth 16) })) ∧
      (tget (s.slice h).remap n 0 = v &&& 0x800000000FFF000F → exec (.sliceRemapWrite h n v) s =
        .next (r (maskBits 63 63 ||| maskBits 27 16 ||| maskBits 3 0))) ∧
      (tget (s.slice h).remap n 0 ≠ v &&& 0x800000000FFF000F → (s.slice h).lines = [] → exec (.sliceRemapWrite h n v) s =
        .next ((r (maskBits 63 63 ||| maskBits 27 16 ||| maskBits 3 0)).setSlice h { s.slice h with remap := tput (s.slice h).remap n (v &&& 0x800000000FFF000F) }))

/-- Scrubbing, row remapping and the flip mechanism: Claims.Scrubbing and Claims.RowRemap and Claims.ControlRegistersOfMemory. -/
def Obligations.MemoryUpkeep : Prop := Claims.Scrubbing ∧ Claims.RowRemap ∧ Claims.ControlRegistersOfMemory

/-! ### The fabric -/

/-- A flit at an input of a running router of the die, which the arbiter grants, goes on; corrected words are counted; an
uncorrectable payload word sets POISON; an uncorrectable header, address or route word discards the flit and reports it. A
flit that is at no router of the die, or not granted, stays. -/
def Claims.FlitsAtRouters : Prop :=
  ∀ (die i : Nat) (ws : List WordErr) (routeOk : Bool) (s : State) (m : Instr) (f : FlitInfo) (g : Flight), die < 17 →
    s.inflight[i]? = some m → s.flitOf m = some f → ws.length = 9 →
    let t := (s.enter m f).settle m
    (t.hier.flights.find? (·.msg == m)) = some g →
    let ce := ws.countP (· == .corrected)
    let ue := ws.countP (· == .uncorrectable)
    let s1 := t.setFab die { t.fabBlock die with
      meshCe := min ((t.fabBlock die).meshCe + ce) (2 ^ 32 - 1),
      meshUe := min ((t.fabBlock die).meshUe + ue + (!routeOk).toNat) (2 ^ 32 - 1) }
    let lost := ws[0]? = some .uncorrectable ∨ (f.addressed = true ∧ ws[8]? = some .uncorrectable) ∨ routeOk = false
    let here := (g.path.head?).bind (·.1.die) = some die ∧ t.routersRun die = true ∧ t.granted? g = true
    (¬here → exec (.flitHop die i ws routeOk) s = .next s) ∧
    (here → lost → exec (.flitHop die i ws routeOk) s = .next ((s1.arrive m).fault (fabSrc die) 0x20 none 0)) ∧
    (here → ¬lost →
      (ue = 0 → exec (.flitHop die i ws routeOk) s = .next (s1.grant { g with msg := m } f)) ∧
      (0 < ue → exec (.flitHop die i ws routeOk) s = .next ((s1.poisonFlit m).grant { g with msg := poisonMsg m }
        { f with poison := f.poison || poisonMsg m != m })))

/-- A core's shared read that has waited TIMEOUT_NS times out: its tag stays reserved with the next GEN; the reservation expires
after DRAIN_LIMIT_NS; a request answered RETRY leaves again unchanged; a WrLine that times out blocks further ones of its line. -/
def Claims.TagsAfterTimeouts : Prop :=
  ∀ (node tag : Nat) (s : State), node < 576 → tag < 256 →
    ((s.tag node tag).reserved = true → (s.tag node tag).since + s.drainLimit ≤ s.now →
      exec (.tagReserveExpiry node tag) s =
        .next (s.setTag node tag { s.tag node tag with reserved := false, req := none, lateData := none, lateGo := false })) ∧
    (s.now < (s.tag node tag).since + s.drainLimit → exec (.tagReserveExpiry node tag) s = .next s) ∧
    ((s.tag node tag).reserved = false → exec (.tagReserveExpiry node tag) s = .next s) ∧
    (∀ m, (s.tag node tag).req = some m →
      ((s.tag node tag).retry = true → exec (.retryReissue node tag none) s =
        .next ((s.setTag node tag { s.tag node tag with retry := false }).send m)) ∧
      ((s.tag node tag).retry = false → exec (.retryReissue node tag none) s = .next s)) ∧
    (∀ h l sh hs, (s.tag node tag).req = some (.rds h l sh hs) → (s.tag node tag).reserved = false →
      (s.timeoutDue node (64 * l) (s.tag node tag).since = false → exec (.initiatorTimeout node tag none) s = .next s) ∧
      (s.timeoutDue node (64 * l) (s.tag node tag).since = true →
        ∃ t, exec (.initiatorTimeout node tag none) s = .next t ∧ (t.tag node tag).reserved = true ∧
          (t.tag node tag).gen = (s.tag node tag).gen + 1 ∧ (t.tag node tag).req = none ∧ (t.tag node tag).since = s.now)) ∧
    ∀ line, (s.hier.wrLines.any fun w => w.1 == node && w.2.1 == line && s.timeoutDue node (64 * line) w.2.2) = true →
      s.junction = [] → (s.core node).stall = .none →
      s.hier.wrBlocked.contains (node, line) = false → ∃ t, exec (.initiatorTimeout node tag (some line)) s = .next t ∧
        t.inflight = s.inflight ++ [.faultMessage (s.coreSrc node) 0x21 none (64 * line % 2 ^ 52)] ∧
        t.hier.wrBlocked = s.hier.wrBlocked ++ [(node, line)] ∧
        t.hier.wrLines = s.hier.wrLines.eraseP fun w => w.1 == node && w.2.1 == line

/-- A frame on a channel that its pair does not use is ignored. An idle frame that is due leaves; with none due nothing
happens. A replay sends every unacknowledged frame again and counts once. -/
def Claims.RingFrames : Prop :=
  ∀ (src dst ch : Nat) (fr : BitVec 768) (s : State), src < 5 → dst < 5 → ch < 1024 →
    (s.mayArrive (.ringFrameReceive src dst ch fr) = true → (s.pair src dst).active.contains ch = false →
      exec (.ringFrameReceive src dst ch fr) s = .next (s.arrive (.ringFrameReceive src dst ch fr))) ∧
    (s.mayArrive (.ringFrameReceive src dst ch fr) = true → src ≠ dst → (s.pair src dst).active.contains ch = true → rsCorrect ((toBytes fr 96).map (·.toNat)) = none →
      ∃ t, exec (.ringFrameReceive src dst ch fr) s = .next t ∧
        (t.fabBlock (stationFab dst)).crcFail = satInc 32 (s.fabBlock (stationFab dst)).crcFail ∧
        (t.pair src dst).got = (s.pair src dst).got) ∧
    ((s.pair dst src).owesAck = false → exec (.ringIdleDue src dst) s = .next s) ∧
    ((s.pair dst src).owesAck = true → exec (.ringIdleDue src dst) s = .next (s.ringPut src dst 0 0 false true)) ∧
    ((s.pair src dst).unacked = [] → exec (.ringReplayTimeout src dst) s = .next s) ∧
    ∀ u, (s.pair src dst).unacked = [u] → exec (.ringReplayTimeout src dst) s =
      .next ((s.setPair src dst { s.pair src dst with replays := satInc 32 (s.pair src dst).replays }).ringPut src dst
        u.2.1 u.1 false false)

/-- Flits at routers, timeouts of tags, and frames on the ring: Claims.FlitsAtRouters and Claims.TagsAfterTimeouts and Claims.RingFrames. -/
def Obligations.FabricTraffic : Prop := Claims.FlitsAtRouters ∧ Claims.TagsAfterTimeouts ∧ Claims.RingFrames

/-! ### Interrupt delivery and quiesce -/

/-- A running core whose TID matches sets the vector's bit of VEC_PEND and nothing else; a mismatch, or a core that is off or
fenced, returns the delivery, which the router posts; TSWITCH keeps it; a retained core's door keeps it and wakes the core. -/
def Claims.DeliveryAtCore : Prop :=
  ∀ (c : Nat) (t : BitVec 12) (v : BitVec 9) (s : State), c < 576 → s.mayArrive (.interruptDelivery c t v) = true →
    let s1 := s.arrive (.interruptDelivery c t v)
    let id : BitVec 12 := ((s.core c).at s.free srTid).setWidth 12
    let live : Prop := (s.core c).run = .running ∨ (s.core c).run = .wfi ∨ (s.core c).run = .paused
    (s.unitFenced c = false → s.coreEnabled c = true →
      ((s.dom c).st = .run → (s.core c).stall = .none →
        (live → id = t → ∃ u, exec (.interruptDelivery c t v) s = .next u ∧
          (u.core c).reg (0x84 + v.toNat / 64) = setBit ((s.core c).reg (0x84 + v.toNat / 64)) (v.toNat % 64) true ∧
          (∀ n, n ≠ 0x84 + v.toNat / 64 → (u.core c).reg n = (s.core c).reg n) ∧ u.router = s.router ∧ u.hier = s1.hier ∧
          u.inflight = s1.inflight ∧ ∀ g, g ≠ c → u.core g = s.core g) ∧
        (¬live ∨ id ≠ t → exec (.interruptDelivery c t v) s =
          .next (({ s1 with free := s.free + 1 } : State).returnDelivery t v))) ∧
      (∀ a b l, (s.dom c).st = .run → (s.core c).stall = .tpush a b ∨ (s.core c).stall = .tswitch a b l →
        exec (.interruptDelivery c t v) s =
          .next (s1.setCore c { s.core c with heldDel := (s.core c).heldDel ++ [(t, v)] })) ∧
      ((s.dom c).st = .off → exec (.interruptDelivery c t v) s = .next (s1.returnDelivery t v)) ∧
      ((s.dom c).st = .closing → exec (.interruptDelivery c t v) s =
        .next (s1.holdAt c (.interruptDelivery c t v))) ∧
      ((s.dom c).st = .retained ∨ (s.dom c).st = .waking → exec (.interruptDelivery c t v) s =
        .next ((s1.holdAt c (.interruptDelivery c t v)).doorWake c))) ∧
    (s.unitFenced c = true → exec (.interruptDelivery c t v) s = .next (s1.returnDelivery t v))

/-- A message for a paused tenant is held; for a disabled one it is discarded and counted; for a vector whose group's target
core has the tenant resident it is delivered and counted; else it is posted to the tenant's record, and lost while PIT_BASE
is not enabled. A residency update changes the record of its core; TSWITCH's is answered with the class and the group mask,
at once where no post of the tenant is outstanding. -/
def Claims.RouterMessages : Prop :=
  ∀ (t : BitVec 12) (v : BitVec 9) (s : State),
    (s.mayArrive (.routerMessage t v) = true →
      let s1 := s.arrive (.routerMessage t v)
      let r := s.router
      let g := (s.tenant t).group (v.toNat / 64)
      (r.paused.contains t = true → exec (.routerMessage t v) s =
        .next { s1 with router := { r with held := r.held ++ [(t, v)] } }) ∧
      (r.paused.contains t = false →
        ((s.tenant t).en = false → exec (.routerMessage t v) s =
          .next { s1 with router := { r with discarded := r.discarded + 1 } }) ∧
        ((s.tenant t).en = true → g.1 = true → g.2 < 576 → s.residentOf g.2 = t → exec (.routerMessage t v) s =
          .next (({ s1 with router := { r with direct := r.direct + 1 } } : State).send (.interruptDelivery g.2 t v))) ∧
        ((s.tenant t).en = true → g.1 = false ∨ 576 ≤ g.2 ∨ s.residentOf g.2 ≠ t →
          (s.pitEn = false → exec (.routerMessage t v) s = .next (s1.postLost t (s.pitBase + 512 * t.toNat + v.toNat))) ∧
          (s.pitEn = true → ∀ h s2, s1.issue routerNode t (s.tenantCls t) (fun h => .wrpart h
              ((s.pitBase + 512 * t.toNat + v.toNat) / 64)
              ⟨1, 1, BitVec.ofNat 6 (s.pitBase + 512 * t.toNat + v.toNat), false⟩) = some (h, s2) →
            exec (.routerMessage t v) s = .next { s2 with router := { s2.router with posts := s2.router.posts ++
              [⟨t, v, (s.pitBase + 512 * t.toNat + v.toNat) / 64, h.tag⟩] } })))) ∧
    ∀ (c : Nat) (b : Bool), c < 576 → s.mayArrive (.residencyUpdate c t b) = true →
      let s1 := s.arrive (.residencyUpdate c t b)
      ∃ u, exec (.residencyUpdate c t b) s = .next u ∧ u.residentOf c = t ∧ (∀ g, g ≠ c → u.residentOf g = s.residentOf g) ∧
        u.cores = s.cores ∧ u.hier = s1.hier ∧
        (b = false → u.inflight = s1.inflight ∧ u.router.switching = s.router.switching) ∧
        (b = true → s.router.switching = [] → s.router.quiesce = none →
          ((s.router.posts.any fun p => p.tid == t) = true →
            u.inflight = s1.inflight ∧ u.router.switching = [(c, t)]) ∧
          ((s.router.posts.any fun p => p.tid == t) = false → u.router.switching = [] ∧ ∃ mask : BitVec 8,
            u.inflight = s1.inflight ++ [.residencyAnswer c (s.tenant t).cls mask] ∧
            ∀ g, g < 8 → mask.getLsbD g = ((s.tenant t).group g == (true, c))))

/-- A GO while one runs is a violation; a resident tenant or one whose quiesce expired fails; else the tenant stops and every
engine is told. Each notice is noted; the last drained notice starts the discard, the last scrubbed notice ends it DONE; the
drain limit ends it FAILED with a fault. -/
def Claims.QuiesceRun : Prop :=
  ∀ (t : BitVec 12) (s : State), let s1 : State := { s with router := { s.router with qtid := t } }
    (s.router.quiesce.isSome = true → exec (.quiesceCmdGo t) s = .next (s1.violate routerBlock)) ∧
    (s.router.quiesce = none →
      ((s.tenant t).quiescing = true → exec (.quiesceCmdGo t) s = .next { s1 with
        router := { s1.router with qres := s.router.qres.accept.fail codeDrainExpired 0 } }) ∧
      (∀ c, (s.tenant t).quiescing = false → s.residentCore t = some c → exec (.quiesceCmdGo t) s = .next { s1 with
        router := { s1.router with qres := s.router.qres.accept.fail codeResident c } }) ∧
      ((s.tenant t).quiescing = false → s.residentCore t = none → s.mirror.slots = [] →
        ∃ u, exec (.quiesceCmdGo t) s = .next u ∧ u.router.quiesce = some ⟨t, 1, blockUnits, 0, s.now⟩ ∧
          (u.tenant t).en = false ∧ (u.tenant t).quiescing = true ∧ u.router.qres = s.router.qres.accept ∧
          u.inflight = s.inflight ++ blockUnits.map fun n => .blockNotice n t)) ∧
    (∀ n a q, n < 0x18 → 8 ≤ n → s.mayArrive (.drainedNotice n t a) = true →
      s.router.quiesce = some q → q.tid = t → q.phase = 1 → q.owing.contains n = true →
      let since := match s.slotOf t with
        | some (_, x) => if n == 0x16 && x.final == 2 then q.since + (s.now - x.since) else q.since
        | none => q.since
      let q' := { q with owing := q.owing.filter (· != n), aborted := q.aborted + a, since := since }
      let s2 := (s.arrive (.drainedNotice n t a)).setQuiesce (some q')
      (q'.owing = [] → exec (.drainedNotice n t a) s = .next (s2.quiesceDiscard q')) ∧
      (q'.owing ≠ [] → q'.owing ≠ [0x16] → exec (.drainedNotice n t a) s = .next s2) ∧
      (q'.owing = [0x16] → (s.slotOf t = none → exec (.drainedNotice n t a) s = .next s2) ∧
        ∀ m x, s.slotOf t = some (m, x) → exec (.drainedNotice n t a) s =
          .next (if x.final = 0 then (s2.setSlot m { x with final := 1 }).finalStep m else s2))) ∧
    (∀ n q, n < 0x18 → 8 ≤ n → s.mayArrive (.scrubbedNotice n t) = true →
      s.router.quiesce = some q → q.tid = t → q.phase = 3 →
      (q.owing = [n] → ∃ u, exec (.scrubbedNotice n t) s = .next u ∧ u.router.quiesce = none ∧
        (u.tenant t).quiesced = true ∧ (u.tenant t).quiescing = false ∧ u.router.qres = s.router.qres.done q.aborted) ∧
      (q.owing.filter (· != n) ≠ [] → exec (.scrubbedNotice n t) s = .next ((s.arrive (.scrubbedNotice n t)).setQuiesce
        (some { q with owing := q.owing.filter (· != n) })))) ∧
    (∀ n, n < 0x18 → 8 ≤ n → s.mayArrive (.blockNotice n t) = true →
      let s1 := s.arrive (.blockNotice n t)
      let d := unitDomain n
      let owes := s.router.quiesce.any fun q => q.tid == t && q.phase == 1 && q.owing.contains n
      (s.unitFenced d = true ∨ (s.dom d).st = .off → exec (.blockNotice n t) s =
        .next (if owes then s1.send (.drainedNotice n t 0) else s1)) ∧
      (s.unitFenced d = false → (s.dom d).st = .retained ∨ (s.dom d).st = .closing ∨ (s.dom d).st = .waking →
        exec (.blockNotice n t) s = .next ((s1.holdAt d (.blockNotice n t)).doorWake d)) ∧
      (s.unitFenced d = false → (s.dom d).st = .run → n ≠ 0x16 →
        let s2 := s1.blockUnit n t
        (owes = false → exec (.blockNotice n t) s = .next s2) ∧
        (owes = true → s2.unitIdle n t = true → exec (.blockNotice n t) s =
          .next (s2.send (.drainedNotice n t (s2.abortedAt n t)))) ∧
        (owes = true → s2.unitIdle n t = false → exec (.blockNotice n t) s = .next (s2.send (.blockNotice n t))))) ∧
    (s.router.quiesce = none → exec .quiesceDrainExpired s = .next s) ∧
    ∀ n q, s.router.quiesce = some q → q.owing = [n] → n ≠ 0x16 → q.since + s.drainLimit < s.now →
      exec .quiesceDrainExpired s = .next (({ s with router := { s.router with
        quiesce := none, qres := s.router.qres.fail codeDrainExpired (unitStat n) } } : State).fault (srcCode 0 0 n) 0x44
          (some q.tid) (unitStat n))

/-- EN, CLASS and DOORBELL take the written values, LOST is cleared by 1, QUIESCED goes when EN is set; with EN 1 the
tenant's queue pairs are no longer blocked, with EN 0 nothing but the entry changes. -/
def Claims.TenantEntry : Prop :=
  ∀ (t : BitVec 12) (v : Word) (s : State), bit v 63 = false ∨ (s.tenant t).quiescing = true ∨ s.qps = [] →
    ∃ u, exec (.teCtlWrite t v) s = .next u ∧
    (u.tenant t).en = bit v 63 ∧ (u.tenant t).cls = BitVec.ofNat 3 (fld v 40 3) ∧
    (u.tenant t).doorbell = BitVec.ofNat 10 (fld v 16 10) ∧ (u.tenant t).lost = ((s.tenant t).lost && !bit v 60) ∧
    (u.tenant t).quiesced = ((s.tenant t).quiesced && !bit v 63) ∧ (u.tenant t).quiescing = (s.tenant t).quiescing ∧
    (u.tenant t).target0 = (s.tenant t).target0 ∧ (∀ r, r ≠ t → u.tenant r = s.tenant r) ∧
    (bit v 63 = false → u = (s.reserved routerBlock (maskBits 63 60 ||| maskBits 42 40 ||| maskBits 25 16) v).setTenant t
      ((s.tenant t).write v)) ∧
    (bit v 63 = true → (s.tenant t).quiescing = false → s.qps = [] → s.slotOf t = none →
      ∀ l x, tfind? u.lanes l = some x → x.blocked.contains t = false)

/-- Interrupt delivery, residency, a quiesce, and a tenant's entry: Claims.DeliveryAtCore and Claims.RouterMessages and Claims.QuiesceRun and Claims.TenantEntry. -/
def Obligations.DeliveryAndTenants : Prop := Claims.DeliveryAtCore ∧ Claims.RouterMessages ∧ Claims.QuiesceRun ∧ Claims.TenantEntry

/-! ### Time and the governor -/

/-- While the reference stands each period adds 6.4 ns scaled by the slew; a step adds its nanoseconds; the slew is clamped to
200,000 parts per 10^9 either way. Nothing but the time base changes. -/
def Claims.TimeBase : Prop :=
  ∀ (n : Nat) (v : Word) (s : State),
    (s.board.clocks.contains 0 = false → exec (.timeBaseUpdate n) s = .next { s with
      time := { s.time with sub := s.time.sub + 64 * n * (1000000000 + s.time.slew.toInt).toNat } }) ∧
    (∃ u, exec (.tbStep v) s = .next u ∧ u.now = s.now + fld v 0 32 ∧
      u = { s.reserved timeBlock (maskBits 31 0) v with time := u.time } ∧
      u.time.slew = s.time.slew) ∧
    ∃ u, exec (.tbSlew v) s = .next u ∧
      u = { s.reserved timeBlock (maskBits 31 0) v with time := { s.time with slew := u.time.slew } } ∧
      u.time.slew.toInt = max (-200000) (min 200000 (v.setWidth 32).toInt)

/-- With no active image an interval changes nothing. Otherwise it counts, its counters begin again and POWER_NOW is what the
rails' currents give; a report resets its sender's age and a base die's sets the sensors; the ceiling stays in its bounds. -/
def Claims.GovernorSteps : Prop :=
  (∀ (ma : List Nat) (s : State), (s.seq.active = none → exec (.governorInterval ma) s = .next s) ∧
    (s.seq.active.isSome = true → s.power.pkg ≠ 3 → s.isFenced 1430 = false → ∃ u, exec (.governorInterval ma) s = .next u ∧
      u.qos.intervals = s.qos.intervals + 1 ∧ u.qos.used = [] ∧ u.qos.starved = [] ∧ u.qos.declined = [] ∧
      u.qos.occ = [] ∧ u.power.now = (s.readPower ma).power.now ∧ u.hier = s.hier ∧ u.cores = s.cores)) ∧
  (∀ (n w a b c : Nat) (s : State), n < 4 → ∃ u, exec (.dieBudgetReport 1 n w [a, b, c]) s = .next u ∧
    tfind? u.power.age (16 + n) = some 0 ∧ tfind? u.power.sensor (3 * n) = some a ∧
    tfind? u.power.sensor (3 * n + 1) = some b ∧ tfind? u.power.sensor (3 * n + 2) = some c) ∧
  ∀ (v : Word) (s : State), ∃ u, exec (.powerCeilWrite v) s = .next u ∧ 1200 ≤ u.power.ceil ∧
    u = { s.reserved powerBlock (maskBits 15 0) v with power := { s.power with ceil := u.power.ceil } } ∧
    (1200 ≤ fld v 0 16 → fld v 0 16 ≤ s.img secPower 2 2 2400 → u.power.ceil = fld v 0 16)

/-- How TIME advances and what the governor does each interval: Claims.TimeBase and Claims.GovernorSteps. -/
def Obligations.TimeAndGovernor : Prop := Claims.TimeBase ∧ Claims.GovernorSteps

/-! ### Domains -/

/-- A drain ends once nothing is owed, or at the drain limit, which reports each address owed; a domain that closed to keep
its arrays is RETAINED, else OFF with its unit cleared; a domain that wakes reaches RUN, and what its door held is passed on.
Actions of rows that waited for the end follow. -/
def Claims.DomainDrains : Prop :=
  ∀ (d : Nat) (s : State), d < 717 → let x := s.dom d
    (x.drainSince = none → exec (.unitDrained d) s = .next s ∧ exec (.drainLimitExpiry d) s = .next s) ∧
    (∀ t, x.drainSince = some t → x.st = .run ∨ x.st = .closing →
      ((s.push d x.loses).drained d x.loses = true →
        exec (.unitDrained d) s = .next (((s.push d x.loses).endDrain d).nextActs d)) ∧
      ((s.push d x.loses).drained d x.loses = false → exec (.unitDrained d) s = .next (s.push d x.loses)) ∧
      (s.now < t + s.drainLimit → exec (.drainLimitExpiry d) s = .next s) ∧
      (t + s.drainLimit ≤ s.now → 576 ≤ d → exec (.drainLimitExpiry d) s = .next
        ((((s.owedData d x.loses).eraseDups.foldl (fun s l => s.fault (s.domSrc d) 0x12 none (64 * l)) s).endDrain
          d).nextActs d))) ∧
    (x.st = .closing → x.drainSince = none → x.req = 0 → x.todo = [] → 576 ≤ d → ((672 ≤ d ∧ d < 684) ∨ 696 ≤ d) →
      (x.retain = true → exec (.domainCloseComplete d) s =
        .next (s.setDom d { x with st := .retained, drainSince := none, stopped := false })) ∧
      (x.retain = false → exec (.domainCloseComplete d) s = .next ((s.clearUnit d).setDom d { x with
        st := .off, drainSince := none, stopped := false, stale := [] }))) ∧
    (x.st ≠ .closing → exec (.domainCloseComplete d) s = .next s) ∧
    (x.st = .waking → x.req = 0 → x.todo = [] → 696 ≤ d → ∃ u, exec (.domainWakeComplete d) s = .next u ∧
      (u.dom d).st = .run ∧ (u.dom d).held = [] ∧ u.inflight = x.held ++ s.inflight) ∧
    (x.st ≠ .waking → exec (.domainWakeComplete d) s = .next s)

/-- A domain the image does not enable ignores a request; with no image, in Hold or Off, fenced or where a rule forbids it, it is a
violation; in a transition it waits. RETAIN and OFF begin the close of a running domain out of enclave use, RUN wakes a retained one. -/
def Claims.DomainRequests : Prop :=
  ∀ (d : Nat) (s : State), d < 712 →
    let asks (i : Instr) (n : Nat) : Prop :=
      (s.seq.active = none → exec i s = .next (s.violate powerBlock)) ∧
      (s.seq.active.isSome = true → s.domEnabled d = false → exec i s = .next s) ∧
      (s.domEnabled d = true → s.power.pkg = 2 ∨ s.power.pkg = 3 ∨ s.unitFenced d = true ∨ s.reqForbidden d n = true →
        exec i s = .next (s.violate powerBlock)) ∧
      (s.domEnabled d = true → s.seq.active.isSome = true → s.power.pkg = 0 → s.unitFenced d = false →
        s.reqForbidden d n = false →
        ((s.dom d).st = .closing ∨ (s.dom d).st = .waking →
          exec i s = .next (s.setDom d { s.dom d with req := n })) ∧
        ((s.dom d).st = .run → s.underPause d = false → (s.dom d).stopped = false → n ≠ 1 → s.inEnclaveUse d = false →
          exec i s = .next (s.beginClose d (n == 2))) ∧
        ((s.dom d).st = .run → s.underPause d = false → (s.dom d).stopped = false → n ≠ 1 → s.inEnclaveUse d = true →
          exec i s = .next { s with sec := { s.sec with cuts := s.sec.cuts ++ [(d, n, s.now)] } }) ∧
        ((s.dom d).st = .retained → n = 1 → exec i s = .next (s.startWake d)))
    asks (.domReqRun d) 1 ∧ asks (.domReqRetain d) 2 ∧ asks (.domReqOff d) 3

/-- A serving domain's door passes an arrival on untouched; a closed one answers by Table 16-2, waking where it may. A member
that is retained or off agrees at once to a sleep request; an agreement is noted. -/
def Claims.DoorsAndSleep : Prop :=
  ∀ (d : Nat) (s : State), d < 712 →
    (∀ a, (s.dom d).st = .run → (s.dom d).stopped = false → (s.dom d).inReset = false → s.unitFenced d = false →
      exec (.doorAnswer d a) s = .next s) ∧
    (∀ t v, d < 576 → (s.dom d).st ≠ .run → exec (.doorAnswer d (.delivery t v)) s = .next (s.deliver d t v)) ∧
    (∀ req line, d < 576 → lineOk line = true → (s.dom d).st ≠ .run →
      exec (.doorAnswer d (.snoop 1 req line)) s = .next (s.snoopArrive 1 req d line)) ∧
    (∀ p, s.power.sleep = some p → p.owing.contains d = true →
      (s.mayArrive (.sleepRequest d) = true → (s.dom d).st = .retained ∨ (s.dom d).st = .off →
        exec (.sleepRequest d) s = .next ((s.arrive (.sleepRequest d)).send (.sleepAnswer d true))) ∧
      (s.mayArrive (.sleepAnswer d true) = true → d ≠ 711 → exec (.sleepAnswer d true) s = .next
        (let t := s.arrive (.sleepAnswer d true)
         { t with power := { t.power with sleep := some { p with owing := p.owing.erase d, agreed := p.agreed ++ [d] } } }))) ∧
    (s.power.sleep = none →
      (s.mayArrive (.sleepRequest d) = true → exec (.sleepRequest d) s = .next (s.arrive (.sleepRequest d))) ∧
      ∀ b, s.mayArrive (.sleepAnswer d b) = true → exec (.sleepAnswer d b) s = .next (s.arrive (.sleepAnswer d b)))

/-- Drains, requests, doors and sleep requests of the switched domains: Claims.DomainDrains and Claims.DomainRequests and Claims.DoorsAndSleep. -/
def Obligations.PowerDomains : Prop := Claims.DomainDrains ∧ Claims.DomainRequests ∧ Claims.DoorsAndSleep

/-! ### Voltage and wakes of the package -/

/-- A good answer makes the master read the status; VDone ends the request with the rail at its voltage; a first bad answer
repeats the write; a second one, or the limit, fails the request, which is counted and reported. -/
def Claims.VoltageRequests : Prop :=
  ∀ (m : Nat) (s : State) (x : AvsReq) (q : List AvsReq), m < 4 → s.avsQueue m = x :: q →
    (x.polling = false → exec (.avsResponse m true) s =
      .next (let t := s.setAvs m ({ x with polling := true } :: q)
             { t with out := s.out ++ [.avsStatus m (avsSelect x.rail)] })) ∧
    (x.polling = false → x.second = false → exec (.avsResponse m false) s =
      .next ((s.setAvs m ({ x with second := true } :: q)).avsDrive m)) ∧
    (x.polling = false → x.second = true → exec (.avsResponse m false) s = .next (s.avsFail m x)) ∧
    (x.polling = true → x.row = false → q = [] → ∃ u, exec (.avsStatusRead m true) s = .next u ∧
      (u.rail x.rail).nowMv = x.mv ∧ u.avsQueue m = [] ∧ u.out = s.out) ∧
    (x.polling = true → exec (.avsStatusRead m false) s =
      .next { s with out := s.out ++ [.avsStatus m (avsSelect x.rail)] }) ∧
    (s.now < x.deadline → exec (.avsRequestFail m) s = .next s) ∧
    (x.deadline ≤ s.now → x.row = false → q = [] → ∃ u, exec (.avsRequestFail m) s = .next u ∧
      (u.rail x.rail).fails = satInc 16 (s.rail x.rail).fails ∧ u.avsQueue m = [] ∧
      u.inflight = s.inflight ++ [.faultMessage (srcCode 0 0 (0x1B + m)) 0x71 none (x.rail % 2 ^ 52)])

/-- In Hold a wake timer that is due, or a quick command to the package's address, asks for EXIT_HOLD; a command to another
address does nothing; a byte read answers the package state, the alarm or the identity, and nothing for other codes. -/
def Claims.PackageWakes : Prop :=
  ∀ (a : BitVec 7) (b : Byte) (s : State),
    (s.power.pkg = 2 → s.runningPurpose = 0 → s.power.wakeTime.toNat ≤ s.now → s.power.timerFired = false →
      exec .wakeTimer s = .next ((({ s with power := { s.power with timerFired := true, wakeTimer := true } } :
        State).wakeEvent).queueReq ⟨purposeExitHold, 0, 0⟩)) ∧
    (s.now < s.power.wakeTime.toNat → exec .wakeTimer s = .next s) ∧
    (s.power.pkg = 2 → s.runningPurpose = 0 → a = s.smbAddress → s.board.cold = false →
      exec (.smbusQuickCommand a true) s = .next ((({ s with power := { s.power with wakeSmbus := true } } :
        State).wakeEvent).queueReq ⟨purposeExitHold, 0, 0⟩)) ∧
    (a ≠ s.smbAddress → exec (.smbusQuickCommand a true) s = .next s ∧ exec (.smbusReadByte a b) s = .next s) ∧
    (a = s.smbAddress → s.board.cold = false →
      exec (.smbusReadByte a 0) s = .next { s with out := s.out ++ [.smbus (some (BitVec.ofNat 8 s.pkgState))] } ∧
      exec (.smbusReadByte a 2) s = .next { s with out := s.out ++ [.smbus (some 0x48)] } ∧
      (3 ≤ b.toNat → exec (.smbusReadByte a b) s = .next { s with out := s.out ++ [.smbus none] }))

/-- Answers on an AVSBus, and what wakes the package: Claims.VoltageRequests and Claims.PackageWakes. -/
def Obligations.RailsAndWakes : Prop := Claims.VoltageRequests ∧ Claims.PackageWakes

/-! ### Faults, fences and resets -/

/-- A message is numbered and stored with its level, one above its severity while the newest of its pair is unacknowledged.
Without an image nothing more happens; below level 2 only FAULT_NOTIFY is looked at; level 2 fences the unit of the source. -/
def Claims.FaultRecords : Prop :=
  ∀ (src : BitVec 16) (kind : BitVec 8) (tid : Option (BitVec 12)) (a : Nat) (s : State),
    let m := Instr.faultMessage src kind tid a
    s.mayArrive m = true →
    let r := (s.arrive m).storeFault src kind tid a
    let sev := s.severity src kind
    let esc := decide (s.fc.acked < tget s.fc.newest (16 * src.toNat + kind.toNat / 16) 0)
    r.1 = (if esc then min 5 (sev + 1) else sev) ∧ r.2.fc.last = s.fc.last + 1 ∧ r.2.fc.acked = s.fc.acked ∧
    tfind? r.2.fc.log ((s.fc.last + 1) % 1024) = some (faultRecord src kind tid r.1 esc a (s.fc.last + 1)) ∧
    r.2.cores = s.cores ∧ r.2.hier = (s.arrive m).hier ∧ r.2.fenced = s.fenced ∧
    (s.seq.active = none → exec (.faultMessage src kind tid a) s = .next r.2) ∧
    (s.seq.active.isSome = true → r.1 < 2 → kind ≠ 0x81 → kind ≠ 0x25 → exec (.faultMessage src kind tid a) s = .next r.2.notifyCores) ∧
    ∀ u, s.seq.active.isSome = true → r.1 = 2 → kind ≠ 0x81 → kind ≠ 0x25 → kind ≠ 0x27 → fld src 12 4 ≠ 1 →
      s.fenceOf src = some u → exec (.faultMessage src kind tid a) s = .next (r.2.fenceUnit u).notifyCores

/-- A fence sets its bit once its unit is done, and once only; ACKED never falls; a starved base-die agent is that die's loss,
any other is a fault of its own kind; a reference clock's loss is noted and reported once. -/
def Claims.FencesAndAcknowledgement : Prop :=
  ∀ (s : State),
    (∀ u, fenceOk u = true → s.isFenced u = false ∨ s.fc.done.contains u = true → exec (.fenceComplete u) s = .next s) ∧
    (∀ u, u < 576 → s.isFenced u = true → s.fc.done.contains u = false → exec (.fenceComplete u) s = .next
      (if (s.dom u).st = .off then { s with fc := { s.fc with done := s.fc.done ++ [u] } } else s)) ∧
    (∀ v, s.hubOn = true → let s0 := s.reserved collectorBlock (maskBits 31 0) v
      (fld v 0 32 < s.fc.acked → exec (.fcAckedWrite v) s = .next (s0.violate collectorBlock)) ∧
      (s.fc.acked ≤ fld v 0 32 → exec (.fcAckedWrite v) s =
        .next (({ s0 with fc := { s0.fc with acked := fld v 0 32 } } : State).notifyCores))) ∧
    (∀ v, s.hubOn = false → exec (.fcAckedWrite v) s = .next s) ∧
    (∀ a b, fld b 12 4 ≠ 1 → exec (.acknowledgeStarvation a b) s = .next (s.fault a 0x27 none b.toNat)) ∧
    (∀ n a, n < 4 → s.fc.lost.contains n = false → exec (.acknowledgeStarvation a (srcCode 1 n 0x60)) s =
      .next (s.fault (srcCode 1 n 0x60) 0x81 none n)) ∧
    (∀ i, i < 4 → s.board.clocks.contains i = true → exec (.referenceClockLost i) s = .next s) ∧
    (∀ i, i < 4 → i ≠ 1 → s.board.clocks.contains i = false → exec (.referenceClockLost i) s =
      .next (({ s with board := { s.board with clocks := s.board.clocks ++ [i] } } : State).fault (islandSrc i) 0x74 none i)) ∧
    ∀ i, i < 4 → exec (.referenceClockReturn i) s =
      .next { s with board := { s.board with clocks := s.board.clocks.filter (· != i) } }

/-- Fault records, fences and acknowledgement: Claims.FaultRecords and Claims.FencesAndAcknowledgement. -/
def Obligations.FaultHandling : Prop := Claims.FaultRecords ∧ Claims.FencesAndAcknowledgement

/-- With a result pending a reset command is a violation; an absent core or die fails FIELD_INVALID; else the reset is asked
for. Hold and Off fail where no image is active. A full reset that waits or runs already is not asked for again. -/
def Claims.ResetRequests : Prop :=
  ∀ (i : BitVec 10) (s : State), let s1 (k : BitVec 3) : State := { s with fc := { s.fc with
      rclass := k, rindex := i, rres := s.fc.rres.accept } }
    (s.hubOn = false → ∀ m ∈ [.resetCmdFull i, .resetCmdComputeDie i, .resetCmdCore i], exec m s = .next s) ∧
    (s.hubOn = true → s.fc.rres.status = 1 → ∀ m ∈ [.resetCmdFull i, .resetCmdComputeDie i, .resetCmdCore i],
      exec m s = .next (s.violate collectorBlock)) ∧
    (s.hubOn = true → s.fc.rres.status ≠ 1 →
      exec (.resetCmdFull i) s = .next ((s1 1).send (.fullReset 1)) ∧
      (s.computeEn i.toNat = false → exec (.resetCmdComputeDie i) s = .next { s1 2 with
        fc := { (s1 2).fc with rres := s.fc.rres.accept.fail codeFieldInvalid 0 } }) ∧
      (s.computeEn i.toNat = true → s.fc.lost = [] → exec (.resetCmdComputeDie i) s =
        .next ((s1 2).cutAll (s.coresOn i.toNat) ⟨purposeDieReset, i.toNat, 1⟩)) ∧
      (s.coreEnabled i.toNat = false → exec (.resetCmdCore i) s = .next { s1 3 with
        fc := { (s1 3).fc with rres := s.fc.rres.accept.fail codeFieldInvalid 0 } }) ∧
      (i.toNat < 576 → s.coreEnabled i.toNat = true → s.fenced = [] → s.fc.lost = [] → exec (.resetCmdCore i) s =
        .next ((s1 3).cutAll [i.toNat] ⟨purposeCoreReset, i.toNat, 1⟩))) ∧
    (let s2 (to_ : BitVec 2) (c : Chan) : State := { s with power := { s.power with target := to_, res := c } }
     let res := s.power.res.accept
     (s.pkgBusy = true → exec .pkgCmdHold s = .next (s2 2 (res.fail codePkgStateInvalid 0)) ∧
       exec .pkgCmdOff s = .next (s2 3 (res.fail codePkgStateInvalid 0))) ∧
     (s.pkgBusy = false →
       exec .pkgCmdHold s = .next ((s2 2 res).cutAll ((List.range 712).filter s.domEnabled) ⟨purposeHold, 0, 1⟩) ∧
       exec .pkgCmdOff s = .next ((s2 3 res).cutAll ((List.range 712).filter s.domEnabled) ⟨purposeOff, 0, 1⟩))) ∧
    ∀ n, s.mayArrive (.fullReset n) = true → (s.seq.active = none → exec (.fullReset n) s = .next (s.arrive (.fullReset n))) ∧
      (s.runningPurpose = purposeFullReset → exec (.fullReset n) s = .next (s.arrive (.fullReset n))) ∧
      (s.seq.active.isSome = true → s.seq.run = none → s.seq.head = [] → s.seq.queue = [] → s.sec.cuts = [] →
        s.mirror.st ≠ 2 → n = 0 → ∃ u, exec (.fullReset 0) s = .next u ∧ u.seq.head = [⟨purposeFullReset, 0, 0⟩])

/-- COLD_RST_N, a loss of VAON, its return and a thermal trip each put every unit at its reset state and keep what the board
and the nonvolatile stores hold; the package leaves cold reset 20 ms after the last cause has gone. -/
def Claims.ColdReset : Prop :=
  (∀ (s : State) (n temp : Nat), n < 4 →
    let cold (m : Instr) : Prop :=
      ∃ u, exec m s = .next u ∧ u.board.cold = true ∧ u.cores = [] ∧ u.hier = State.reset.hier ∧ u.seq.active = none ∧
        u.seq.pending = none ∧ u.seq.floor = s.seq.floor ∧ u.mgmt.key = s.mgmt.key ∧ u.qps = [] ∧ u.sec.enclaves = [] ∧
        u.power = State.reset.power ∧ u.pending = s.pending ∧
        (s.board.logged = true → u.fc.plog = s.fc.plog) ∧
        (s.board.logged = false → s.fc.plog = [] → (u.fc.plog.map (·.2.data)) =
          [faultRecord (srcCode 0 0 2) 0 none 0 false 0 0])
    (s.board.vaon = true → s.board.rstLow = false → cold .coldRstNAssert) ∧ (s.board.vaon = true → cold .vaonLoss) ∧
      (s.board.vaon = false → cold .vaonPowerUp) ∧ (s.board.vaon = true → 115 ≤ temp → cold (.thermalTrip n temp))) ∧
  ∀ (s : State) (id : BitVec 16) (a : BitVec 3) (b : Bool) (n temp : Nat), n < 4 →
    (s.board.vaon = false → exec .vaonLoss s = .next s) ∧ (s.board.vaon = true → exec .vaonPowerUp s = .next s) ∧
    (temp < 115 → exec (.thermalTrip n temp) s = .next { s with board := { s.board with
      temps := tput s.board.temps n temp, trip := s.board.trip || false } }) ∧
    (s.board.cold = false → exec .coldRstNRelease s = .next { s with board := { s.board with rstLow := false } } ∧
      exec (.coldResetEnd id a b) s = .next s) ∧
    (s.board.cold = true → s.board.vaon = true → s.board.trip = false → s.board.released = none →
      exec .coldRstNRelease s = .next { s with board := { s.board with rstLow := false, released := some s.now } }) ∧
    ∀ t, s.board.cold = true → s.board.held = false → s.board.released = some t →
      (s.now < t + 20000000 → exec (.coldResetEnd id a b) s = .next s) ∧
      (t + 20000000 ≤ s.now → ∃ u, exec (.coldResetEnd id a false) s = .next u ∧ u.board.cold = false ∧
        u.board.smbAddr = a ∧ u.board.mgmtId = id ∧ u.seq.active = none ∧ u.cores = [])

/-- Requests for resets and what a cold reset loses and keeps: Claims.ResetRequests and Claims.ColdReset. -/
def Obligations.Resets : Prop := Claims.ResetRequests ∧ Claims.ColdReset

/-- The sample with TESTMODE 1 leaves the package in cold reset. In cold reset frames at the management port, Brixmen requests
and SMBus commands bring out nothing and change nothing but the arrival, and each JTAG instruction shifts its bits out. -/
def Obligations.TestModeSilence : Prop :=
  (∀ (s : State) (id : BitVec 16) (a : BitVec 3) (t : Nat), s.board.cold = true → s.board.held = false →
    s.board.released = some t → t + 20000000 ≤ s.now →
    ∃ u, exec (.coldResetEnd id a true) s = .next u ∧ u.board.cold = true ∧ u.board.testMode = true ∧ u.board.vaon = s.board.vaon) ∧
  ∀ (s : State), s.board.cold = true →
    (∀ bytes, exec (.mgmtFrameReceive bytes) s = .next s) ∧
    (∀ ip port bytes, s.mayArrive (.brixmenRequest ip port bytes) = true → exec (.brixmenRequest ip port bytes) s = .next (s.arrive (.brixmenRequest ip port bytes))) ∧
    (∀ a w, exec (.smbusQuickCommand a w) s = .next s) ∧ (∀ a b, exec (.smbusReadByte a b) s = .next s) ∧
    (s.board.vaon = true →
      (∃ u, exec .jtagIdcode s = .next u ∧ u.out = s.out ++ [.tdo (bitList idcode)]) ∧
      (∀ l, (∃ u, exec (.jtagBypass l) s = .next u ∧ u.out = s.out ++ [.tdo (throughBypass l)]) ∧
        (∃ u, exec (.jtagClamp l) s = .next u ∧ u.out = s.out ++ [.tdo (throughBypass l)] ∧
          u.board.driven = some (some s.board.boundary)) ∧
        ∃ u, exec (.jtagHighz l) s = .next u ∧ u.out = s.out ++ [.tdo (throughBypass l)] ∧ u.board.driven = some none) ∧
      (∀ v w, (∃ u, exec (.jtagSamplePreload v w) s = .next u ∧ u.out = s.out ++ [.tdo (bitList v)] ∧ u.board.boundary = w) ∧
        ∃ u, exec (.jtagExtest v w) s = .next u ∧ u.out = s.out ++ [.tdo (bitList v)] ∧ u.board.boundary = w ∧
          u.board.driven = some (some w)) ∧
      ∃ u, exec .jtagTapReset s = .next u ∧ u.board.jtag = 1 ∧ u.board.driven = none ∧ u.out = s.out)

/-! ### The security block -/

/-- A GO while a command runs is a violation; while the Warden is down it fails WARDEN_DOWN; accepted, it reads its request
line with RdCur, or waits for the steps of an orphaned DESTROY. Once the line has come: CREATE reads its ranges and begins its
steps, DESTROY begins them, SEAL makes a built enclave READY, ADD_ENTRY enters its entry, ADD_PAGE and ATTEST read what they
take and write what they give; each fails BAD_STATE in another state. -/
def Claims.WardenCommands : Prop :=
  (∀ (req tag : Nat) (s : State),
    let s0 : State := { s with sec := { s.sec with req := req % 2 ^ 46 } }
    let s1 : State := { s with sec := { s.sec with req := req % 2 ^ 46, res := s.sec.res.accept } }
    let ends (P : State → Prop) : Prop :=
      (∃ t, exec (.wardenCreate req) s = .next t ∧ P t) ∧ (∃ t, exec (.addPage req) s = .next t ∧ P t) ∧
      (∃ t, exec (.addEntry req) s = .next t ∧ P t) ∧ (∃ t, exec (.sealRow req) s = .next t ∧ P t) ∧
      (∃ t, exec (.attest req) s = .next t ∧ P t) ∧ (∃ t, exec (.wardenDestroy req) s = .next t ∧ P t)
    (s.sec.res.status = 1 → ends fun t => t = s0.violate secBlock) ∧
    (s.sec.res.status ≠ 1 → s.sec.up = false → ends fun t =>
      t = { s1 with sec := { s1.sec with res := s.sec.res.accept.fail codeWardenDown 0 } }) ∧
    (s.sec.res.status ≠ 1 → s.sec.up = true → s.sec.running.isSome = true → ends fun t => t = s1) ∧
    (s.sec.res.status ≠ 1 → s.sec.up = true → s.sec.running = none → ends fun t =>
      t.sec = s1.sec ∧ t.cores = s.cores ∧ (s.readers = [] → s.freeTag secNode = some tag → req % 2 ^ 46 < s.dramLines →
        t.inflight = s.inflight ++ [.rdcur ⟨secNode, tag, (s.tag secNode tag).gen, 0, 0⟩ (req % 2 ^ 46)] ∧
        t.readers = [⟨secNode, 0, 0, .wardenReq, [(64 * (req % 2 ^ 46), 64)], [], some tag⟩]))) ∧
  ∀ (h : Hdr) (line : Nat) (d : LineData) (r : Reader) (s s1 : State), s.ReadEnds h line d r s1 → s1.sec.res.status = 1 →
    let b := r.got
    let e := recLe b 4 2
    let x := s1.enclave e
    let failed (code : Nat) : State := { s1 with sec := { s1.sec with res := s1.sec.res.fail code 0 } }
    let gives (t : State) : Prop := exec (.curdata h line d) s = .next t
    (r.why = .wardenReq → e < 1024 → recLe b 2 2 = 0 → recLe b 6 2 = 0 →
      (recLe b 0 2 = 1 → x.st ≠ .free → gives (failed codeBadState)) ∧
      (recLe b 0 2 = 1 → x.st = .free → s1.sec.running = none →
        (recLe b 8 1 = 0 → gives { s1 with sec := { s1.sec with res := s1.sec.res.done 0 } }) ∧
        (recLe b 8 1 ≠ 0 → s1.sec.healthy = false → gives (failed codeEntropy)) ∧
        (recLe b 8 1 ≠ 0 → s1.sec.healthy = true → fits52 (recLe b 16 8) (16 * recLe b 8 1) = true →
          gives (s1.startRead secNode 0 0 (.wardenRanges e) (chunksOf (recLe b 16 8) (16 * recLe b 8 1))))) ∧
      (recLe b 0 2 = 2 ∨ recLe b 0 2 = 3 ∨ recLe b 0 2 = 4 → x.st ≠ .build → gives (failed codeBadState)) ∧
      (recLe b 0 2 = 2 → x.st = .build → fits52 (recLe b 8 8) 4096 = true → fits52 (recLe b 16 8) 4096 = true →
        s1.anyOwned (recLe b 8 8) 4096 = false → allOwned x.ranges (recLe b 16 8) 4096 = true →
        s1.rangesGone [(recLe b 8 8, 4096), (recLe b 16 8, 4096)] = false →
        gives (s1.startRead secNode 0 0 (.wardenPage e (recLe b 16 8) ((b.getD 24 0).getLsbD 0))
          (chunksOf (recLe b 8 8) 4096))) ∧
      (recLe b 0 2 = 3 → x.st = .build → recLe b 8 1 < 16 → tfind? x.entries (recLe b 8 1) = none → recLe b 32 8 % 64 = 0 →
        allOwned x.ranges (recLe b 32 8) 128 = true → recLe b 16 8 % 4 = 0 → ∃ t, gives t ∧
        tfind? (t.enclave e).entries (recLe b 8 1) = some ⟨BitVec.ofNat 16 (recLe b 10 2), BitVec.ofNat 64 (recLe b 16 8),
          BitVec.ofNat 64 (recLe b 24 8), recLe b 32 8, .idle⟩ ∧ (t.enclave e).st = .build ∧
        t.sec.res = s1.sec.res.done (recLe b 8 1)) ∧
      (recLe b 0 2 = 4 → x.st = .build → s1.sec.cuts = [] → ∃ t, gives t ∧
        t.enclave e = { x with st := .ready } ∧ t.sec.res = s1.sec.res.done 0 ∧ t.hier = s1.hier) ∧
      (recLe b 0 2 = 5 → x.st ≠ .ready → gives (failed codeBadState)) ∧
      (recLe b 0 2 = 5 → x.st = .ready → fits52 (recLe b 8 8) 64 = true → fits52 (recLe b 16 8) 256 = true →
        s1.anyOwned (recLe b 16 8) 256 = false → s1.rangesGone [(recLe b 8 8, 64), (recLe b 16 8, 256)] = false →
        gives (s1.startRead secNode 0 0 (.wardenReport e (recLe b 16 8)) (chunksOf (recLe b 8 8) 64))) ∧
      (recLe b 0 2 = 6 → x.st = .free → gives (failed codeBadState)) ∧
      (recLe b 0 2 = 6 → x.st ≠ .free → (x.entries.any fun n => match n.2.run with
          | .running _ => true
          | _ => false) = false →
        gives (s1.beginStep ⟨false, e, x.ranges, 0, 0, false, false⟩ 1))) ∧
    (∀ n, r.why = .wardenRanges n →
      let rs := ((List.range (b.length / 16)).map fun i => (recLe b (16 * i) 8, recLe b (16 * i + 8) 8)).filter fun r => r.2 != 0
      (rs.length > 8 ∨ rs.all s1.rangeFits = false ∨ pairwiseApart rs = false → gives (failed codeRangeInvalid)) ∧
      (rs.length ≤ 8 → rs.all s1.rangeFits = true → pairwiseApart rs = true → s1.rangesGone rs = false →
        gives (s1.beginStep ⟨true, n, rs, 0, 0, false, false⟩ 1))) ∧
    (∀ n dst m, r.why = .wardenPage n dst m →
      gives ((if m then s1.setEnclave n { s1.enclave n with
            meas := extend (s1.enclave n).meas ([1, 0, 0, 0, 0, 0, 0, 0] ++ leBytes 8 (dst - (s1.enclave n).base) ++ b) }
          else s1).wardenWrite dst b 4096)) ∧
    ∀ n dst, r.why = .wardenReport n dst → ∃ sig,
      gives (({ s1 with free := s1.free + 1 } : State).wardenWrite dst (s1.reportBody n b ++ sig) 256)

/-- With nothing running an acknowledgement changes nothing; a finished step is followed by the next; a controller loads the
fresh key and the range, or zeroes the slot; the last step of CREATE leaves the enclave in BUILD. -/
def Claims.RangeSteps : Prop :=
  ∀ (s : State) (r : WardenRun) (k : Nat), k < 12 →
    s.mayArrive .rangeStepAck = true → s.mayArrive (.keyUpdate k) = true →
    (s.sec.running = none → exec .rangeStepAck s = .next (s.arrive .rangeStepAck) ∧
      exec (.keyUpdate k) s = .next (s.arrive (.keyUpdate k))) ∧
    (s.sec.running = some r → r.orphan = false → r.gone = false → s.rangesGone r.ranges = false →
      (r.install = true → r.step = 2 → exec .rangeStepAck s = .next ((s.arrive .rangeStepAck).beginStep r 3)) ∧
      (r.install = true → r.step = 1 → s.rangeStored r.ranges = true →
        exec .rangeStepAck s = .next ((s.arrive .rangeStepAck).beginStep r 2)) ∧
      (r.install = false → r.step = 5 → s.rangeStored r.ranges = true → s.sec.cuts = [] → r.eid < 1024 →
        ∃ t, exec .rangeStepAck s = .next t ∧ t.enclave r.eid = Enclave.initial ∧ t.sec.running = none) ∧
      (r.install = true → r.step = 5 → r.ranges = [] → s.sec.cuts = [] → ∃ t, exec .rangeStepAck s = .next t ∧
        t.enclave r.eid = ⟨.build, [], [], 0⟩ ∧ t.sec.running = none) ∧
      (r.install = true → r.step = 4 → ∃ t, exec (.keyUpdate k) s = .next t ∧ tfind? (t.mc k).keys r.eid = some r.key ∧
        (t.mc k).ranges = ((s.mc k).ranges.filter fun x => x.1 != r.eid) ++ r.ranges.map fun x => (r.eid, x.1, x.2)) ∧
      (r.install = false → r.step = 2 → ∃ t, exec (.keyUpdate k) s = .next t ∧ tfind? (t.mc k).keys r.eid = none ∧
        (t.mc k).ranges = (s.mc k).ranges.filter fun x => x.1 != r.eid))

/-- A restart takes UP away, fails the running request, breaks what was in BUILD and is counted and reported; health falls and
returns; a cut of a domain in enclave use is held; at the end of the grace period a core's enclave is evicted and the core stopped. -/
def Claims.SecurityHealth : Prop :=
  ∀ (s : State),
    (∃ t, exec .wardenRestart s = .next t ∧ t.sec.up = false ∧ t.sec.restarts = s.sec.restarts + 1 ∧
      (s.sec.res.status = 1 → t.sec.res = s.sec.res.fail codeWardenRestarted 0) ∧
      (∀ e x, tfind? s.sec.enclaves e = some x → tfind? t.sec.enclaves e = some (breakBuild x)) ∧
      t.inflight = s.inflight ++ [.faultMessage secSrc 0x51 none ((s.sec.restarts + 1).toNat % 2 ^ 52)] ∧ t.hier = s.hier) ∧
    exec .wardenRestartComplete s = .next { s with sec := { s.sec with up := true } } ∧
    exec .entropyFailure s = .next (({ s with sec := { s.sec with healthy := false } } : State).fault secSrc 0x50 none 0) ∧
    exec .entropyHealthRestored s = .next { s with sec := { s.sec with healthy := true } } ∧
    (∀ d c, d < 712 → s.inEnclaveUse d = true →
      exec (.cutHold d c) s = .next { s with sec := { s.sec with cuts := s.sec.cuts ++ [(d, c, s.now)] } }) ∧
    (∀ d c, d < 712 → s.inEnclaveUse d = false → c < 16 → (s.dom d).st = .run →
      exec (.cutHold d c) s = .next (s.beginClose d (c == 2))) ∧
    (∀ d, d < 712 → s.sec.cuts = [] → exec (.enclaveGraceExpiry d) s = .next s) ∧
    (∀ g c t, g < 576 → s.sec.cuts = [(g, c, t)] → s.now < t + s.enclaveGrace →
      exec (.enclaveGraceExpiry g) s = .next s) ∧
    ∀ g c t, g < 576 → s.sec.cuts = [(g, c, t)] → t + s.enclaveGrace ≤ s.now → c < 16 → (s.dom g).st ≠ .run → ∃ u,
      exec (.enclaveGraceExpiry g) s = .next u ∧ (u.core g).run = .stopped ∧ (u.core g).a = 0 ∧ (u.core g).x = 0 ∧
        (u.core g).l = 0 ∧ (u.core g).va = 0 ∧ (u.core g).sw = 0 ∧ (u.enclave (s.core g).eid).st = .evicted ∧ u.sec.cuts = []

/-- The Warden's commands, the steps of a range, and the security block's health: Claims.WardenCommands and Claims.RangeSteps and Claims.SecurityHealth. -/
def Obligations.EnclaveSecurity : Prop := Claims.WardenCommands ∧ Claims.RangeSteps ∧ Claims.SecurityHealth

/-! ### Ethernet ports and queue engines -/

/-- A command that comes while one runs is a violation and counted; an absent queue pair fails QP_ABSENT. CREATE reads its
record; DESTROY of an idle queue pair frees it; REARM starts a halted channel at its index; QUERY answers the states. A
doorbell of an absent queue pair or of another TID is a violation; one in range sets the index it names, one out of range is a
violation. -/
def Claims.QueuePairCommands : Prop :=
  (∀ (e n : Nat) (v : Word) (s : State), e < 2 → bit v 63 = true → s.runs (708 + e) = true → fld v 0 16 = n → n / 32768 = e →
    let r := s.reserved (engineBlock e) (maskBits 63 60 ||| maskBits 17 0) v
    let s0 := r.setEng e { s.eng e with cmd := v &&& 0x700000000003FFFF }
    let s1 (op : Nat) := s0.setEng e { s0.eng e with res := (s.eng e).res.accept, running := some (op, n) }
    (∀ p ∈ ([(.qpCreate e v, 1), (.qpDestroy e v, 2), (.qpRearm e v, 3), (.qpQuery e v, 4)] : List (Instr × Nat)),
      fld v 60 3 = p.2 →
      ((s.eng e).running.isSome = true → exec p.1 s = .next (s0.violate (engineBlock e))) ∧
      ((s.eng e).running = none → p.2 ≠ 1 → s.qp? n = none →
        exec p.1 s = .next ((s1 p.2).engEnd e fun c => c.fail codeQpAbsent 0))) ∧
    ((s.eng e).running = none → fld v 60 3 = 1 → exec (.qpCreate e v) s =
      .next ((s1 1).startRead (engineNode e) 0 0 (.create e) (chunksOf (fld (s.eng e).addr 6 46 * 64) 192))) ∧
    ∀ q, (s.eng e).running = none → s.qp? n = some q →
      (fld v 60 3 = 4 → exec (.qpQuery e v) s =
        .next ((s1 4).engEnd e fun c => c.done (q.sSt + 4 * q.rSt + 16 * q.cqHalt.toNat))) ∧
      (fld v 60 3 = 3 → q.blocked = false → (s.tenant q.tid).en = true → bit v 16 = false → q.sSt ≠ 1 →
        exec (.qpRearm e v) s = .next ((s1 3).engEnd e fun c => c.fail codeNotHalted 0)) ∧
      (fld v 60 3 = 3 → q.blocked = false → (s.tenant q.tid).en = true → bit v 16 = false → bit v 17 = false → q.sSt = 1 →
        q.cqHalt = false → s.runs (696 + q.port) = false → ∃ t, exec (.qpRearm e v) s = .next t ∧
          t.qp? n = some { q with sSt := 0, sDesc := none } ∧ (t.eng e).res = (s.eng e).res.accept.done q.sHead ∧
          (t.eng e).running = none) ∧
      (fld v 60 3 = 2 → s.qpIdle n q = true → q.sHead = q.sTail → q.rHead = q.rTail → ∃ t, exec (.qpDestroy e v) s = .next t ∧
        t.qp? n = none ∧ (t.eng e).res = (s.eng e).res.accept.done q.aborted ∧ (t.eng e).running = none ∧
        t.hier = s.hier)) ∧
  ∀ (e idx : Nat) (tid : BitVec 12) (v : Word) (s : State), e < 2 → idx < 32768 → s.runs (708 + e) = true →
    let n := 32768 * e + idx
    let r := s.reserved (engineBlock e) (maskBits 17 0) v
    let i := fld v 0 16
    (s.qp? n = none → exec (.doorbell e tid idx v) s = .next (r.violate (engineBlock e))) ∧
    ∀ q, s.qp? n = some q →
      (q.tid ≠ tid ∨ fld v 16 2 = 3 → exec (.doorbell e tid idx v) s = .next (r.violate (engineBlock e))) ∧
      (q.tid = tid → q.blocked = true → fld v 16 2 ≠ 3 → exec (.doorbell e tid idx v) s = .next r) ∧
      (q.tid = tid → q.blocked = false →
        (fld v 16 2 = 2 → (q.prod % 65536 + 65536 - i) % 65536 ≤ 2 ^ q.cqLog → exec (.doorbell e tid idx v) s =
          .next (r.setQp n { q with cHead := i })) ∧
        (fld v 16 2 = 0 → 2 ^ q.sqLog < (i + 65536 - q.sHead) % 65536 → exec (.doorbell e tid idx v) s =
          .next (r.violate (engineBlock e))) ∧
        (fld v 16 2 = 0 → (i + 65536 - q.sHead) % 65536 ≤ 2 ^ q.sqLog → exec (.doorbell e tid idx v) s =
          .next ((r.setQp n { q with sTail := i }).kickSend n)) ∧
        (fld v 16 2 = 1 → (i + 65536 - q.rHead) % 65536 ≤ 2 ^ q.rqLog → exec (.doorbell e tid idx v) s =
          .next ((r.setQp n { q with rTail := i }).kickRecv n)))

/-- A link that does not run changes nothing. A bad frame is counted in RX_BAD, a PAUSE frame in PAUSE; a raw frame without a
RECV descriptor is counted in RX_NOBUF. With nothing that may leave nothing is sent; a partner's state is kept. -/
def Claims.EthernetFrames : Prop :=
  ∀ (p l : Nat) (ok : Bool) (b : List Byte) (s : State), p < 8 → l < 2 →
    (s.linkRuns p l = false → exec (.frameReceive p l ok b) s = .next s ∧ exec (.frameTransmitted p l) s = .next s) ∧
    (s.linkRuns p l = true →
      (s.portRole p = 1 → ok = false ∨ b.length < 60 ∨ 9596 < b.length → exec (.frameReceive p l ok b) s =
        .next (s.portCount p fun x => { x with bad := x.bad + 1 })) ∧
      (60 ≤ b.length → b.length ≤ 9596 → beAt b 12 2 = 0x8808 → beAt b 14 2 = 0x0001 ∨ beAt b 14 2 = 0x0101 → exec (.frameReceive p l true b) s =
        .next (s.portCount p fun x => { x with pause := x.pause + 1 })) ∧
      (∀ n q, 60 ≤ b.length → b.length ≤ 9596 → isPause b = false → s.portRole p = 1 → isRoce b = false →
        (s.port p).steered l (ethOf b) = some n → s.qp? n = some q → q.isRc = false → q.port = p → q.blocked = false →
        q.paused = false → q.rHead = q.rTail → q.rHead < 65536 → ∃ t, exec (.frameReceive p l true b) s = .next t ∧
          (t.port p).rx = (s.port p).rx + 1 ∧ (t.port p).noBuf = (s.port p).noBuf + 1 ∧ t.qps = s.qps ∧
          t.inflight = s.inflight) ∧
      ((s.port p).txq = [] → exec (.frameTransmitted p l) s = .next s) ∧
      (∀ f, (s.port p).txq = [f] → f.link = l → f.qpn = none → frameBits f ≤ s.ceilNow p l f.cls → s.mirror.slots = [] →
        ∃ t, exec (.frameTransmitted p l) s = .next t ∧ t.out = s.out ++ [.frame p l f.bytes] ∧ (t.port p).txq = [] ∧
          (t.port p).tx = (s.port p).tx + 1)) ∧
    (s.portRuns p = true → s.hasLink p l = true → exec (.linkStateChange p l ok) s =
      .next (s.portCount p fun x => { x with partner := setBit x.partner l ok })) ∧
    (s.portRuns p = false → exec (.linkStateChange p l ok) s = .next s)

/-- A timeout before ACK_TIMEOUT or with nothing unacknowledged changes nothing; with retries left one is taken and the packets leave again; with none
the queue pair enters error. The rate recovers an eighth of what it lacks; an absent queue pair copies no frame. -/
def Claims.ReliableConnections : Prop :=
  ∀ (n : Nat) (s : State), n < 65536 →
    (s.qp? n = none → exec (.rcAckTimeout n) s = .next s ∧ exec (.cnpRateRecovery n) s = .next s ∧
      (s.mayArrive (.heldFrameCopy n) = true → exec (.heldFrameCopy n) s = .next (s.arrive (.heldFrameCopy n)))) ∧
    ∀ q rc, s.qp? n = some q → q.rc = some rc →
      (rc.unacked = [] → exec (.rcAckTimeout n) s = .next s) ∧
      (rc.ackDue q s.now = false → exec (.rcAckTimeout n) s = .next s) ∧
      (rc.unacked ≠ [] → q.sSt ≠ 2 → s.qpRuns n q = true → rc.ackDue q s.now = true → rc.retries = 0 →
        exec (.rcAckTimeout n) s = .next (s.rcError n stRetry)) ∧
      (rc.unacked ≠ [] → q.sSt ≠ 2 → s.qpRuns n q = true → rc.ackDue q s.now = true → rc.retries ≠ 0 →
        exec (.rcAckTimeout n) s = .next ((s.modRc n fun r => { r with retries := r.retries - 1 }).rcResend n)) ∧
      ((rc.cnpSeen.all fun t => t + 50000 ≤ s.now) = true → ∃ t, exec (.cnpRateRecovery n) s = .next t ∧
        t.qp? n = some { q with rc := some { rc with
          cnpSeen := some s.now, rate := rc.rate + ((if s.portSplit q.port then 400000 else 800000) - rc.rate) / 8 } }) ∧
      ((rc.cnpSeen.all fun t => t + 50000 ≤ s.now) = false → ∃ t, exec (.cnpRateRecovery n) s = .next t ∧ t.qp? n = some q) ∧
      (∀ m x f, s.guardedSlot q.tid = some (m, x) → (s.port q.port).txq = [f] → f.qpn = some n → s.mirrorRuns = true →
        s.logRoom f.bytes.length = false → s.mayArrive (.heldFrameCopy n) = true →
        exec (.heldFrameCopy n) s = .next ((s.arrive (.heldFrameCopy n)).send (.heldFrameCopy n)))

/-- Commands of queue pairs, and timeouts and rates of connections: Claims.QueuePairCommands and Claims.ReliableConnections. -/
def Obligations.QueuePairs : Prop := Claims.QueuePairCommands ∧ Claims.ReliableConnections

/-- A frame to another station is counted as dropped; without the port's clock nothing is received; a request shorter than a
header is a violation, one that fails a check is refused with that check's answer, and any other is accepted. -/
def Claims.ManagementPort : Prop :=
  ∀ (b : List Byte) (ip : BitVec 32) (port : Nat) (s : State), s.steward = true →
    (s.board.clocks.contains 3 = true → exec (.mgmtFrameReceive b) s = .next s) ∧
    (s.board.clocks.contains 3 = false → beAt b 0 6 ≠ mgmtMac → beAt b 0 6 ≠ 0xFFFFFFFFFFFF →
      exec (.mgmtFrameReceive b) s = .next { s with mgmt := { s.mgmt with dropped := s.mgmt.dropped + 1 } }) ∧
    (s.board.clocks.contains 3 = false → beAt b 0 6 = mgmtMac → beAt b 12 2 = 0x0800 →
      exec (.mgmtFrameReceive b) s = .next (s.mgmtIp b)) ∧
    (s.mayArrive (.brixmenRequest ip port b) = true → let t := s.arrive (.brixmenRequest ip port b)
      let len := leAt b 6 2
      let mtag := ofBytes 64 ((b.drop 16).take 8)
      (b.length < 8 → exec (.brixmenRequest ip port b) s = .next { t with mgmt := s.mgmt.violation 1 }) ∧
      (8 ≤ b.length → t.requestBad b ≠ 0 →
        exec (.brixmenRequest ip port b) s = .next (t.refuse ip port (leAt b 4 2) mtag (t.requestBad b))) ∧
      (8 ≤ b.length → t.requestBad b = 0 → exec (.brixmenRequest ip port b) s = .next (t.acceptReq
        ⟨leAt b 4 2, leAt b 8 8, mtag, (b.drop 24).take len, ip, port, none⟩ (ofBytes 384 ((b.drop (24 + len)).take 48)))))

/-- Frames at the Ethernet ports and at the management port: Claims.EthernetFrames and Claims.ManagementPort. -/
def Obligations.PortFrames : Prop := Claims.EthernetFrames ∧ Claims.ManagementPort

/-! ### The guest-die port -/

/-- A port that does not take messages changes nothing. A reserved header field is answered NAK; a fenced port refuses; a
request that its stream's TYPES do not permit is a violation and refused. A permitted one waits behind its stream's waiting
requests or for its bucket, else it is forwarded and its bytes are taken from the bucket. A message becomes a router message
behind its stream's writes. -/
def Claims.GuestRequests : Prop :=
  ∀ (h : DtlHdr) (d : Line) (ty : Byte) (s : State),
    (s.guestLive = false → ∀ m ∈ ([.dtlRd h, .dtlWr h d, .dtlWrp h d, .dtlMsg h, .dtlBudget h d, .dtlRddata h d,
      .dtlWrack h, .dtlNak h, .dtlReservedMessage ty h] : List Instr), exec m s = .next s) ∧
    (s.guestLive = true →
      (h.bad = true → ∀ m ∈ ([.dtlRd h, .dtlWr h d, .dtlWrp h d, .dtlMsg h, .dtlBudget h d, .dtlRddata h d, .dtlWrack h,
        .dtlNak h] : List Instr), exec m s = .next (s.guestNak 0x20 h)) ∧
      (h.bad = false → exec (.dtlNak h) s = .next s) ∧
      (ty = 0 ∨ ty = 6 ∨ 10 ≤ ty.toNat → exec (.dtlReservedMessage ty h) s = .next (s.guestNak 0x20 h)) ∧
      (h.bad = false → ∀ p ∈ ([(.dtlRd h, true, 0), (.dtlWr h d, false, 1), (.dtlWrp h d, false, 2)] :
          List (Instr × Bool × Nat)),
        (s.guest.open_.length < 128 → s.guest.fence = true → exec p.1 s =
          .next (s.guestRefuse p.2.1 h.stream h.tag 6 false)) ∧
        (s.guest.open_.length < 128 → s.guest.fence = false → (s.stream h.stream).blocked = false →
          (s.stream h.stream).takes p.2.2 = false → exec p.1 s =
            .next ((s.guestViolation 0x21 h.stream h.tag.toNat).guestRefuse p.2.1 h.stream h.tag 8 false)) ∧
        (128 ≤ s.guest.open_.length → exec p.1 s =
          .next ((s.guestViolation 0x24 h.stream h.tag.toNat).guestRefuse p.2.1 h.stream h.tag 8 false))) ∧
      (let u := s.modGuest fun g => { g with open_ := g.open_ ++ [(h.tag12, h.stream)] }
       let taken (i : Instr) (r : GuestReq) (perm need : Nat) : Prop :=
        h.bad = false → s.guest.open_.length < 128 → s.guest.fence = false → (s.stream h.stream).blocked = false →
          (s.stream h.stream).takes (r.ty - 1) = true → isDevice h.addr.toNat = false →
          s.guest.windowOk h.stream h.addr.toNat perm = true →
          ((s.guest.waiting.any fun w => w.hdr.stream == h.stream) = true →
            exec i s = .next (u.modGuest fun g => { g with waiting := g.waiting ++ [r] })) ∧
          ((s.guest.waiting.any fun w => w.hdr.stream == h.stream) = false →
            (s.streamLevel (s.stream h.stream) < need ∨ (s.stream h.stream).rate = 0 ∨ (s.stream h.stream).paused = true →
              exec i s = .next (u.modGuest fun g => { g with waiting := g.waiting ++ [r] })) ∧
            (need ≤ s.streamLevel (s.stream h.stream) → (s.stream h.stream).rate ≠ 0 → (s.stream h.stream).paused = false →
              ∀ v, u.guestForward r = (true, v) → ∃ t, exec i s = .next t ∧ t.inflight = v.inflight ∧ t.hier = v.hier ∧
                t.guest.open_ = v.guest.open_ ∧ t.guest.waiting = v.guest.waiting ∧
                (t.stream h.stream).bucket = (s.streamLevel (s.stream h.stream) - need, s.now)))
       taken (.dtlRd h) ⟨1, h, 0⟩ 61 64000 ∧ taken (.dtlWr h d) ⟨2, h, d⟩ 62 64000 ∧ taken (.dtlWrp h d) ⟨3, h, d⟩ 62 32000) ∧
      (h.bad = false → s.guest.fence = false → (s.stream h.stream).blocked = false → (s.stream h.stream).takes 3 = true →
        s.guest.writes = [] → s.guest.waiting = [] → exec (.dtlMsg h) s =
          .next (s.send (.routerMessage (s.stream h.stream).tid (h.info.setWidth 9)))))

/-- An access is answered UNMAPPED without a guest and FENCED behind a fence; else it leaves as a request of its kind under the
lowest free tag; its answer fails it as FIREWALL, or completes it; an answer to nothing is a violation. -/
def Claims.GuestAnswers : Prop :=
  ∀ (r : Hdr) (o : Nat) (op : GuestOp) (s : State), hdrOk r = true →
    (s.mayArrive (.guestWindowAccess r o op) = true →
      let s1 := s.arrive (.guestWindowAccess r o op)
      (s.guest.present = false → exec (.guestWindowAccess r o op) s = .next (s1.send (.err r (0xF100000000000 + o) 1))) ∧
      (s.guest.present = true → s.guest.fence = true ∨ s.unitFenced 711 = true →
        exec (.guestWindowAccess r o op) s = .next (s1.send (.err r (0xF100000000000 + o) 6))) ∧
      (s.guest.present = true → s.guest.fence = false → s.unitFenced 711 = false → (s.dom 711).st = .run →
        (s.dom 711).inReset = false → (s.dom 711).stopped = false →
        ((∀ t, t < 128 → (s.guest.host.any fun x => x.1.toNat == t) = true) →
          exec (.guestWindowAccess r o op) s = .next (s1.send (.err r (0xF100000000000 + o) 7))) ∧
        (s.guest.host = [] → ∃ t, exec (.guestWindowAccess r o op) s = .next t ∧ t.inflight = s1.inflight ∧ t.hier = s1.hier ∧
          t.guest.host = [(0, r, 0xF100000000000 + o, decide (op = .rd))] ∧ t.out = s.out ++ [.dtl (match op with
            | .rd => dtlMessage 1 0 0 0 (o / 64 * 64) []
            | .wr d => dtlMessage 2 (16 * d.poison.toNat) 0 0 (o / 64 * 64) (toBytes d.bytes 64)
            | .wrp q => dtlMessage 3 (16 * q.poison.toNat) 0 q.mask.toNat (o / 64 * 64 + q.offset.toNat / 32 * 32)
                (toBytes q.data 32 ++ List.replicate 32 0))]))) ∧
    ∀ (h : DtlHdr) (d : Line), s.guestLive = true → h.bad = false →
      (s.guest.host = [] → exec (.dtlRddata h d) s = .next (s.guestNak 0x23 h) ∧
        exec (.dtlWrack h) s = .next (s.guestNak 0x23 h)) ∧
      ∀ pa,
        (s.guest.host = [(h.tag12, r, pa, true)] →
          (h.info ≠ 0 ∨ h.poison = true → ∃ t, exec (.dtlRddata h d) s = .next t ∧ t.guest.host = [] ∧
            t.inflight = s.inflight ++ [.err r pa 8]) ∧
          (h.info = 0 → h.poison = false →
            (576 ≤ r.node → ∃ t, exec (.dtlRddata h d) s = .next t ∧ t.guest.host = [] ∧
              t.inflight = s.inflight ++ [.curdata r (pa / 64) ⟨d, false⟩]) ∧
            (r.node < 576 → ∃ t, exec (.dtlRddata h d) s = .next t ∧ t.guest.host = [] ∧
              t.guest.answers = s.guest.answers ++ [(r.node, pa, 0, d)] ∧ (t.tag r.node r.tag).req = none))) ∧
        (s.guest.host = [(h.tag12, r, pa, false)] →
          (h.info ≠ 0 ∨ h.poison = true → ∃ t, exec (.dtlWrack h) s = .next t ∧ t.guest.host = [] ∧
            t.inflight = s.inflight ++ [.err r pa 8]) ∧
          (h.info = 0 → h.poison = false →
            (576 ≤ r.node → ∃ t, exec (.dtlWrack h) s = .next t ∧ t.guest.host = [] ∧
              t.inflight = s.inflight ++ [.cmp r (pa / 64)]) ∧
            (r.node < 576 → ∃ t, exec (.dtlWrack h) s = .next t ∧ t.guest.host = [] ∧
              t.guest.answers = s.guest.answers ++ [(r.node, pa, 0, 0)] ∧ (t.tag r.node r.tag).req = none)))

/-- A budget message is answered with the grant; no budget for its time takes the grant away and is reported; a
stream's waiting request goes when its bucket permits; a fence is
complete once everything forwarded has been answered; a lost link fences; FW_CTL sets and clears the fence. -/
def Claims.GuestFenceAndBudget : Prop :=
  ∀ (h : DtlHdr) (d : Line) (n : Nat) (v : Word) (s : State),
    (s.guestLive = true → h.bad = false → fld d 80 1 = 0 → fld d 83 5 = 0 → fld d 88 424 = 0 → s.guest.sleepAt = none →
      ∃ t, exec (.dtlBudget h d) s = .next t ∧ t.power.grant = s.guestGrant (fld d 0 32) ∧
        t.guest.budgetAt = some s.now ∧ t.inflight = s.inflight) ∧
    (s.guest.present = true → (s.guest.budgetAt.all fun t => t + 10000000 ≤ s.now) = true →
      ∃ t, exec .guestBudgetTimeout s = .next t ∧ t.power.grant = 0 ∧ t.guest.budgetAt = some s.now ∧
      t.inflight = s.inflight ++ [.faultMessage (srcCode 4 0 0) 0x73 none 0]) ∧
    (s.guest.sleepAt = none → exec .guestSleepTimeout s = .next s) ∧
    (∀ a, s.guest.sleepAt = some a →
      (s.now < a + 1000000 → exec .guestSleepTimeout s = .next s) ∧
      (a + 1000000 ≤ s.now → ∃ t, exec .guestSleepTimeout s = .next t ∧ t.guest.sleepAt = none ∧
        t.inflight = s.inflight ++ [.sleepAnswer guestDomain false])) ∧
    (n < 16 → s.guest.waiting = [] → exec (.guestBucketReady n) s = .next s) ∧
    (∀ r, n < 16 → s.guest.waiting = [r] → r.hdr.stream = n →
      ((s.guestTry r).1 = false → exec (.guestBucketReady n) s = .next s) ∧
      ((s.guestTry r).1 = true →
        exec (.guestBucketReady n) s = .next ((s.guestTry r).2.modGuest fun g => { g with waiting := [] }))) ∧
    (s.guest.fence = true → s.guest.open_ = [] → s.guest.host = [] →
      exec .guestFenceComplete s = .next (s.modGuest fun g => { g with fenced := true })) ∧
    (s.guest.fence = false ∨ s.guest.open_ ≠ [] → exec .guestFenceComplete s = .next s) ∧
    (∃ t, exec .guestLinkLoss s = .next t ∧ t.guest.up = false ∧ t.guest.fence = true ∧ t.guest.auto_ = true ∧
      t.guest.waiting = [] ∧ t.hier = s.hier) ∧
    ((s.dom 711).st = .run → (s.dom 711).inReset = false →
      (bit v 0 = false → exec (.fwCtlWrite v) s = .next ((s.reserved guestBlock (maskBits 7 0) v).modGuest fun g => { g with
        auto_ := g.auto_ && !bit v 1, fence := false, fenced := false })) ∧
      (bit v 0 = true → ∃ t, exec (.fwCtlWrite v) s = .next t ∧ t.guest.fence = true ∧
        t.guest.auto_ = (s.guest.auto_ && !bit v 1)))

/-- The guest accelerator's requests, answers, fence and budget: Claims.GuestRequests and Claims.GuestAnswers and Claims.GuestFenceAndBudget. -/
def Obligations.GuestPort : Prop := Claims.GuestRequests ∧ Claims.GuestAnswers ∧ Claims.GuestFenceAndBudget

/-! ### The page compressor and the registers -/

/-- GO on a busy lane is a violation, on a halted one fails LANE_HALTED, else reads the descriptor; ABORT marks the job;
REARM ends the halt of a lane that is not fenced; a block that a DECOMPRESS job cannot restore is marked and skipped, one that
it can is written. -/
def Claims.CompressorLanes : Prop :=
  ∀ (l : Nat) (v : Word) (s : State), l < 4 → s.laneOn l = true →
    let r := s.reserved (laneBlock l) jobBits v
    let x : Lane := { s.lane l with desc := BitVec.ofNat 64 (fld v 6 46 * 64) }
    let x1 : Lane := { x with
      res := x.res.accept, written := 0, marked := 0, first := 0xFFFF, used := 0 }
    (bit v 63 = true → bit v 62 = false →
      ((s.lane l).busy = true → exec (.jobGo l v) s = .next ((r.setLane l x).violate (laneBlock l))) ∧
      ((s.lane l).busy = false → (s.lane l).halted = true → ∃ t, exec (.jobGo l v) s = .next t ∧
        t.lane l = { x1 with res := x1.res.fail codeLaneHalted 0 } ∧ t.inflight = s.inflight ∧ t.hier = s.hier) ∧
      ((s.lane l).busy = false → (s.lane l).halted = false → s.isFenced (laneDomain l) = false →
        exec (.jobGo l v) s = .next (((r.setLane l x).setLane l { x1 with busy := true, job := none }).startRead (laneNode l)
          0 0 (.job l) [(x.desc.toNat, 64)]))) ∧
    (∀ j, bit v 63 = false → bit v 62 = true → (s.lane l).busy = true → (s.lane l).job = some j → ∃ t,
      exec (.jobAbort l v) s = .next t ∧ (t.lane l).job = some { j with aborting := true } ∧ (t.lane l).busy = true ∧
        t.hier = s.hier ∧ t.inflight = s.inflight) ∧
    (bit v 62 = true → bit v 63 = false → (s.lane l).busy = false → exec (.jobAbort l v) s = .next (r.setLane l x)) ∧
    (bit v 0 = true → s.isFenced (laneDomain l) = false →
      exec (.laneRearm l v) s = .next ((s.reserved (laneBlock l) 3 v).setLane l { s.lane l with halted := false })) ∧
    (bit v 0 = false ∨ s.isFenced (laneDomain l) = true → exec (.laneRearm l v) s = .next (s.reserved (laneBlock l) 3 v)) ∧
    ((s.lane l).job = none → exec (.compressorBlock l) s = .next s) ∧
    ∀ j b, s.runs (laneDomain l) = true → (s.lane l).job = some j → j.ready = some b → j.compress = false →
      (decodeSlot b = none →
        exec (.compressorBlock l) s = .next (s.laneStep l { j with marks := j.marks ++ [j.index] })) ∧
      ∀ out, decodeSlot b = some out →
        let j1 : Job := { j with
          written := j.written + 1, used := if j.mode == 2 then j.used + b.length else 0, ready := none }
        exec (.compressorBlock l) s = .next ((s.setLane l { s.lane l with job := some j1 }).laneWrite l j1
          [(j.outBase + 4096 * j.index, out)])

/-- What the model's coder puts into a slot of 1,024 or 2,048 bytes decodes to the block: the coder's token choice is a free
value of the model, the decoder follows the rules. -/
def Claims.SlotRoundTrip : Prop :=
  ∀ (n size : Nat) (b c : List Byte), b.length = 4096 → size = 1024 ∨ size = 2048 →
    codeSlot (tokensOf n b) b size = some c → c.length = size ∧ decodeSlot c = some b

/-- The compressor's lanes, and that a stored block is restored: Claims.CompressorLanes and Claims.SlotRoundTrip. -/
def Obligations.CompressorJobs : Prop := Claims.CompressorLanes ∧ Claims.SlotRoundTrip

/-- A write to no block is answered UNMAPPED; of the wrong width or alignment it is a violation of the block and answered
REG_ACCESS; where the block answers an error so is the write; a write that a block serves is counted as a violation when it
sets a reserved bit, and has its effect. CLEAR zeroes a violation count, a statistics record and a partner-violation log. The
answers carry tag 256, which stands for no tag (notes/assumptions/53.md). -/
def Obligations.RegisterWrites : Prop :=
  ∀ (node pa : Nat) (tid : BitVec 12) (v : Word) (s : State), nodeOk node = true → pa < 2 ^ 52 →
    let blk := pa / 2 ^ 20 * 2 ^ 20
    let off := pa % 2 ^ 20
    let answer (u : State) (e : BitVec 16) : State := u.send (.err ⟨node, 256, 0, tid, 0⟩ pa e)
    (∀ w, blkOf pa = none → exec (.registerWrite node tid pa w v) s = .next (answer s 1)) ∧
    (∀ w b e u, blkOf pa = some b → s.blkErr b = (e, u) → e ≠ 0 →
      exec (.registerWrite node tid pa w v) s = .next (answer u (BitVec.ofNat 16 e))) ∧
    (∀ b, blkOf pa = some b → s.blkErr b = (0, s) →
      exec (.registerWrite node tid pa false v) s = .next (answer (s.violate blk) 2) ∧
      (pa % 8 ≠ 0 → exec (.registerWrite node tid pa true v) s = .next (answer (s.violate blk) 2)) ∧
      (pa % 8 = 0 → s.reqUnmapped b off v = true → exec (.registerWrite node tid pa true v) s = .next (answer s 1)) ∧
      (pa % 8 = 0 → s.reqUnmapped b off v = false → exec (.registerWrite node tid pa true v) s =
        .next ((if v &&& ~~~ ((s.regGet b blk off).map (·.2)).getD 0 ≠ 0 ∧ ¬(off = 8 ∧ bit v 63 = true) then s.violate blk
          else s).regPut b blk tid off v)) ∧
      (bit v 63 = true → exec (.violationClear pa v) s = .next { s with viol := tput s.viol blk 0 }) ∧
      (bit v 63 = false → exec (.violationClear pa v) s = .next s)) ∧
    (∀ r, statOk r = true → (bit v 1 = false → exec (.statClear r v) s = .next s) ∧
      (bit v 1 = true → ∃ t, exec (.statClear r v) s = .next t ∧
        let x := tget t.hier.stats r Stat.initial
        x.requests = 0 ∧ x.rdBytes = 0 ∧ x.wrBytes = 0 ∧ x.retries = 0 ∧ x.timeouts = 0 ∧ x.late = 0 ∧
        x.freeze = bit v 0 ∧ t.cores = s.cores ∧ t.hier.dram = s.hier.dram)) ∧
    ∀ u, bit v 63 = true →
      (u < 8 → exec (.pvClear u v) s = .next ((s.reserved (portBlock u) (maskBits 63 63 ||| maskBits 35 0) v).portCount u
        fun x => { x with pv := x.pv.write v })) ∧
      (u = 9 → ∃ t, exec (.pvClear u v) s = .next t ∧ t.guest.pv = Pv.initial ∧ t.hier = s.hier)

/-! ### The mirror engine -/

/-- A command that comes while one runs is a violation. REMOVE and REARM of a tenant without a slot fail; REMOVE of a standby
frees it; REARM of an unmirrored slot sends JOIN. ADD reads its record; when that has come, a record that breaks Table 15-2
fails FIELD_INVALID, a staging area past the last address LENGTH_RANGE, a pair that is not up PAIR_STATE; a standby's slot is
entered, an active member's sends JOIN; a poisoned record fails POISONED. -/
def Claims.MirrorCommands : Prop :=
  (∀ (v : Word) (s : State), s.mirrorRuns = true → bit v 63 = true →
    let r := s.reserved mirrorBlock (maskBits 63 60 ||| maskBits 51 6) v
    let s0 := r.modMirror fun g => { g with cmd := v &&& 0x700FFFFFFFFFFFC0 }
    let s1 := s0.mtEnd fun c => c.accept
    let tid : BitVec 12 := BitVec.ofNat 12 (fld v 6 12)
    (s.mirror.res.status = 1 →
      (fld v 60 3 = 1 → exec (.mtAdd v) s = .next (s0.violate mirrorBlock)) ∧
      (fld v 60 3 = 2 → exec (.mtRemove v) s = .next (s0.violate mirrorBlock)) ∧
      (fld v 60 3 = 3 → exec (.mtRearm v) s = .next (s0.violate mirrorBlock))) ∧
    (s.mirror.res.status ≠ 1 →
      (fld v 60 3 = 1 → exec (.mtAdd v) s =
        .next (s1.startRead mirrorNode 0 0 .mtRecord (chunksOf (fld v 6 46 * 64) 448))) ∧
      (fld v 60 3 = 2 → s.slotOf tid = none → exec (.mtRemove v) s = .next (s1.mtFail codeFieldInvalid)) ∧
      (fld v 60 3 = 3 → s.slotOf tid = none → exec (.mtRearm v) s = .next (s1.mtFail codePairState)) ∧
      (∀ m x, fld v 60 3 = 2 → s.slotOf tid = some (m, x) → s.slot m = x → x.active = false →
        exec (.mtRemove v) s = .next ((s1.setSlot m Slot.initial).mtEnd fun c => c.done 0)) ∧
      (∀ m x, fld v 60 3 = 3 → s.slotOf tid = some (m, x) → x.active = true → x.st = .unguarded → s.mirror.st = 2 →
        ∃ t, exec (.mtRearm v) s = .next t ∧ t.mirror.joining = some (m, s.now, false) ∧
          t.mirror.res = s.mirror.res.accept))) ∧
  ∀ (h : Hdr) (line : Nat) (d : LineData) (r : Reader) (s s1 : State), r.why = .mtRecord →
    let x := slotOfRecord r.got
    let gives (t : State) : Prop := exec (.curdata h line d) s = .next t
    (∀ pa, s.ReadFails h line d r 0 pa s1 → gives (s1.mtFail codePoisoned)) ∧
    (s.ReadEnds h line d r s1 →
      (addFields r.got = false → gives (s1.mtFail codeFieldInvalid)) ∧
      (addFields r.got = true →
        (stagePastEnd x = true → gives (s1.mtFail codeLengthRange)) ∧
        (stagePastEnd x = false → s1.img secHome 0 1 0 ≠ 0 → gives (s1.mtFail codeNotNuma)) ∧
        (stagePastEnd x = false → s1.img secHome 0 1 0 = 0 → s1.rangesBad x = true → gives (s1.mtFail codeMirrorRange)) ∧
        ∀ m, stagePastEnd x = false → s1.img secHome 0 1 0 = 0 → s1.rangesBad x = false →
          lowest (fun m => (s1.slot m).st == .free) 128 = some m →
          (s1.slotOf x.tid ≠ none → gives (s1.mtFail codeTidMirrored)) ∧
          (s1.slotOf x.tid = none → s1.mirror.st ≠ 2 → gives (s1.mtFail codePairState)) ∧
          (s1.slotOf x.tid = none → s1.mirror.st = 2 →
            (x.active = false → gives ((s1.setSlot m { x with st := .standby, catchUp := true }).mtEnd fun c => c.done 0)) ∧
            (x.active = true → ∃ t, gives t ∧ t.mirror.joining = some (m, s1.now, true) ∧ t.mirror.res = s1.mirror.res ∧
              t.hier = s1.hier))))

/-- A JOIN unanswered for 10 ms fails PARTNER_MISMATCH; HELLO and HEARTBEAT leave in their states only; a gap asks for its
frames after 50 µs; silence of 200 µs is partner loss; a member without a pair leaves at once, any other by 1 ms. -/
def Claims.JoinAndLeave : Prop :=
  ∀ (s : State), s.mirrorRuns = true →
    (s.mirror.joining = none → exec .joinTimeout s = .next s) ∧
    (∀ m t add, s.mirror.joining = some (m, t, add) →
      (s.now < t + 10000000 → exec .joinTimeout s = .next s) ∧
      (t + 10000000 ≤ s.now → exec .joinTimeout s = .next
        ((if add then s.setSlot m Slot.initial else s).modMirror fun g => { g with
          joining := none, res := g.res.fail codePartnerMismatch 0 }))) ∧
    (s.mirror.left = false → s.mirror.st = 1 → exec .helloTimer s = .next (s.cPlain 1 (List.replicate 8 0)) ∧
      exec .heartbeatTimer s = .next s) ∧
    (s.mirror.left = false → s.mirror.st = 2 → exec .heartbeatTimer s = .next (s.cPlain 2 (leBytes 8 s.now)) ∧
      exec .helloTimer s = .next s) ∧
    (s.mirror.gapSince = none → exec .resendGapTimeout s = .next s) ∧
    (∀ t a, s.mirror.gapSince = some t → s.mirror.st = 2 → s.mirror.left = false → t + 50000 ≤ s.now → s.mirror.ahead = [a] →
      a.1 ≤ 2 ^ 64 → exec .resendGapTimeout s = .next
        ((s.cPlain 0x31 (leBytes 8 s.mirror.expect ++ leBytes 8 (a.1 - 1))).modMirror fun g => { g with gapSince := some s.now })) ∧
    (s.mirror.st ≠ 2 → exec .partnerLoss s = .next s) ∧
    (s.mirror.st = 2 → s.mirror.heard = [] → s.mirror.slots = [] → s.mirror.leaving = none → exec .partnerLoss s = .next
      ((s.modMirror fun g => { g with st := 3, byLoss := true, ahead := [], gapSince := none }).fault mirrorSrc 0x60 none
        s.mirror.partner.toNat)) ∧
    (s.mirror.leaving = none → s.mirror.left = false → s.mirror.st ≠ 2 → s.mayArrive .mirrorLeave = true →
      exec .mirrorLeave s = .next
      (((s.arrive .mirrorLeave).modMirror fun g => { g with leaving := some s.now, left := true }).send
        (.seqTableRequest purposeFullReset 0))) ∧
    ∀ t, s.mirror.leaving = some t →
      (s.mayArrive .mirrorLeave = true → exec .mirrorLeave s = .next (s.arrive .mirrorLeave)) ∧
      (s.now < t + 1000000 → exec .mirrorLeaveExpiry s = .next s) ∧
      (t + 1000000 ≤ s.now → s.mirror.left = false → exec .mirrorLeaveExpiry s = .next
        ((s.modMirror fun g => { g with left := true }).send (.seqTableRequest purposeFullReset 0)))

/-- The mirror engine's commands, timers and leave: Claims.MirrorCommands and Claims.JoinAndLeave. -/
def Obligations.MirrorEngine : Prop := Claims.MirrorCommands ∧ Claims.JoinAndLeave

/-- A frame of the wrong pairing or length is a violation; a number already taken changes nothing but the time heard; one above
a gap is kept; HELLO pairs; HEARTBEAT is only heard; RESEND sends kept frames again; BREAK ends the pairing. -/
def Claims.ContrailOrder : Prop :=
  ∀ (f : CFrame) (s : State), s.mirrorRuns = true → s.mirror.left = false → s.mirrorLink f.port = true →
    let heard := s.modMirror fun g => { g with heard := tput g.heard f.port s.now }
    let ts := (s.mirror.viols.filter fun t => s.now < t + 1000000) ++ [s.now]
    (∀ p ∈ ([(.joinFrame f, 0x10), (.joinOkFrame f, 0x11), (.contrailDrop f, 0x12), (.stateFrame f, 0x20),
        (.linesFrame f, 0x21), (.outputFrame f, 0x22), (.endFrame f, 0x23), (.ackFrame f, 0x24), (.intentFrame f, 0x25),
        (.grantFrame f, 0x26), (.sentFrame f, 0x27), (.nakFrame f, 0x30)] : List (Instr × Nat)),
      (s.mirror.st = 0 ∨ s.mirror.st = 3 → exec p.1 s = .next s) ∧
      (s.mirror.st = 2 → s.idOk f = false → exec p.1 s = .next (s.cViolation 0x41 f)) ∧
      (s.mirror.st = 2 → s.idOk f = true → lenOk p.2 f.payload = false → exec p.1 s = .next (s.cViolation 0x42 f)) ∧
      (s.TakesFrame p.2 f →
        (f.seq.toNat < s.mirror.expect → exec p.1 s = .next heard) ∧
        (s.mirror.expect < f.seq.toNat → s.mirror.ahead = [] → s.mirror.gapSince = none → exec p.1 s =
          .next (heard.modMirror fun g => { g with ahead := [(f.seq.toNat, p.2, f)], gapSince := some s.now })))) ∧
    (s.mirror.st = 1 → s.idOk f = true → lenOk 1 f.payload = true → ∃ t, exec (.helloFrame f) s = .next t ∧
      t.mirror.st = 2 ∧ t.mirror.seq = 1 ∧ t.mirror.expect = 1 ∧ t.mirror.log = [] ∧
      tfind? t.mirror.mac f.port = some f.mac ∧ t.mirror.slots = s.mirror.slots ∧ t.out = s.out) ∧
    (s.TakesFrame 2 f → exec (.heartbeatFrame f) s = .next heard) ∧
    (s.TakesFrame 0x31 f → (∀ e ∈ s.mirror.log, e.1 < leAt f.payload 0 8) → exec (.resendFrame f) s = .next heard) ∧
    (∀ e, s.TakesFrame 0x31 f → s.mirror.log = [e] → e.1 ≠ 0 → leAt f.payload 0 8 ≤ e.1 → e.1 ≤ leAt f.payload 8 8 →
      exec (.resendFrame f) s = .next (heard.mirrorOut f.port e.2.2.2)) ∧
    (s.TakesFrame 0x3F f → s.mirror.slots = [] → s.mirror.leaving = none → exec (.contrailBreak f) s = .next
      ((heard.modMirror fun g => { g with st := 3, byLoss := false, ahead := [], gapSince := none }).fault mirrorSrc 0x61 none
        (leAt f.payload 0 1))) ∧
    (s.mirror.st = 2 → ts.length ≤ s.mirror.limit.toNat → exec (.contrailFrameInvalid f true) s =
      .next (s.modMirror fun g => { g with viols := ts, pv := { g.pv with total := satInc 32 g.pv.total } })) ∧
    (s.mirror.st = 2 → s.idOk f = true → exec (.contrailFrameInvalid f false) s = .next (s.cViolation 0x42 f))

/-- JOIN begins anew; STATE, LINES and OUTPUT of the open epoch are staged; END waits for the staging writes; INTENT of
committed frames is granted; SENT frees them; DROP frees the slot; a frame without a slot is a violation. -/
def Claims.StandbyFrames : Prop :=
  ∀ (f : CFrame) (s : State), s.mirror.ahead = [] → f.seq.toNat = s.mirror.expect →
    s.mirror.viols.length < s.mirror.limit.toNat →
    let s1 := s.inTurn f
    let t12 : BitVec 12 := f.tid.setWidth 12
    (∀ p ∈ ([(.joinFrame f, 0x10), (.contrailDrop f, 0x12), (.stateFrame f, 0x20), (.linesFrame f, 0x21), (.outputFrame f, 0x22),
        (.endFrame f, 0x23), (.ackFrame f, 0x24), (.intentFrame f, 0x25), (.grantFrame f, 0x26), (.sentFrame f, 0x27)] :
          List (Instr × Nat)), s.TakesFrame p.2 f → s1.slotOf t12 = none → exec p.1 s = .next (s1.cViolation 0x43 f).noGap) ∧
    ∀ m x, s1.slotOf t12 = some (m, x) → s1.slot m = x → x.st = .standby → x.active = false →
      (s.TakesFrame 0x10 f → leAt f.payload 0 1 = x.ranges.length →
        (∀ r, r < x.ranges.length → leAt f.payload (8 + 8 * r) 8 = (x.ranges.getD r (0, 0, 0)).2.1) →
        exec (.joinFrame f) s = .next ((s1.setSlot m { x.discard with
          ended := 0, applied := 0, committed := 0, catchUp := true, contexts := [] }).cSend 0x11 x.tid 0 false []).noGap) ∧
      (s.TakesFrame 0x12 f → exec (.contrailDrop f) s = .next (s1.setSlot m Slot.initial).noGap) ∧
      (f.tid.toNat < 4096 → f.epoch.toNat = x.openEpoch → 2 * (x.staged + f.payload.length) ≤ x.stageLen →
        let k := x.openEpoch
        let y : Slot := { x with staged := x.staged + f.payload.length }
        let w (t : State) : State := t.startWrite mirrorNode t12 (s1.tenantCls t12) (.stage m k)
          [(x.stageBase + k % 2 * (x.stageLen / 2) + x.staged, f.payload)]
        (s.TakesFrame 0x20 f → exec (.stateFrame f) s = .next (w (s1.setSlot m { y with
          nState := x.nState + 1, stage := x.stage ++ [(k, 0x20, f.payload)] })).noGap) ∧
        (s.TakesFrame 0x21 f → (∀ r ∈ cutRecs 72 130 f.payload, x.locOk r = true) → exec (.linesFrame f) s = .next
          (w (s1.setSlot m { y with nLines := x.nLines + 1, stage := x.stage ++ [(k, 0x21, f.payload)] })).noGap) ∧
        (s.TakesFrame 0x22 f → leAt f.payload 9 1 ≠ 2 → exec (.outputFrame f) s = .next (w (s1.setSlot m { y with
          nOut := x.nOut + 1, stage := x.stage ++ [(k, 0x22, f.payload)],
          held := x.held ++ [⟨leAt f.payload 0 8, k, leAt f.payload 8 1 % 8, leAt f.payload 8 1 / 8 % 2,
            f.payload.drop 16, 1⟩] })).noGap)) ∧
      (∀ ty i, (ty, i) ∈ ([(0x20, .stateFrame f), (0x22, .outputFrame f), (0x23, .endFrame f)] : List (Nat × Instr)) →
        s.TakesFrame ty f → f.tid.toNat < 4096 → f.epoch.toNat ≠ x.openEpoch → exec i s = .next (s1.cViolation 0x44 f).noGap) ∧
      (s.TakesFrame 0x23 f → f.epoch.toNat = x.openEpoch → x.endAt = none → leAt f.payload 0 4 = x.nState →
        leAt f.payload 4 4 = x.nLines → leAt f.payload 8 4 = x.nOut → exec (.endFrame f) s = .next ((s1.setSlot m { x with
          endAt := some x.openEpoch, full := bit (f.payload.getD 12 0) 0, nState := 0, nLines := 0, nOut := 0,
          staged := 0 }).standbyAck m).noGap) ∧
      (∀ h, s.TakesFrame 0x25 f → x.held = [h] → h.epoch ≤ x.ended → leAt f.payload 0 8 = h.num → leAt f.payload 8 1 = 1 →
        exec (.intentFrame f) s = .next ((s1.setSlot m { x with held := [{ h with st := 3 }] }).cSend 0x26 x.tid f.epoch.toNat
          false (leBytes 8 h.num ++ leBytes 1 1)).noGap) ∧
      ∀ h, s.TakesFrame 0x27 f → x.held = [h] → h.st = 3 → leAt f.payload 0 8 = h.num →
        exec (.sentFrame f) s = .next (s1.setSlot m { x with held := [] }).noGap

/-- JOIN_OK opens the FULL epoch and ends the command; ACK commits up to the epoch that has been ended; GRANT hands the
announced frames to their ports; DROP leaves a running slot unmirrored; NAK of a JOIN fails the command. -/
def Claims.ActiveFrames : Prop :=
  ∀ (f : CFrame) (s : State), s.mirror.ahead = [] → f.seq.toNat = s.mirror.expect →
    s.mirror.viols.length < s.mirror.limit.toNat →
    let s1 := s.inTurn f
    let t12 : BitVec 12 := f.tid.setWidth 12
    (∀ m t add, s.TakesFrame 0x11 f → s1.mirror.joining = some (m, t, add) → f.tid.toNat = (s1.slot m).tid.toNat →
      ∃ u, exec (.joinOkFrame f) s = .next u ∧ u.mirror.joining = none ∧ u.mirror.res = s.mirror.res.done 0 ∧
        (u.slot m).st = .syncing ∧ (u.slot m).epoch = 1 ∧ (u.slot m).full = true ∧ (u.slot m).since = s.now ∧
        (u.slot m).held = [] ∧ u.cores = s.cores ∧ u.hier = s.hier) ∧
    (s.TakesFrame 0x11 f → s1.mirror.joining = none → exec (.joinOkFrame f) s = .next (s1.cViolation 0x43 f).noGap) ∧
    (s.TakesFrame 0x30 f → s1.mirror.joining = none → exec (.nakFrame f) s = .next s1.noGap) ∧
    (∀ m t, s.TakesFrame 0x30 f → s1.mirror.joining = some (m, t, false) → (s1.slot m).tid.toNat = f.tid.toNat →
      exec (.nakFrame f) s = .next (s1.modMirror fun g => { g with
        joining := none, gapSince := none, res := g.res.fail codePartnerMismatch 0 })) ∧
    ∀ m x, s1.slotOf t12 = some (m, x) → s1.slot m = x → x.active = true →
      (s.TakesFrame 0x12 f → x.st = .unguarded ∨ x.st = .halted → exec (.contrailDrop f) s = .next s1.noGap) ∧
      (s.TakesFrame 0x12 f → x.st = .guarded → x.held = [] → x.stopped = false → x.phase = .none →
        s.hier.queues = [] → ∃ u, exec (.contrailDrop f) s = .next u ∧ (u.slot m).st = .unguarded ∧ (u.slot m).capture = none ∧
          u.hier = s.hier ∧ u.cores = s.cores) ∧
      (s.TakesFrame 0x24 f → x.st = .guarded →
        (x.ended < f.epoch.toNat → exec (.ackFrame f) s = .next (s1.cViolation 0x46 f).noGap) ∧
        (f.epoch.toNat ≤ x.ended → f.epoch.toNat ≤ x.acked → exec (.ackFrame f) s = .next s1.noGap) ∧
        (f.epoch.toNat ≤ x.ended → x.acked < f.epoch.toNat → x.held = [] → x.final = 0 → s1.mirror.leaving = none →
          exec (.ackFrame f) s = .next ((s1.setSlot m { x with
            acked := f.epoch.toNat, committed := f.epoch.toNat }).logFree x.tid f.epoch.toNat).noGap)) ∧
      (∀ h, s.TakesFrame 0x26 f → x.held = [h] → h.st = 2 → leAt f.payload 0 8 = h.num → leAt f.payload 8 1 = 1 →
        exec (.grantFrame f) s = .next ((s1.handFrame x.tid h).setSlot m { x with held := [{ h with st := 3 }] }).noGap) ∧
      (s.TakesFrame 0x26 f → x.held = [] → exec (.grantFrame f) s = .next (s1.cViolation 0x47 f).noGap)

/-- Contrail frames: which are taken, and what each does: Claims.ContrailOrder and Claims.StandbyFrames and Claims.ActiveFrames. -/
def Obligations.ContrailFrames : Prop := Claims.ContrailOrder ∧ Claims.StandbyFrames ∧ Claims.ActiveFrames

/-- A boundary that is due sends its pause notices; the router pauses the tenant and tells the cores it shows resident; a core
that is off, elsewhere or fenced answers at once, a running one pauses and writes its record; an idle engine answers. -/
def Claims.EpochBoundary : Prop :=
  ∀ (m : Nat) (tid : BitVec 12) (s : State), m < 128 → s.mirrorRuns = true →
    (s.mayBound m = false → exec (.epochBoundaryStart m) s = .next s) ∧
    (∀ x, s.slot m = x → x.phase = .none → s.mayBound m = true → x.final = 0 →
      (s.now < x.since + x.epochMs * 1000000 → 2 * x.size < x.stageLen → exec (.epochBoundaryStart m) s = .next s) ∧
      (x.since + x.epochMs * 1000000 ≤ s.now ∨ x.stageLen ≤ 2 * x.size → ∃ u, exec (.epochBoundaryStart m) s = .next u ∧
        u.slot m = { x with
          phase := .pause (2048 :: pauseUnits.map (1024 + ·)) s.now, since := s.now, pausedUnits := [], woken := [],
          records := [] } ∧
        u.inflight = s.inflight ++ .routerPauseNotice x.tid :: pauseUnits.map (fun u => Instr.pauseNoticeEngine u x.tid) ∧
        u.cores = s.cores ∧ u.hier = s.hier)) ∧
    (s.slotOf tid = none →
      (s.mayArrive (.routerPauseNotice tid) = true →
        exec (.routerPauseNotice tid) s = .next (s.arrive (.routerPauseNotice tid))) ∧
      (s.mayArrive (.routerRecordRequest tid) = true →
        exec (.routerRecordRequest tid) s = .next (s.arrive (.routerRecordRequest tid))) ∧
      (∀ c, c < 576 → s.mayArrive (.pauseNoticeCore c tid) = true →
        exec (.pauseNoticeCore c tid) s = .next (s.arrive (.pauseNoticeCore c tid))) ∧
      ∀ u, unitOk u = true → s.mayArrive (.pauseNoticeEngine u tid) = true →
        exec (.pauseNoticeEngine u tid) s = .next (s.arrive (.pauseNoticeEngine u tid))) ∧
    ∀ x owing since, s.slotOf tid = some (m, x) → s.slot m = x → x.phase = .pause owing since →
      let cs := (List.range 576).filter fun c => s.coreEnabled c && s.residentOf c == tid
      (s.mayArrive (.routerPauseNotice tid) = true → ∃ u, exec (.routerPauseNotice tid) s = .next u ∧ u.router.paused = s.router.paused.filter (· != tid) ++ [tid] ∧
        (u.slot m).phase = .pause (owing.filter (· != 2048) ++ cs) since ∧
        u.inflight = s.inflight.erase (.routerPauseNotice tid) ++ cs.map fun c => .pauseNoticeCore c tid) ∧
      (∀ c, c < 576 → s.mayArrive (.pauseNoticeCore c tid) = true →
        let s1 := s.arrive (.pauseNoticeCore c tid)
        (s.unitFenced c = true ∨ s.coreEnabled c = false ∨ (s.dom c).st = .off →
          exec (.pauseNoticeCore c tid) s = .next (s1.send (.pausedNotice c tid))) ∧
        (s.unitFenced c = false → s.coreEnabled c = true → (s.dom c).st = .run → (s.dom (uncoreDomain (c / 48))).st = .run →
          ((s.core c).tid ≠ tid → exec (.pauseNoticeCore c tid) s = .next (s1.send (.pausedNotice c tid))) ∧
          ((s.core c).run = .running ∨ (s.core c).run = .wfi → (s.core c).tid = tid → swPl (s.core c).sw < 2 →
            swEm (s.core c).sw = false → (s.core c).stall = .none → (s.core c).sb = [] → s.msgUnderWay tid = false →
            s.logRoom 512 = true →
            ∃ u, exec (.pauseNoticeCore c tid) s = .next u ∧
              u.core c = { s.core c with before := (s.core c).run, run := .paused } ∧
              (u.slot m).records = x.records ++ [(u.core c).record c]))) ∧
      ∀ u, unitOk u = true → s.mayArrive (.pauseNoticeEngine u tid) = true →
        let s1 := s.arrive (.pauseNoticeEngine u tid)
        let done := Instr.pausedNotice (1024 + u) tid
        (s.isFenced (unitDomain u) = true ∨ s.domEnabled (unitDomain u) = false ∨ (s.dom (unitDomain u)).st = .off →
          exec (.pauseNoticeEngine u tid) s = .next (s1.send done)) ∧
        (s.isFenced (unitDomain u) = false → s.domEnabled (unitDomain u) = true → (s.dom (unitDomain u)).st = .run →
          u < 0x10 ∨ 0x12 ≤ u → (s1.pauseEngine u tid).tenantWork u tid = false → s1.msgUnderWay tid = false →
          s.logRoom 0 = true → exec (.pauseNoticeEngine u tid) s = .next ((s1.pauseEngine u tid).send done))

/-- The last paused notice asks for the router's record; that record starts the seal; the last sealed notice ends the pause and
opens the next epoch; after 1 ms the boundary is abandoned, counted, and begun again 100 µs later. -/
def Claims.BoundaryRecords : Prop :=
  ∀ (m : Nat) (tid : BitVec 12) (x : Slot) (s : State), m < 128 →
    s.slotOf tid = some (m, x) → s.slot m = x → tid = x.tid →
    (∀ u owing since, pausedOk u = true → x.phase = .pause owing since → s.mayArrive (.pausedNotice u tid) = true →
      let s1 (p : Phase) : State := (s.arrive (.pausedNotice u tid)).setSlot m { x with
        phase := p, pausedUnits := insertNew x.pausedUnits u }
      ((owing.filter (· != u)) ≠ [] →
        exec (.pausedNotice u tid) s = .next (s1 (.pause (owing.filter (· != u)) since))) ∧
      ((owing.filter (· != u)) = [] →
        exec (.pausedNotice u tid) s = .next ((s1 (.record since)).send (.routerRecordRequest tid)))) ∧
    (∀ since, x.phase = .record since →
      let bs := s.bases.filter fun n => !s.fc.lost.contains n
      (s.mayArrive (.pausedNotice 2048 tid) = true → exec (.pausedNotice 2048 tid) s = .next (((s.arrive (.pausedNotice 2048 tid)).setSlot m { x with
        phase := .seal bs, walked := [] }).sendAll (bs.map fun n => .sealNotice n tid))) ∧
      (s.mayArrive (.routerRecordRequest tid) = true →
        let s1 := s.arrive (.routerRecordRequest tid)
        (s.router.posts.any (fun p => p.tid == tid) = true →
          exec (.routerRecordRequest tid) s = .next (s1.send (.routerRecordRequest tid))) ∧
        (s.router.posts = [] → s.logRoom 512 = true →
          (s.pitEn = true → exec (.routerRecordRequest tid) s = .next (s1.startRead routerNode tid (s.tenantCls tid)
            (.routerRecord tid) (chunksOf (s.pitBase + 512 * tid.toNat) 512))) ∧
          (s.router.held = [] → s.pitEn = false → ∃ u, exec (.routerRecordRequest tid) s = .next u ∧
            (u.slot m).records = x.records ++ [routerRecord tid []])))) ∧
    (∀ owing n, x.phase = .seal owing → n < 4 →
      (s.mayArrive (.sealNotice n tid) = true →
        (owing.contains n = false → exec (.sealNotice n tid) s = .next (s.arrive (.sealNotice n tid))) ∧
        (owing.contains n = true → x.walked.contains n = true →
          (s.sealing n = true → exec (.sealNotice n tid) s = .next ((s.arrive (.sealNotice n tid)).send (.sealNotice n tid))) ∧
          (s.sealing n = false → exec (.sealNotice n tid) s = .next
            (((s.arrive (.sealNotice n tid)).setSlot m { x with sealed := insertNew x.sealed n }).send (.sealedNotice n tid)))) ∧
        (owing.contains n = true → x.walked.contains n = false →
          let u := (s.arrive (.sealNotice n tid)).walkSeal m n x
          (u.sealing n = true → exec (.sealNotice n tid) s = .next (u.send (.sealNotice n tid))) ∧
          (u.sealing n = false → exec (.sealNotice n tid) s = .next
            ((u.setSlot m { u.slot m with sealed := insertNew (u.slot m).sealed n }).send (.sealedNotice n tid))))) ∧
      (s.mayArrive (.sealedNotice n tid) = true →
        (owing.filter (· != n) ≠ [] → exec (.sealedNotice n tid) s =
          .next ((s.arrive (.sealedNotice n tid)).setSlot m { x with phase := .seal (owing.filter (· != n)) })) ∧
        (owing.filter (· != n) = [] → exec (.sealedNotice n tid) s =
          .next (((s.arrive (.sealedNotice n tid)).setSlot m { x with phase := .seal [] }).resumeTenant m)))) ∧
    (s.mirrorRuns = true → (x.phase = .none → exec (.boundaryAbandon m) s = .next s ∧ exec (.boundaryRetry m) s = .next s) ∧
      (∀ owing t, x.phase = .pause owing t →
        (s.now < t + 1000000 → exec (.boundaryAbandon m) s = .next s) ∧
        (t + 1000000 ≤ s.now → ∃ u, exec (.boundaryAbandon m) s = .next u ∧ (u.slot m).phase = .retry (u.now + 100000))) ∧
      ∀ t, x.phase = .retry t → (s.now < t → exec (.boundaryRetry m) s = .next s) ∧
        (t ≤ s.now → s.mayBound m = true → exec (.boundaryRetry m) s = .next (s.startBoundary m)))

/-- With nothing being captured, a read under way or no room in the log nothing is read, else the next line is; a poisoned line
halts the stream, any other is batched and the walk goes on behind it. The standby applies the next epoch it has whole, and nothing twice. -/
def Claims.CaptureAndApply : Prop :=
  ∀ (m : Nat) (s : State), m < 128 →
    ((s.slot m).capture = none → exec (.captureRead m) s = .next s) ∧
    ((s.slot m).st ≠ .standby ∨ (s.slot m).ended ≤ (s.slot m).applied → exec (.epochApply m) s = .next s) ∧
    (∀ x k base len track, s.slot m = x → x.capture = some (k, 0, 0) → x.ranges = [(base, len, track)] → x.full = true →
      128 ≤ len → s.mirrorRuns = true → s.mirror.st = 2 → s.mirror.leaving = none → x.held = [] → x.batch = [] →
      (s.capturing m = true ∨ s.logRoom (512 * x.records.length + 16384) = false → exec (.captureRead m) s = .next s) ∧
      (s.capturing m = false → s.logRoom (512 * x.records.length + 16384) = true → exec (.captureRead m) s =
        .next (s.startRead mirrorNode x.tid (s.tenantCls x.tid) (.capture m k 0 0) [(base, 64)]))) ∧
    (∀ (h : Hdr) (line k n i : Nat) (d : LineData) (r : Reader) (s1 : State), r.why = .capture m k n i →
      let x := s1.slot m
      (∀ pa, s.ReadFails h line d r 0 pa s1 → exec (.curdata h line d) s = .next (s1.haltSlot m pa)) ∧
      (s.ReadEnds h line d r s1 →
        (x.capture = none → exec (.curdata h line d) s = .next s1) ∧
        ∀ a b, x.capture = some (k, a, b) → x.batch.length < 127 → exec (.curdata h line d) s = .next (s1.setSlot m { x with
          batch := x.batch ++ [leBytes 8 (n * 2 ^ 60 + 64 * i) ++ r.got], capture := some (k, n, i + 1) }))) ∧
    ∀ x, s.slot m = x → x.st = .standby → x.applied + 1 ≤ x.ended → s.mirrorRuns = true → s.writers = [] →
      (x.applyWrites (x.applied + 1) = [] → exec (.epochApply m) s = .next (s.applyDone m (x.applied + 1))) ∧
      (x.applyWrites (x.applied + 1) ≠ [] → exec (.epochApply m) s = .next
        (s.startWrite mirrorNode x.tid (s.tenantCls x.tid) (.apply m (x.applied + 1)) (x.applyWrites (x.applied + 1))))

/-- Boundaries, pauses, seals, capture and application of epochs: Claims.EpochBoundary and Claims.BoundaryRecords and Claims.CaptureAndApply. -/
def Obligations.Epochs : Prop := Claims.EpochBoundary ∧ Claims.BoundaryRecords ∧ Claims.CaptureAndApply

/-! ### The Sequencer -/

/-- A row is performed only while the Sequencer stands at a row of its ACTION that has not begun. A wrong target fails the row,
a die or tile that is not enabled completes it, a fenced target fails every row but FENCE and UNFENCE. NOP and SIGNAL do
nothing at their target. -/
def Claims.RowsStart : Prop :=
  ∀ (l : BitVec 4) (b : Bool) (s : State), s.seq.writes = [] →
    let rows : List (Instr × Nat) := [(.rowNop, 0), (.rowWriteReg, 1), (.loadSection, 2), (.powerOn, 3), (.powerOff, 4),
      (.retain, 5), (.restore, 6), (.resetAssert, 7), (.rowResetRelease, 8), (.drain, 9), (.rowFence, 0xA), (.unfence, 0xB),
      (.avsSet, 0xC), (.linkTrain l, 0xD), (.bist b, 0xE), (.selfRefreshEnter, 0xF), (.selfRefreshExit, 0x10), (.signal, 0x11)]
    (s.curRow = none → (∀ p ∈ rows, exec p.1 s = .next s) ∧
      ∀ i ∈ ([.rowCall, .skipIf, .rowEnd, .rowWaitMet, .rowWaitFailed] : List Instr), exec i s = .next s) ∧
    ∀ c r, s.AtRow c r →
      exec .rowWaitMet s = .next s ∧ exec .rowWaitFailed s = .next s ∧
      ∀ p ∈ rows,
        (c.row.action ≠ p.2 → exec p.1 s = .next s) ∧
        (c.row.action = p.2 →
          (s.rowTarget c = .bad → exec p.1 s = .next (s.rowFail c 0)) ∧
          (s.rowTarget c = .nop → exec p.1 s = .next (s.rowDone c 0)) ∧
          ∀ cls die unit rail, s.rowTarget c = .ok cls die unit rail →
            (p.2 ≠ 0xA → p.2 ≠ 0xB → s.targetFenced cls die unit = true → exec p.1 s = .next (s.rowFail c 0)) ∧
            (s.targetFenced cls die unit = false →
              (p = (.rowNop, 0) → c.row.wait = 0 → exec .rowNop s = .next (s.rowDone c 0)) ∧
              (p = (.rowNop, 0) → c.row.wait ≠ 0 → c.row.wait ≠ 8 → exec .rowNop s = .next (s.rowWaits r 1)) ∧
              (p = (.rowNop, 0) → c.row.wait = 8 →
                exec .rowNop s = .next ((s.rowWaits r 1).askSleep (fld c.row.arg 0 16))) ∧
              (p = (.signal, 0x11) → c.row.wait = 0 → exec .signal s = .next (s.rowDone c 0)) ∧
              (p = (.signal, 0x11) → c.row.wait ≠ 0 → c.row.wait ≠ 8 → exec .signal s = .next (s.rowWaits r 1)) ∧
              (p = (.signal, 0x11) → c.row.wait = 8 →
                exec .signal s = .next ((s.rowWaits r 1).askSleep (fld c.row.arg 0 16)))))

/-- In a row with a wait, at a target of one domain that is not an uncore: at a domain that is still at work on an action, or
has one waiting, the action waits behind it (R19, R57); at any other, what each action does in each state of the domain. -/
def Claims.DomainRows : Prop :=
  ∀ (c : RowAt) (r : SeqRun) (cls die unit rail d : Nat) (x : Dom) (s : State), s.AtRow c r →
    s.rowTarget c = .ok cls die unit rail → s.targetFenced cls die unit = false → s.targetDomains cls die unit = [d] →
    s.dom d = x → d < 672 ∨ (684 ≤ d ∧ d < 712) → s.power.asleep = [] → c.row.wait ≠ 0 → c.row.wait ≠ 8 →
    (x.st = .closing ∨ x.st = .waking ∨ (x.st = .run ∧ (x.drainSince.isSome = true ∨ x.todo ≠ [])) →
      let u : State := (s.setDom d { x with todo := x.todo ++ [c.row.action] }).rowWaits r 0
      (c.row.action = 3 → exec .powerOn s = .next u) ∧ (c.row.action = 4 → exec .powerOff s = .next u) ∧
      (c.row.action = 5 → exec .retain s = .next u) ∧ (c.row.action = 6 → exec .restore s = .next u) ∧
      (c.row.action = 7 → exec .resetAssert s = .next u) ∧ (c.row.action = 8 → exec .rowResetRelease s = .next u) ∧
      (c.row.action = 9 → exec .drain s = .next u)) ∧
    (x.st ≠ .closing → x.st ≠ .waking → x.drainSince = none → x.todo = [] →
      (c.row.action = 3 →
        (x.st = .off → s.portOff d = true → exec .powerOn s = .next (s.rowWaits r 0)) ∧
        (x.st = .off → s.portOff d = false → exec .powerOn s = .next ((s.setDom d { x with
          st := .run, inReset := decide (d < 576), stopped := false, stale := [], req := 0 }).rowWaits r 0)) ∧
        (x.st = .run → exec .powerOn s = .next (s.rowWaits r 0)) ∧
        (x.st = .retained → exec .powerOn s = .next ((s.startWake d).rowWaits r 0))) ∧
      (c.row.action = 4 →
        (x.st = .off → exec .powerOff s = .next (s.rowWaits r 0)) ∧
        (x.st = .retained → exec .powerOff s = .next (((s.setDom d { x with req := 3 }).startWake d).rowWaits r 0)) ∧
        (x.st = .run → x.inReset = false → 684 ≤ d → exec .powerOff s = .next
          ((s.setDom d { x with st := .closing, retain := false, drainSince := some s.now }).rowWaits r 0))) ∧
      (c.row.action = 5 →
        (x.st = .off → exec .retain s = .next (s.rowWaits r 2)) ∧
        (x.st = .retained → exec .retain s = .next (s.rowWaits r 0)) ∧
        (x.st = .run → x.inReset = false → d < 576 ∨ 684 ≤ d → exec .retain s = .next
          ((s.setDom d { x with st := .closing, retain := true, drainSince := some s.now }).rowWaits r 0))) ∧
      (c.row.action = 6 →
        (x.st = .retained → exec .restore s = .next ((s.startWake d).rowWaits r 0)) ∧
        (x.st = .run → x.stopped = false → exec .restore s = .next (s.rowWaits r 0)) ∧
        (x.st = .run → x.stopped = true → x.inReset = false → x.held = [] → x.stale = [] → exec .restore s = .next
          ((s.setDom d { x with stopped := false, resetting := false, drainSince := none }).rowWaits r 0))) ∧
      (c.row.action = 7 →
        (x.st = .off → exec .resetAssert s = .next (s.rowWaits r 0)) ∧
        (x.st = .run → x.inReset = false → 684 ≤ d → exec .resetAssert s = .next
          ((s.setDom d { x with stopped := true, resetting := true, drainSince := some s.now }).rowWaits r 0))) ∧
      (c.row.action = 8 →
        (x.st ≠ .run ∨ x.inReset = false → exec .rowResetRelease s = .next (s.rowWaits r 0)) ∧
        (x.st = .run → x.inReset = true → 576 ≤ d → x.held = [] → exec .rowResetRelease s = .next ((s.setDom d { x with
          inReset := false, stopped := false, resetting := false }).rowWaits r 0))) ∧
      (c.row.action = 9 →
        (x.st ≠ .run ∨ x.inReset = true → exec .drain s = .next (s.rowWaits r 0)) ∧
        (x.st = .run → x.inReset = false → d < 576 ∨ 696 ≤ d → exec .drain s = .next ((s.setDom d { x with
          stopped := true, resetting := false, drainSince := some s.now }).rowWaits r 0))))

/-- In a row with a wait: the register write answers as its target does; a section is counted as loaded; a fence is placed once
and lifted unless a loss placed it; a voltage is asked for; links, tests and self-refresh end as the row says: a training in
which nothing is trained fails a LINK_UP wait. -/
def Claims.OtherRows : Prop :=
  ∀ (c : RowAt) (r : SeqRun) (cls die unit rail : Nat) (s : State), s.AtRow c r →
    s.rowTarget c = .ok cls die unit rail → c.row.wait ≠ 0 → c.row.wait ≠ 8 →
    (s.targetFenced cls die unit = false →
      (c.row.action = 1 →
        let p := s.cfgPlace cls die unit (fld c.row.operand 0 28)
        let a := s.cfgAccess p.1 p.2 (some c.row.value)
        a.2.seq.run = some r →
          (a.1.1 = 0 → exec .rowWriteReg s = .next (a.2.rowWaits r 1)) ∧
          (a.1.1 ≠ 0 → a.1.1 ≠ 4 → exec .rowWriteReg s = .next (a.2.rowWaits r 2))) ∧
      (∀ ty, c.row.action = 2 → fld c.row.operand 0 16 = ty → ty = secGlobal ∨ ty = secHome → exec .loadSection s =
        .next (({ s with seq := { s.seq with sections := insertNew s.seq.sections ty } } : State).rowWaits r 1)) ∧
      (c.row.action = 2 → fld c.row.operand 0 16 = secTenant → cls = 0 → unit = 3 → exec .loadSection s =
        .next (({ s with
          seq := { s.seq with sections := insertNew s.seq.sections secTenant },
          router := { s.router with pitBase := BitVec.ofNat 64 (s.img secTenant 8 8 0), tenants := [] } } : State).rowWaits r 1)) ∧
      (c.row.action = 0xC → c.row.wait = 5 →
        let t := (s.setRail rail { s.rail rail with setMv := fld c.row.value 0 16 }).avsAsk rail (fld c.row.value 0 16) c.row.limit true
        t.seq.run = some r → exec .avsSet s = .next (t.rowWaits r 0)) ∧
      (∀ l : BitVec 4, c.row.action = 0xD → cls = 0 → unit = 0x17 → c.row.wait = 6 →
        let t := s.modGuest fun g => { g with modules := l, up := l != 0 }
        ((l ≠ 0 ↔ s.img secDieMap 1 1 0 = 1) → exec (.linkTrain l) s = .next (t.rowWaits r 1)) ∧
        (¬(l ≠ 0 ↔ s.img secDieMap 1 1 0 = 1) → exec (.linkTrain l) s = .next (t.rowWaits r 2))) ∧
      (∀ l : BitVec 4, c.row.action = 0xD →
        let ended := if c.row.wait = 6 ∧ l = 0 then 2 else 1
        (cls = 0 → 8 ≤ unit → unit < 0x10 →
          (s.portRole (unit - 8) = 0 → exec (.linkTrain l) s = .next (s.rowWaits r 1)) ∧
          (s.portRole (unit - 8) ≠ 0 → s.board.clocks.contains 1 = true → exec (.linkTrain l) s = .next (s.rowWaits r 0)) ∧
          (s.portRole (unit - 8) ≠ 0 → s.board.clocks.contains 1 = false →
            exec (.linkTrain l) s = .next ((if l = 0 then s else s.trainPort (unit - 8)).rowWaits r ended))) ∧
        (cls ≠ 0 ∨ unit < 8 ∨ 0x18 ≤ unit → exec (.linkTrain l) s = .next (s.rowWaits r ended))) ∧
      (c.row.action = 0xE → c.row.wait = 7 → exec (.bist true) s = .next (s.rowWaits r 1) ∧
        exec (.bist false) s = .next (s.rowWaits r 2)) ∧
      (c.row.action = 0xF → cls = 3 → exec .selfRefreshEnter s =
        .next ((s.setMc die { s.mc die with selfRefresh := true }).rowWaits r 1)) ∧
      (c.row.action = 0x10 → cls = 3 → exec .selfRefreshExit s =
        .next ((s.setMc die { s.mc die with selfRefresh := false }).rowWaits r 1))) ∧
    ∀ u, s.targetFence cls die unit = some u →
      (c.row.action = 0xA →
        (s.isFenced u = true → exec .rowFence s = .next (s.rowWaits r 1)) ∧
        ((s.fenceUnit u).seq.run = some r → s.isFenced u = false →
          exec .rowFence s = .next ((s.fenceUnit u).rowWaits r 0))) ∧
      (c.row.action = 0xB → 696 ≤ u → u < 712 → exec .unfence s = .next (({ s with
        fenced := s.fenced.filter (· != u), fc := { s.fc with done := s.fc.done.filter (· != u) } } : State).rowWaits r 1)) ∧
      (c.row.action = 0xB → 684 ≤ u → u < 696 → s.fc.lost.contains ((u - 684) / 3) = true →
        exec .unfence s = .next (s.rowWaits r 1))

/-- When a row starts, and what its action does at its target: Claims.RowsStart and Claims.DomainRows and Claims.OtherRows. -/
def Obligations.SequencerRows : Prop := Claims.RowsStart ∧ Claims.DomainRows ∧ Claims.OtherRows

/-- CALL pushes the named table with its parameter; SKIP_IF skips, goes on or fails by what it reads; END ends the outermost
table; a TIME wait is met when its limit has passed and never fails; a DRAINED wait fails then; a request for a table waits
behind one that runs, with the parameter that its purpose takes, and begins when none does. -/
def Obligations.RowControl : Prop :=
  ∀ (s : State), s.seq.writes = [] →
    (∀ c r, s.AtRow c r → r.unwinding = none →
      (∀ t, c.row.action = 0x12 → c.im.tableOf (fld c.row.operand 0 8) = some t → exec .rowCall s = .next (s.putRun { r with
        stack := ⟨t, (c.im.tableAt t).first, fld c.row.operand 8 16⟩ :: r.stack })) ∧
      (c.row.action = 0x13 →
        (s.rowTarget c = .nop → exec .skipIf s = .next (s.rowDone c 0)) ∧
        ∀ cls die unit rail, s.rowTarget c = .ok cls die unit rail →
          (s.targetFenced cls die unit = true → exec .skipIf s = .next (s.rowFail c 0)) ∧
          (s.targetFenced cls die unit = false → ∀ t,
            (s.bitEq c.row cls die unit = (some (true, true), t) →
              exec .skipIf s = .next (t.rowDone c (fld c.row.operand 0 16))) ∧
            (s.bitEq c.row cls die unit = (some (true, false), t) → exec .skipIf s = .next (t.rowDone c 0)) ∧
            (∀ b, s.bitEq c.row cls die unit = (some (false, b), t) → exec .skipIf s = .next (t.rowFail c 0)) ∧
            (s.bitEq c.row cls die unit = (none, t) → exec .skipIf s =
              .next (t.putRun { r with waiting := true, since := t.now, outcome := 0 })))) ∧
      (∀ r', c.row.action = 0x14 → (s.rowDone c 0).seq.run = some r' → r'.stack.length = 1 →
        exec .rowEnd s = .next ((s.rowDone c 0).seqEnd true))) ∧
    (∀ c r cls die unit rail, s.seq.run = some r → s.curRow = some c → r.waiting = true → c.row.action ≠ 0x13 →
      s.rowTarget c = .ok cls die unit rail →
      (∀ i ∈ ([.rowNop, .signal, .rowCall, .skipIf, .rowEnd] : List Instr), exec i s = .next s) ∧
      (c.row.wait = 1 → r.outcome = 1 → exec .rowWaitMet s = .next (s.rowDone c 0) ∧ exec .rowWaitFailed s = .next s) ∧
      (c.row.wait = 4 → exec .rowWaitFailed s = .next s ∧
        (s.now < r.since + c.row.limit → exec .rowWaitMet s = .next s) ∧
        (r.since + c.row.limit ≤ s.now → exec .rowWaitMet s = .next (s.rowDone c 0))) ∧
      (c.row.wait = 3 →
        (s.now < r.since + c.row.limit → exec .rowWaitFailed s = .next s) ∧
        (r.since + c.row.limit ≤ s.now → exec .rowWaitFailed s = .next (s.rowFail c 0))) ∧
      (c.row.wait = 7 →
        (r.outcome = 1 → exec .rowWaitMet s = .next (s.rowDone c 0) ∧ exec .rowWaitFailed s = .next s) ∧
        (r.outcome = 2 → exec .rowWaitMet s = .next s ∧ exec .rowWaitFailed s = .next (s.rowFail c 0)))) ∧
    ∀ p q, 1 ≤ p → p < 0x40 →
      let s1 := s.arrive (.seqTableRequest p q)
      (∀ r, s.seq.run = some r → r.unwinding = none →
        (s.inflight.contains (.seqTableRequest p q) = true → exec (.seqTableRequest p q) s = .next s1) ∧
        (s.inflight.contains (.seqTableRequest p q) = false → headPurpose p = false → s.seq.queue.length < s.queueLimit →
          exec (.seqTableRequest p q) s = .next ((({ s with seq := { s.seq with
            queue := s.seq.queue ++ [⟨p, runParam p q, 0⟩] } } : State).send (.seqTableRequest p (runParam p q))).arrive
            (.seqTableRequest p q)))) ∧
      (s.seq.run = none → s.inflight.contains (.seqTableRequest p q) = true → s.seq.head = [] →
        (s.seq.queue = [] → exec (.seqTableRequest p q) s = .next s1) ∧
        ∀ q' rest im t, s.seq.queue = q' :: rest → s.seq.active = some im → im.tableOf q'.purpose = some t →
          0x10 ≤ q'.purpose → ∃ u, exec (.seqTableRequest p q) s = .next u ∧ u.seq.queue = rest ∧
            u.seq.res = s.seq.res.accept ∧ u.seq.run = some {
              req := q', stack := [⟨t, (im.tableAt t).first, q'.param⟩], undo := [], rows := 0, committed := false,
              waiting := false, since := s.now, outcome := 0, unwinding := none, badUndo := none, failure := 0,
              failRow := 0 } ∧ u.cores = s.cores ∧ u.hier = s1.hier)

/-! ### Brixmen -/

/-- A query is answered once, with its payload, and changes no result; READ_REG of a register at once, but again while a door
answers RETRY, of memory when its read has ended. Without a request of its OP a row changes nothing. -/
def Claims.BrixmenQueries : Prop :=
  (∀ (s : State), ∀ p ∈ ([(.getResult, 1), (.getStatus, 2), (.readReg, 3), (.readPlog, 4), (.getAttestKey, 5), (.imageStart, 0x101),
      (.imageData, 0x102), (.imageCommit, 0x103), (.runTable, 0x104), (.setPkgState, 0x105), (.resetFull, 0x106),
      (.resetComputeDie, 0x106), (.resetCore, 0x106), (.resetCold, 0x106), (.writeReg, 0x107), (.provisionKey, 0x108),
      (.raiseFloor, 0x109), (.setPairing, 0x10A), (.plogAck, 0x10B), (.setMkey, 0x10C), (.subscribe, 0x10D),
      (.setNet, 0x10E)] : List (Instr × Nat)), (∀ r ∈ s.mgmt.accepted, r.op ≠ p.2) → exec p.1 s = .next s) ∧
  ∀ (r : MReq) (rest : List MReq) (s : State), s.mgmt.accepted = r :: rest →
    let t : State := { s with mgmt := { s.mgmt with accepted := rest } }
    (r.op = 1 → s.mgmt.res.status.toNat < 2 → exec .getResult s = .next (t.answerQuery r [])) ∧
    (r.op = 1 → 2 ≤ s.mgmt.res.status.toNat → exec .getResult s = .next
      (t.answerQuery r ((Config.resultRecord s.mgmt.res.seq.toNat s.mgmt.res.word).take 1024))) ∧
    (r.op = 2 → ∃ b : List Byte, b.length = 48 ∧ ofBytes 64 ((b.drop 16).take 8) = s.pairStatus ∧
      exec .getStatus s = .next (t.answerQuery r b)) ∧
    (r.op = 3 →
      let pa := leAt r.payload 0 8 % 2 ^ 52
      (pa % 8 ≠ 0 → exec .readReg s = .next (t.answerReg r 2 0)) ∧
      (pa % 8 = 0 → isDevice pa = true → isGuestWindow pa = false →
        (∀ e v a u, s.stewardReg r pa none = (some (e, v), a, u) → exec .readReg s = .next
          (({ u with mgmt := { u.mgmt with accepted := rest } } : State).answerReg r e v)) ∧
        ∀ a u, s.stewardReg r pa none = (none, a, u) → exec .readReg s = .next
          { u with mgmt := { u.mgmt with accepted := { r with since := a } :: rest } }) ∧
      (pa % 8 = 0 → isDevice pa = false ∨ isGuestWindow pa = true →
        exec .readReg s = .next (t.startRead stewardNode 0 0 (.steward r) [(pa, 8)]))) ∧
    (∀ h line d u s1, s.ReadEnds h line d u s1 → u.why = .steward r →
      exec (.curdata h line d) s = .next (s1.answerReg r 0 (ofBytes 64 u.got))) ∧
    (∀ k, r.op = 4 → leAt r.payload 0 1 = k → leAt r.payload 1 1 = 1 → k < 256 → exec .readPlog s = .next (t.answerQuery r
      (toBytes (((tfind? s.fc.plog k).map (·.data)).getD 0) 16))) ∧
    (r.op = 5 → exec .getAttestKey s =
      .next (t.answerQuery r (ptBytes (ptMul 384 (Config.attestKey.toNat % n384) g384))))

/-- START opens an empty transfer; DATA places its bytes within 4 MiB of an open one; COMMIT closes it and reports what the
checks found; a provisioned key and the floor change once and upward only. A payload too long fails FIELD_INVALID. -/
def Claims.ImageCommands : Prop :=
  ∀ (r : MReq) (rest : List MReq) (s : State), s.mgmt.accepted = r :: rest →
    let t : State := { s with mgmt := { s.mgmt with accepted := rest } }
    (∀ p ∈ ([(.imageStart, 0x101), (.imageData, 0x102), (.imageCommit, 0x103), (.runTable, 0x104), (.setPkgState, 0x105),
        (.resetFull, 0x106), (.writeReg, 0x107), (.provisionKey, 0x108), (.raiseFloor, 0x109), (.setPairing, 0x10A),
        (.plogAck, 0x10B), (.setMkey, 0x10C), (.subscribe, 0x10D), (.setNet, 0x10E)] : List (Instr × Nat)),
      r.op = p.2 → 1032 < r.payload.length → exec p.1 s = .next (t.cmdFail codeFieldInvalid 0)) ∧
    (r.op = 0x101 → r.payload = [] → exec .imageStart s = .next
      (({ t with seq := { s.seq with staging := ⟨0, []⟩, open_ := true } } : State).cmdDone 0)) ∧
    (r.op = 0x102 → 8 ≤ r.payload.length → r.payload.length ≤ 1032 →
      let n := r.payload.length - 8
      let o := leAt r.payload 0 8
      (n = 0 → exec .imageData s = .next (t.cmdDone 0)) ∧
      (n ≠ 0 → s.seq.open_ = false → exec .imageData s = .next (t.cmdFail 0x180 0)) ∧
      (n ≠ 0 → s.seq.open_ = true → 2 ^ 22 < o + n → exec .imageData s = .next (t.cmdFail codeLengthRange 0)) ∧
      (n ≠ 0 → s.seq.open_ = true → o + n ≤ 2 ^ 22 → exec .imageData s = .next
        (({ t with seq := { s.seq with staging := s.seq.staging.place o (r.payload.drop 8) } } : State).cmdDone n))) ∧
    (r.op = 0x103 → r.payload.length = 8 →
      (s.seq.open_ = false → exec .imageCommit s = .next (t.cmdFail 0x180 0)) ∧
      (∀ code detail, s.seq.open_ = true → code < 65536 → detail < 65536 →
        ({ t with seq := { s.seq with open_ := false, load := s.seq.load.accept } } : State).imageBad s.seq.staging
          (leAt r.payload 0 8) = some (code, detail) →
        exec .imageCommit s = .next (({ t with seq := { s.seq with
          open_ := false, load := s.seq.load.accept.fail code detail } } : State).cmdFail code detail)) ∧
      (s.seq.open_ = true → s.seq.active.isSome = true →
        ({ t with seq := { s.seq with open_ := false, load := s.seq.load.accept } } : State).imageBad s.seq.staging
          (leAt r.payload 0 8) = none →
        exec .imageCommit s = .next (({ t with seq := { s.seq with
          open_ := false, pending := some { s.seq.staging with len := leAt r.payload 0 8 },
          load := s.seq.load.accept.done 2 } } : State).cmdDone 2))) ∧
    (r.op = 0x108 → r.payload.length = 48 →
      (s.seq.operator.isSome = true → exec .provisionKey s = .next (t.cmdFail 0x181 0)) ∧
      (s.seq.operator = none → exec .provisionKey s = .next
        (({ t with seq := { s.seq with operator := some (ofBytes 384 r.payload) } } : State).cmdDone 0))) ∧
    (r.op = 0x109 → r.payload.length = 8 → zeroBytes r.payload 4 4 = true →
      let n := leAt r.payload 0 4
      (n < s.seq.floor.toNat → exec .raiseFloor s = .next (t.cmdFail 0x182 0)) ∧
      (s.seq.floor.toNat ≤ n → exec .raiseFloor s = .next
        (({ t with seq := { s.seq with floor := BitVec.ofNat 32 n } } : State).cmdDone n)))

/-- Brixmen queries, and the image, key and floor commands: Claims.BrixmenQueries and Claims.ImageCommands. -/
def Obligations.ImagesAndQueries : Prop := Claims.BrixmenQueries ∧ Claims.ImageCommands

/-- Without an image, or in Hold or Off, tables and resets of dies and cores are not permitted; a table that the image lacks, an
absent core or die and a wrong target fail; a misaligned register address fails; the rest is asked for. -/
def Claims.PackageCommands : Prop :=
  ∀ (r : MReq) (rest : List MReq) (s : State), s.mgmt.accepted = r :: rest →
    let t : State := { s with mgmt := { s.mgmt with accepted := rest } }
    let b := r.payload
    (r.op = 0x104 → b.length = 8 → zeroBytes b 1 1 = true → zeroBytes b 4 4 = true →
      (s.asleepPkg = true → exec .runTable s = .next (t.cmdFail codeNotPermitted 0)) ∧
      (s.asleepPkg = false → leAt b 0 1 < 0x10 ∨ 0x3F < leAt b 0 1 → exec .runTable s = .next (t.cmdFail codeFieldInvalid 0)) ∧
      (∀ im i, s.asleepPkg = false → 0x10 ≤ leAt b 0 1 → leAt b 0 1 ≤ 0x3F → s.seq.active = some im →
        im.tableOf (leAt b 0 1) = some i → s.seq.queue.length < s.queueLimit → exec .runTable s = .next
          (({ t with seq := { s.seq with queue := s.seq.queue ++ [⟨leAt b 0 1, leAt b 2 2, 2⟩] } } : State).send
            (.seqTableRequest (leAt b 0 1) (leAt b 2 2))))) ∧
    (r.op = 0x105 → b.length = 8 → zeroBytes b 1 7 = true →
      (s.pkgBusy = true → exec .setPkgState s = .next (t.cmdFail codePkgStateInvalid 0)) ∧
      (s.pkgBusy = false → leAt b 0 1 < 2 ∨ 3 < leAt b 0 1 → exec .setPkgState s = .next (t.cmdFail codeFieldInvalid 0)) ∧
      (s.pkgBusy = false → leAt b 0 1 = 2 ∨ leAt b 0 1 = 3 → exec .setPkgState s = .next (t.pkgEnter (leAt b 0 1) 2))) ∧
    (r.op = 0x106 → b.length = 8 → zeroBytes b 1 1 = true → zeroBytes b 4 4 = true →
      (leAt b 0 1 = 1 → s.seq.active = none → exec .resetFull s = .next (t.cmdFail codeNotPermitted 0)) ∧
      (leAt b 0 1 = 1 → s.seq.active.isSome = true → exec .resetFull s = .next (t.send (.fullReset 2))) ∧
      (leAt b 0 1 = 2 →
        (s.asleepPkg = true → exec .resetComputeDie s = .next (t.cmdFail codeNotPermitted 0)) ∧
        (s.asleepPkg = false → s.resetRefusal 2 (leAt b 2 2) ≠ 0 →
          exec .resetComputeDie s = .next (t.cmdFail (s.resetRefusal 2 (leAt b 2 2)) 0)) ∧
        (s.asleepPkg = false → s.resetRefusal 2 (leAt b 2 2) = 0 →
          exec .resetComputeDie s = .next (t.startReset 2 (leAt b 2 2) 2))) ∧
      (leAt b 0 1 = 3 →
        (s.asleepPkg = true → exec .resetCore s = .next (t.cmdFail codeNotPermitted 0)) ∧
        (s.asleepPkg = false → s.resetRefusal 3 (leAt b 2 2) ≠ 0 →
          exec .resetCore s = .next (t.cmdFail (s.resetRefusal 3 (leAt b 2 2)) 0)) ∧
        (s.asleepPkg = false → s.resetRefusal 3 (leAt b 2 2) = 0 →
          exec .resetCore s = .next (t.startReset 3 (leAt b 2 2) 2))) ∧
      (leAt b 0 1 = 4 → ∃ u, exec .resetCold s = .next u ∧ u.board.cold = true ∧ u.cores = [] ∧ u.qps = [] ∧
        u.mgmt.key = s.mgmt.key ∧ u.seq.active = none)) ∧
    (r.op = 0x107 → b.length = 16 →
      let pa := leAt b 0 8
      (s.asleepPkg = true → alwaysReg pa = false → exec .writeReg s = .next (t.cmdFail codeNotPermitted 0)) ∧
      (s.asleepPkg = false → pa % 8 ≠ 0 → exec .writeReg s = .next (t.cmdFail codeAlign 0)) ∧
      (s.asleepPkg = false → pa % 8 = 0 → isDevice pa = false ∨ isGuestWindow pa = true → exec .writeReg s = .next
        (t.startWrite stewardNode 0 0 .mgmt [(pa, toBytes (ofBytes 64 ((b.drop 8).take 8)) 8)])) ∧
      (s.asleepPkg = false → pa % 8 = 0 → isDevice pa = true → isGuestWindow pa = false →
        (∀ e v a u, t.stewardReg r pa (some (ofBytes 64 ((b.drop 8).take 8))) = (some (e, v), a, u) →
          (e = 0 → exec .writeReg s = .next (u.cmdDone 0)) ∧
          (e ≠ 0 → exec .writeReg s = .next ((u.fault (srcCode 0 0 0) 0x22 none pa).cmdFail 0x183 e))) ∧
        ∀ a u, t.stewardReg r pa (some (ofBytes 64 ((b.drop 8).take 8))) = (none, a, u) → exec .writeReg s = .next
          { u with mgmt := { u.mgmt with accepted := { r with since := a } :: rest } }))

/-- Pairing takes two different domains or is cleared; marked log slots are acknowledged and, with CLEAR, emptied; the new
management key is unmasked; events go to the address given; the port takes its address and prefix. -/
def Claims.BoardCommands : Prop :=
  ∀ (r : MReq) (rest : List MReq) (s : State), s.mgmt.accepted = r :: rest →
    let t : State := { s with mgmt := { s.mgmt with accepted := rest } }
    let b := r.payload
    (r.op = 0x10A → b.length = 8 → zeroBytes b 7 1 = true → s.mirror.st ≠ 2 →
      (leAt b 6 1 = 1 → exec .setPairing s = .next ((t.modMirror fun g => { g with
        st := 0, did := 0, partner := 0, gen := 0, byLoss := false, mac := [], heard := [] }).cmdDone 0)) ∧
      (leAt b 6 1 = 0 → leAt b 0 2 = leAt b 2 2 ∨ 0xFFF < leAt b 0 2 ∨ 0xFFF < leAt b 2 2 →
        exec .setPairing s = .next (t.cmdFail codeFieldInvalid 0)) ∧
      (leAt b 6 1 = 0 → leAt b 0 2 ≠ leAt b 2 2 → leAt b 0 2 ≤ 0xFFF → leAt b 2 2 ≤ 0xFFF → exec .setPairing s =
        .next ((t.modMirror fun g => { g with
          st := 1, did := BitVec.ofNat 12 (leAt b 0 2), partner := BitVec.ofNat 12 (leAt b 2 2),
          gen := BitVec.ofNat 16 (leAt b 4 2), byLoss := false, mac := [], heard := [] }).cmdDone 0))) ∧
    (∀ k e, r.op = 0x10B → b.length = 40 → zeroBytes b 33 7 = true → s.fc.plog = [(k, e)] → k < 256 →
      (leAt b 32 1 = 0 → (ofBytes 256 (b.take 32) : BitVec 256).getLsbD k = true → e.acked = false → exec .plogAck s =
        .next (({ t with fc := { s.fc with plog := [(k, { e with acked := true })] } } : State).cmdDone 1)) ∧
      (leAt b 32 1 = 0 → (ofBytes 256 (b.take 32) : BitVec 256).getLsbD k = false → exec .plogAck s = .next (t.cmdDone 0)) ∧
      (leAt b 32 1 = 1 → e.acked = true → exec .plogAck s =
        .next (({ t with fc := { s.fc with plog := [] } } : State).cmdDone 0))) ∧
    (r.op = 0x10C → b.length = 48 → exec .setMkey s = .next (({ t with mgmt := { t.mgmt with
      key := some (ofBytes 384 (List.zipWith (· ^^^ ·) b (hmac384 s.mkey
        ([0x42, 0x52, 0x49, 0x58, 0x4D, 0x45, 0x4E, 0x2D, 0x52, 0x45, 0x4B, 0x45, 0x59] ++ leBytes 8 r.stamp)))) } } :
        State).cmdDone 0)) ∧
    (r.op = 0x10D → b.length = 8 → zeroBytes b 6 2 = true → exec .subscribe s = .next (({ t with mgmt := { t.mgmt with
      dest := (BitVec.ofNat 32 (leAt b 0 4), leAt b 4 2) } } : State).cmdDone 0)) ∧
    (r.op = 0x10E → b.length = 8 → zeroBytes b 5 3 = true → 8 ≤ leAt b 4 1 → leAt b 4 1 ≤ 30 → exec .setNet s =
      .next (({ t with mgmt := { t.mgmt with ip := BitVec.ofNat 32 (leAt b 0 4), plen := leAt b 4 1 } } : State).cmdDone 0))

/-- Brixmen commands on tables, states, resets, registers, pairing, the log, keys and addresses: Claims.PackageCommands and Claims.BoardCommands. -/
def Obligations.PackageAndBoard : Prop := Claims.PackageCommands ∧ Claims.BoardCommands

/-! ### Rules of the text, word for word -/

/-- From a channel that has accepted nothing, the n-th acceptance gives the 28-bit number n, which after 0xFFFFFFF goes on at 1;
no acceptance of any channel gives 0. Completing a command, as DONE or FAILED, changes no number. -/
def Obligations.ResultNumbers : Prop :=
  (∀ (c : Chan) (n : Nat), c.count = 0 → (Nat.repeat Chan.accept (n + 1) c).count.toNat = n % 0xFFFFFFF + 1) ∧
  (∀ (c : Chan), c.count = 0xFFFFFFF → c.accept.count = 1) ∧ (∀ (c : Chan), c.accept.count ≠ 0) ∧
  ∀ (c : Chan) (v code detail : Nat), (c.done v).count = c.count ∧ (c.fail code detail).count = c.count

/-- After a completed SYNC, an ERET whose checks pass, and every exception entry no window of the core is open; an instruction of
a core without an open window sees SW and every system register as they stand. -/
def Obligations.WindowsEnd : Prop :=
  (∀ (c : Nat) (s s1 : State) (x : Ctx), Fetches c s x s1 →
    ((s1.core c).sb = [] → ∃ u, exec (.sync c 0) s = .next u ∧ (u.core c).win = []) ∧
    (1 ≤ x.pl → swPl ((s1.core c).reg (excBase x.pl + 1)) ≤ x.pl → fld ((s1.core c).reg (excBase x.pl)) 0 2 = 0 →
      ∃ u, exec (.eret c 0) s = .next u ∧ (u.core c).win = [])) ∧
  (∀ (s : State) (g t : Nat) (nested : Bool) (sw : Word) (e : Exc), ((s.enterExc g t nested sw e).core g).win = []) ∧
  ∀ (k : Core) (g : Nat), k.win = [] → (k.ctx g).sw = k.sw ∧ (k.ctx g).sr = k.sr ∧ ∀ r, k.eff r = k.reg r
end

