-- ==== Sys2Proof/Laws/State.lean ====
section
/-! SUPPORT. What each named update of the state leaves as it is: one lemma for each update and each field it does not
write, and what it makes of the field it writes. -/

namespace Sys2Proof.Machine

@[simp] theorem State.setLane_pending (s : State) (l : Nat) (x : Lane) : (s.setLane l x).pending = s.pending := rfl
@[simp] theorem State.setLane_inflight (s : State) (l : Nat) (x : Lane) : (s.setLane l x).inflight = s.inflight := rfl
@[simp] theorem State.setLane_free (s : State) (l : Nat) (x : Lane) : (s.setLane l x).free = s.free := rfl
@[simp] theorem State.setLane_time (s : State) (l : Nat) (x : Lane) : (s.setLane l x).time = s.time := rfl
@[simp] theorem State.setLane_cores (s : State) (l : Nat) (x : Lane) : (s.setLane l x).cores = s.cores := rfl
@[simp] theorem State.setLane_resetEntry (s : State) (l : Nat) (x : Lane) : (s.setLane l x).resetEntry = s.resetEntry := rfl
@[simp] theorem State.setLane_hier (s : State) (l : Nat) (x : Lane) : (s.setLane l x).hier = s.hier := rfl
@[simp] theorem State.setLane_router (s : State) (l : Nat) (x : Lane) : (s.setLane l x).router = s.router := rfl
@[simp] theorem State.setLane_qos (s : State) (l : Nat) (x : Lane) : (s.setLane l x).qos = s.qos := rfl
@[simp] theorem State.setLane_sec (s : State) (l : Nat) (x : Lane) : (s.setLane l x).sec = s.sec := rfl
@[simp] theorem State.setLane_power (s : State) (l : Nat) (x : Lane) : (s.setLane l x).power = s.power := rfl
@[simp] theorem State.setLane_seq (s : State) (l : Nat) (x : Lane) : (s.setLane l x).seq = s.seq := rfl
@[simp] theorem State.setLane_junction (s : State) (l : Nat) (x : Lane) : (s.setLane l x).junction = s.junction := rfl
@[simp] theorem State.setLane_viol (s : State) (l : Nat) (x : Lane) : (s.setLane l x).viol = s.viol := rfl
@[simp] theorem State.setLane_fenced (s : State) (l : Nat) (x : Lane) : (s.setLane l x).fenced = s.fenced := rfl
@[simp] theorem State.setLane_mirror (s : State) (l : Nat) (x : Lane) : (s.setLane l x).mirror = s.mirror := rfl
@[simp] theorem State.setLane_ports (s : State) (l : Nat) (x : Lane) : (s.setLane l x).ports = s.ports := rfl
@[simp] theorem State.setLane_engines (s : State) (l : Nat) (x : Lane) : (s.setLane l x).engines = s.engines := rfl
@[simp] theorem State.setLane_qps (s : State) (l : Nat) (x : Lane) : (s.setLane l x).qps = s.qps := rfl
@[simp] theorem State.setLane_guest (s : State) (l : Nat) (x : Lane) : (s.setLane l x).guest = s.guest := rfl
@[simp] theorem State.setLane_readers (s : State) (l : Nat) (x : Lane) : (s.setLane l x).readers = s.readers := rfl
@[simp] theorem State.setLane_writers (s : State) (l : Nat) (x : Lane) : (s.setLane l x).writers = s.writers := rfl
@[simp] theorem State.setLane_fc (s : State) (l : Nat) (x : Lane) : (s.setLane l x).fc = s.fc := rfl
@[simp] theorem State.setLane_mgmt (s : State) (l : Nat) (x : Lane) : (s.setLane l x).mgmt = s.mgmt := rfl
@[simp] theorem State.setLane_board (s : State) (l : Nat) (x : Lane) : (s.setLane l x).board = s.board := rfl
@[simp] theorem State.setLane_out (s : State) (l : Nat) (x : Lane) : (s.setLane l x).out = s.out := rfl
@[simp] theorem State.modMirror_pending (s : State) (f : Mirror → Mirror) : (s.modMirror f).pending = s.pending := rfl
@[simp] theorem State.modMirror_inflight (s : State) (f : Mirror → Mirror) : (s.modMirror f).inflight = s.inflight := rfl
@[simp] theorem State.modMirror_free (s : State) (f : Mirror → Mirror) : (s.modMirror f).free = s.free := rfl
@[simp] theorem State.modMirror_time (s : State) (f : Mirror → Mirror) : (s.modMirror f).time = s.time := rfl
@[simp] theorem State.modMirror_cores (s : State) (f : Mirror → Mirror) : (s.modMirror f).cores = s.cores := rfl
@[simp] theorem State.modMirror_resetEntry (s : State) (f : Mirror → Mirror) : (s.modMirror f).resetEntry = s.resetEntry := rfl
@[simp] theorem State.modMirror_hier (s : State) (f : Mirror → Mirror) : (s.modMirror f).hier = s.hier := rfl
@[simp] theorem State.modMirror_router (s : State) (f : Mirror → Mirror) : (s.modMirror f).router = s.router := rfl
@[simp] theorem State.modMirror_qos (s : State) (f : Mirror → Mirror) : (s.modMirror f).qos = s.qos := rfl
@[simp] theorem State.modMirror_sec (s : State) (f : Mirror → Mirror) : (s.modMirror f).sec = s.sec := rfl
@[simp] theorem State.modMirror_power (s : State) (f : Mirror → Mirror) : (s.modMirror f).power = s.power := rfl
@[simp] theorem State.modMirror_seq (s : State) (f : Mirror → Mirror) : (s.modMirror f).seq = s.seq := rfl
@[simp] theorem State.modMirror_junction (s : State) (f : Mirror → Mirror) : (s.modMirror f).junction = s.junction := rfl
@[simp] theorem State.modMirror_viol (s : State) (f : Mirror → Mirror) : (s.modMirror f).viol = s.viol := rfl
@[simp] theorem State.modMirror_fenced (s : State) (f : Mirror → Mirror) : (s.modMirror f).fenced = s.fenced := rfl
@[simp] theorem State.modMirror_ports (s : State) (f : Mirror → Mirror) : (s.modMirror f).ports = s.ports := rfl
@[simp] theorem State.modMirror_engines (s : State) (f : Mirror → Mirror) : (s.modMirror f).engines = s.engines := rfl
@[simp] theorem State.modMirror_qps (s : State) (f : Mirror → Mirror) : (s.modMirror f).qps = s.qps := rfl
@[simp] theorem State.modMirror_guest (s : State) (f : Mirror → Mirror) : (s.modMirror f).guest = s.guest := rfl
@[simp] theorem State.modMirror_lanes (s : State) (f : Mirror → Mirror) : (s.modMirror f).lanes = s.lanes := rfl
@[simp] theorem State.modMirror_readers (s : State) (f : Mirror → Mirror) : (s.modMirror f).readers = s.readers := rfl
@[simp] theorem State.modMirror_writers (s : State) (f : Mirror → Mirror) : (s.modMirror f).writers = s.writers := rfl
@[simp] theorem State.modMirror_fc (s : State) (f : Mirror → Mirror) : (s.modMirror f).fc = s.fc := rfl
@[simp] theorem State.modMirror_mgmt (s : State) (f : Mirror → Mirror) : (s.modMirror f).mgmt = s.mgmt := rfl
@[simp] theorem State.modMirror_board (s : State) (f : Mirror → Mirror) : (s.modMirror f).board = s.board := rfl
@[simp] theorem State.modMirror_out (s : State) (f : Mirror → Mirror) : (s.modMirror f).out = s.out := rfl
@[simp] theorem State.setSlot_pending (s : State) (m : Nat) (x : Slot) : (s.setSlot m x).pending = s.pending := rfl
@[simp] theorem State.setSlot_inflight (s : State) (m : Nat) (x : Slot) : (s.setSlot m x).inflight = s.inflight := rfl
@[simp] theorem State.setSlot_free (s : State) (m : Nat) (x : Slot) : (s.setSlot m x).free = s.free := rfl
@[simp] theorem State.setSlot_time (s : State) (m : Nat) (x : Slot) : (s.setSlot m x).time = s.time := rfl
@[simp] theorem State.setSlot_cores (s : State) (m : Nat) (x : Slot) : (s.setSlot m x).cores = s.cores := rfl
@[simp] theorem State.setSlot_resetEntry (s : State) (m : Nat) (x : Slot) : (s.setSlot m x).resetEntry = s.resetEntry := rfl
@[simp] theorem State.setSlot_hier (s : State) (m : Nat) (x : Slot) : (s.setSlot m x).hier = s.hier := rfl
@[simp] theorem State.setSlot_router (s : State) (m : Nat) (x : Slot) : (s.setSlot m x).router = s.router := rfl
@[simp] theorem State.setSlot_qos (s : State) (m : Nat) (x : Slot) : (s.setSlot m x).qos = s.qos := rfl
@[simp] theorem State.setSlot_sec (s : State) (m : Nat) (x : Slot) : (s.setSlot m x).sec = s.sec := rfl
@[simp] theorem State.setSlot_power (s : State) (m : Nat) (x : Slot) : (s.setSlot m x).power = s.power := rfl
@[simp] theorem State.setSlot_seq (s : State) (m : Nat) (x : Slot) : (s.setSlot m x).seq = s.seq := rfl
@[simp] theorem State.setSlot_junction (s : State) (m : Nat) (x : Slot) : (s.setSlot m x).junction = s.junction := rfl
@[simp] theorem State.setSlot_viol (s : State) (m : Nat) (x : Slot) : (s.setSlot m x).viol = s.viol := rfl
@[simp] theorem State.setSlot_fenced (s : State) (m : Nat) (x : Slot) : (s.setSlot m x).fenced = s.fenced := rfl
@[simp] theorem State.setSlot_ports (s : State) (m : Nat) (x : Slot) : (s.setSlot m x).ports = s.ports := rfl
@[simp] theorem State.setSlot_engines (s : State) (m : Nat) (x : Slot) : (s.setSlot m x).engines = s.engines := rfl
@[simp] theorem State.setSlot_qps (s : State) (m : Nat) (x : Slot) : (s.setSlot m x).qps = s.qps := rfl
@[simp] theorem State.setSlot_guest (s : State) (m : Nat) (x : Slot) : (s.setSlot m x).guest = s.guest := rfl
@[simp] theorem State.setSlot_lanes (s : State) (m : Nat) (x : Slot) : (s.setSlot m x).lanes = s.lanes := rfl
@[simp] theorem State.setSlot_readers (s : State) (m : Nat) (x : Slot) : (s.setSlot m x).readers = s.readers := rfl
@[simp] theorem State.setSlot_writers (s : State) (m : Nat) (x : Slot) : (s.setSlot m x).writers = s.writers := rfl
@[simp] theorem State.setSlot_fc (s : State) (m : Nat) (x : Slot) : (s.setSlot m x).fc = s.fc := rfl
@[simp] theorem State.setSlot_mgmt (s : State) (m : Nat) (x : Slot) : (s.setSlot m x).mgmt = s.mgmt := rfl
@[simp] theorem State.setSlot_board (s : State) (m : Nat) (x : Slot) : (s.setSlot m x).board = s.board := rfl
@[simp] theorem State.setSlot_out (s : State) (m : Nat) (x : Slot) : (s.setSlot m x).out = s.out := rfl
@[simp] theorem State.setCore_pending (s : State) (g : Nat) (c : Core) : (s.setCore g c).pending = s.pending := rfl
@[simp] theorem State.setCore_inflight (s : State) (g : Nat) (c : Core) : (s.setCore g c).inflight = s.inflight := rfl
@[simp] theorem State.setCore_free (s : State) (g : Nat) (c : Core) : (s.setCore g c).free = s.free := rfl
@[simp] theorem State.setCore_time (s : State) (g : Nat) (c : Core) : (s.setCore g c).time = s.time := rfl
@[simp] theorem State.setCore_resetEntry (s : State) (g : Nat) (c : Core) : (s.setCore g c).resetEntry = s.resetEntry := rfl
@[simp] theorem State.setCore_hier (s : State) (g : Nat) (c : Core) : (s.setCore g c).hier = s.hier := rfl
@[simp] theorem State.setCore_router (s : State) (g : Nat) (c : Core) : (s.setCore g c).router = s.router := rfl
@[simp] theorem State.setCore_qos (s : State) (g : Nat) (c : Core) : (s.setCore g c).qos = s.qos := rfl
@[simp] theorem State.setCore_sec (s : State) (g : Nat) (c : Core) : (s.setCore g c).sec = s.sec := rfl
@[simp] theorem State.setCore_power (s : State) (g : Nat) (c : Core) : (s.setCore g c).power = s.power := rfl
@[simp] theorem State.setCore_seq (s : State) (g : Nat) (c : Core) : (s.setCore g c).seq = s.seq := rfl
@[simp] theorem State.setCore_junction (s : State) (g : Nat) (c : Core) : (s.setCore g c).junction = s.junction := rfl
@[simp] theorem State.setCore_viol (s : State) (g : Nat) (c : Core) : (s.setCore g c).viol = s.viol := rfl
@[simp] theorem State.setCore_fenced (s : State) (g : Nat) (c : Core) : (s.setCore g c).fenced = s.fenced := rfl
@[simp] theorem State.setCore_mirror (s : State) (g : Nat) (c : Core) : (s.setCore g c).mirror = s.mirror := rfl
@[simp] theorem State.setCore_ports (s : State) (g : Nat) (c : Core) : (s.setCore g c).ports = s.ports := rfl
@[simp] theorem State.setCore_engines (s : State) (g : Nat) (c : Core) : (s.setCore g c).engines = s.engines := rfl
@[simp] theorem State.setCore_qps (s : State) (g : Nat) (c : Core) : (s.setCore g c).qps = s.qps := rfl
@[simp] theorem State.setCore_guest (s : State) (g : Nat) (c : Core) : (s.setCore g c).guest = s.guest := rfl
@[simp] theorem State.setCore_lanes (s : State) (g : Nat) (c : Core) : (s.setCore g c).lanes = s.lanes := rfl
@[simp] theorem State.setCore_readers (s : State) (g : Nat) (c : Core) : (s.setCore g c).readers = s.readers := rfl
@[simp] theorem State.setCore_writers (s : State) (g : Nat) (c : Core) : (s.setCore g c).writers = s.writers := rfl
@[simp] theorem State.setCore_fc (s : State) (g : Nat) (c : Core) : (s.setCore g c).fc = s.fc := rfl
@[simp] theorem State.setCore_mgmt (s : State) (g : Nat) (c : Core) : (s.setCore g c).mgmt = s.mgmt := rfl
@[simp] theorem State.setCore_board (s : State) (g : Nat) (c : Core) : (s.setCore g c).board = s.board := rfl
@[simp] theorem State.setCore_out (s : State) (g : Nat) (c : Core) : (s.setCore g c).out = s.out := rfl
@[simp] theorem State.modCore_pending (s : State) (g : Nat) (f : Core → Core) : (s.modCore g f).pending = s.pending := rfl
@[simp] theorem State.modCore_inflight (s : State) (g : Nat) (f : Core → Core) : (s.modCore g f).inflight = s.inflight := rfl
@[simp] theorem State.modCore_free (s : State) (g : Nat) (f : Core → Core) : (s.modCore g f).free = s.free := rfl
@[simp] theorem State.modCore_time (s : State) (g : Nat) (f : Core → Core) : (s.modCore g f).time = s.time := rfl
@[simp] theorem State.modCore_resetEntry (s : State) (g : Nat) (f : Core → Core) : (s.modCore g f).resetEntry = s.resetEntry := rfl
@[simp] theorem State.modCore_hier (s : State) (g : Nat) (f : Core → Core) : (s.modCore g f).hier = s.hier := rfl
@[simp] theorem State.modCore_router (s : State) (g : Nat) (f : Core → Core) : (s.modCore g f).router = s.router := rfl
@[simp] theorem State.modCore_qos (s : State) (g : Nat) (f : Core → Core) : (s.modCore g f).qos = s.qos := rfl
@[simp] theorem State.modCore_sec (s : State) (g : Nat) (f : Core → Core) : (s.modCore g f).sec = s.sec := rfl
@[simp] theorem State.modCore_power (s : State) (g : Nat) (f : Core → Core) : (s.modCore g f).power = s.power := rfl
@[simp] theorem State.modCore_seq (s : State) (g : Nat) (f : Core → Core) : (s.modCore g f).seq = s.seq := rfl
@[simp] theorem State.modCore_junction (s : State) (g : Nat) (f : Core → Core) : (s.modCore g f).junction = s.junction := rfl
@[simp] theorem State.modCore_viol (s : State) (g : Nat) (f : Core → Core) : (s.modCore g f).viol = s.viol := rfl
@[simp] theorem State.modCore_fenced (s : State) (g : Nat) (f : Core → Core) : (s.modCore g f).fenced = s.fenced := rfl
@[simp] theorem State.modCore_mirror (s : State) (g : Nat) (f : Core → Core) : (s.modCore g f).mirror = s.mirror := rfl
@[simp] theorem State.modCore_ports (s : State) (g : Nat) (f : Core → Core) : (s.modCore g f).ports = s.ports := rfl
@[simp] theorem State.modCore_engines (s : State) (g : Nat) (f : Core → Core) : (s.modCore g f).engines = s.engines := rfl
@[simp] theorem State.modCore_qps (s : State) (g : Nat) (f : Core → Core) : (s.modCore g f).qps = s.qps := rfl
@[simp] theorem State.modCore_guest (s : State) (g : Nat) (f : Core → Core) : (s.modCore g f).guest = s.guest := rfl
@[simp] theorem State.modCore_lanes (s : State) (g : Nat) (f : Core → Core) : (s.modCore g f).lanes = s.lanes := rfl
@[simp] theorem State.modCore_readers (s : State) (g : Nat) (f : Core → Core) : (s.modCore g f).readers = s.readers := rfl
@[simp] theorem State.modCore_writers (s : State) (g : Nat) (f : Core → Core) : (s.modCore g f).writers = s.writers := rfl
@[simp] theorem State.modCore_fc (s : State) (g : Nat) (f : Core → Core) : (s.modCore g f).fc = s.fc := rfl
@[simp] theorem State.modCore_mgmt (s : State) (g : Nat) (f : Core → Core) : (s.modCore g f).mgmt = s.mgmt := rfl
@[simp] theorem State.modCore_board (s : State) (g : Nat) (f : Core → Core) : (s.modCore g f).board = s.board := rfl
@[simp] theorem State.modCore_out (s : State) (g : Nat) (f : Core → Core) : (s.modCore g f).out = s.out := rfl
@[simp] theorem State.setEnclave_pending (s : State) (e : Nat) (x : Enclave) : (s.setEnclave e x).pending = s.pending := rfl
@[simp] theorem State.setEnclave_inflight (s : State) (e : Nat) (x : Enclave) : (s.setEnclave e x).inflight = s.inflight := rfl
@[simp] theorem State.setEnclave_free (s : State) (e : Nat) (x : Enclave) : (s.setEnclave e x).free = s.free := rfl
@[simp] theorem State.setEnclave_time (s : State) (e : Nat) (x : Enclave) : (s.setEnclave e x).time = s.time := rfl
@[simp] theorem State.setEnclave_cores (s : State) (e : Nat) (x : Enclave) : (s.setEnclave e x).cores = s.cores := rfl
@[simp] theorem State.setEnclave_resetEntry (s : State) (e : Nat) (x : Enclave) : (s.setEnclave e x).resetEntry = s.resetEntry := rfl
@[simp] theorem State.setEnclave_hier (s : State) (e : Nat) (x : Enclave) : (s.setEnclave e x).hier = s.hier := rfl
@[simp] theorem State.setEnclave_router (s : State) (e : Nat) (x : Enclave) : (s.setEnclave e x).router = s.router := rfl
@[simp] theorem State.setEnclave_qos (s : State) (e : Nat) (x : Enclave) : (s.setEnclave e x).qos = s.qos := rfl
@[simp] theorem State.setEnclave_power (s : State) (e : Nat) (x : Enclave) : (s.setEnclave e x).power = s.power := rfl
@[simp] theorem State.setEnclave_seq (s : State) (e : Nat) (x : Enclave) : (s.setEnclave e x).seq = s.seq := rfl
@[simp] theorem State.setEnclave_junction (s : State) (e : Nat) (x : Enclave) : (s.setEnclave e x).junction = s.junction := rfl
@[simp] theorem State.setEnclave_viol (s : State) (e : Nat) (x : Enclave) : (s.setEnclave e x).viol = s.viol := rfl
@[simp] theorem State.setEnclave_fenced (s : State) (e : Nat) (x : Enclave) : (s.setEnclave e x).fenced = s.fenced := rfl
@[simp] theorem State.setEnclave_mirror (s : State) (e : Nat) (x : Enclave) : (s.setEnclave e x).mirror = s.mirror := rfl
@[simp] theorem State.setEnclave_ports (s : State) (e : Nat) (x : Enclave) : (s.setEnclave e x).ports = s.ports := rfl
@[simp] theorem State.setEnclave_engines (s : State) (e : Nat) (x : Enclave) : (s.setEnclave e x).engines = s.engines := rfl
@[simp] theorem State.setEnclave_qps (s : State) (e : Nat) (x : Enclave) : (s.setEnclave e x).qps = s.qps := rfl
@[simp] theorem State.setEnclave_guest (s : State) (e : Nat) (x : Enclave) : (s.setEnclave e x).guest = s.guest := rfl
@[simp] theorem State.setEnclave_lanes (s : State) (e : Nat) (x : Enclave) : (s.setEnclave e x).lanes = s.lanes := rfl
@[simp] theorem State.setEnclave_readers (s : State) (e : Nat) (x : Enclave) : (s.setEnclave e x).readers = s.readers := rfl
@[simp] theorem State.setEnclave_writers (s : State) (e : Nat) (x : Enclave) : (s.setEnclave e x).writers = s.writers := rfl
@[simp] theorem State.setEnclave_fc (s : State) (e : Nat) (x : Enclave) : (s.setEnclave e x).fc = s.fc := rfl
@[simp] theorem State.setEnclave_mgmt (s : State) (e : Nat) (x : Enclave) : (s.setEnclave e x).mgmt = s.mgmt := rfl
@[simp] theorem State.setEnclave_board (s : State) (e : Nat) (x : Enclave) : (s.setEnclave e x).board = s.board := rfl
@[simp] theorem State.setEnclave_out (s : State) (e : Nat) (x : Enclave) : (s.setEnclave e x).out = s.out := rfl
@[simp] theorem State.setFab_pending (s : State) (die : Nat) (f : FabBlock) : (s.setFab die f).pending = s.pending := rfl
@[simp] theorem State.setFab_inflight (s : State) (die : Nat) (f : FabBlock) : (s.setFab die f).inflight = s.inflight := rfl
@[simp] theorem State.setFab_free (s : State) (die : Nat) (f : FabBlock) : (s.setFab die f).free = s.free := rfl
@[simp] theorem State.setFab_time (s : State) (die : Nat) (f : FabBlock) : (s.setFab die f).time = s.time := rfl
@[simp] theorem State.setFab_cores (s : State) (die : Nat) (f : FabBlock) : (s.setFab die f).cores = s.cores := rfl
@[simp] theorem State.setFab_resetEntry (s : State) (die : Nat) (f : FabBlock) : (s.setFab die f).resetEntry = s.resetEntry := rfl
@[simp] theorem State.setFab_router (s : State) (die : Nat) (f : FabBlock) : (s.setFab die f).router = s.router := rfl
@[simp] theorem State.setFab_qos (s : State) (die : Nat) (f : FabBlock) : (s.setFab die f).qos = s.qos := rfl
@[simp] theorem State.setFab_sec (s : State) (die : Nat) (f : FabBlock) : (s.setFab die f).sec = s.sec := rfl
@[simp] theorem State.setFab_power (s : State) (die : Nat) (f : FabBlock) : (s.setFab die f).power = s.power := rfl
@[simp] theorem State.setFab_seq (s : State) (die : Nat) (f : FabBlock) : (s.setFab die f).seq = s.seq := rfl
@[simp] theorem State.setFab_junction (s : State) (die : Nat) (f : FabBlock) : (s.setFab die f).junction = s.junction := rfl
@[simp] theorem State.setFab_viol (s : State) (die : Nat) (f : FabBlock) : (s.setFab die f).viol = s.viol := rfl
@[simp] theorem State.setFab_fenced (s : State) (die : Nat) (f : FabBlock) : (s.setFab die f).fenced = s.fenced := rfl
@[simp] theorem State.setFab_mirror (s : State) (die : Nat) (f : FabBlock) : (s.setFab die f).mirror = s.mirror := rfl
@[simp] theorem State.setFab_ports (s : State) (die : Nat) (f : FabBlock) : (s.setFab die f).ports = s.ports := rfl
@[simp] theorem State.setFab_engines (s : State) (die : Nat) (f : FabBlock) : (s.setFab die f).engines = s.engines := rfl
@[simp] theorem State.setFab_qps (s : State) (die : Nat) (f : FabBlock) : (s.setFab die f).qps = s.qps := rfl
@[simp] theorem State.setFab_guest (s : State) (die : Nat) (f : FabBlock) : (s.setFab die f).guest = s.guest := rfl
@[simp] theorem State.setFab_lanes (s : State) (die : Nat) (f : FabBlock) : (s.setFab die f).lanes = s.lanes := rfl
@[simp] theorem State.setFab_readers (s : State) (die : Nat) (f : FabBlock) : (s.setFab die f).readers = s.readers := rfl
@[simp] theorem State.setFab_writers (s : State) (die : Nat) (f : FabBlock) : (s.setFab die f).writers = s.writers := rfl
@[simp] theorem State.setFab_fc (s : State) (die : Nat) (f : FabBlock) : (s.setFab die f).fc = s.fc := rfl
@[simp] theorem State.setFab_mgmt (s : State) (die : Nat) (f : FabBlock) : (s.setFab die f).mgmt = s.mgmt := rfl
@[simp] theorem State.setFab_board (s : State) (die : Nat) (f : FabBlock) : (s.setFab die f).board = s.board := rfl
@[simp] theorem State.setFab_out (s : State) (die : Nat) (f : FabBlock) : (s.setFab die f).out = s.out := rfl
@[simp] theorem State.setPair_pending (s : State) (i j : Nat) (p : Pair) : (s.setPair i j p).pending = s.pending := rfl
@[simp] theorem State.setPair_inflight (s : State) (i j : Nat) (p : Pair) : (s.setPair i j p).inflight = s.inflight := rfl
@[simp] theorem State.setPair_free (s : State) (i j : Nat) (p : Pair) : (s.setPair i j p).free = s.free := rfl
@[simp] theorem State.setPair_time (s : State) (i j : Nat) (p : Pair) : (s.setPair i j p).time = s.time := rfl
@[simp] theorem State.setPair_cores (s : State) (i j : Nat) (p : Pair) : (s.setPair i j p).cores = s.cores := rfl
@[simp] theorem State.setPair_resetEntry (s : State) (i j : Nat) (p : Pair) : (s.setPair i j p).resetEntry = s.resetEntry := rfl
@[simp] theorem State.setPair_router (s : State) (i j : Nat) (p : Pair) : (s.setPair i j p).router = s.router := rfl
@[simp] theorem State.setPair_qos (s : State) (i j : Nat) (p : Pair) : (s.setPair i j p).qos = s.qos := rfl
@[simp] theorem State.setPair_sec (s : State) (i j : Nat) (p : Pair) : (s.setPair i j p).sec = s.sec := rfl
@[simp] theorem State.setPair_power (s : State) (i j : Nat) (p : Pair) : (s.setPair i j p).power = s.power := rfl
@[simp] theorem State.setPair_seq (s : State) (i j : Nat) (p : Pair) : (s.setPair i j p).seq = s.seq := rfl
@[simp] theorem State.setPair_junction (s : State) (i j : Nat) (p : Pair) : (s.setPair i j p).junction = s.junction := rfl
@[simp] theorem State.setPair_viol (s : State) (i j : Nat) (p : Pair) : (s.setPair i j p).viol = s.viol := rfl
@[simp] theorem State.setPair_fenced (s : State) (i j : Nat) (p : Pair) : (s.setPair i j p).fenced = s.fenced := rfl
@[simp] theorem State.setPair_mirror (s : State) (i j : Nat) (p : Pair) : (s.setPair i j p).mirror = s.mirror := rfl
@[simp] theorem State.setPair_ports (s : State) (i j : Nat) (p : Pair) : (s.setPair i j p).ports = s.ports := rfl
@[simp] theorem State.setPair_engines (s : State) (i j : Nat) (p : Pair) : (s.setPair i j p).engines = s.engines := rfl
@[simp] theorem State.setPair_qps (s : State) (i j : Nat) (p : Pair) : (s.setPair i j p).qps = s.qps := rfl
@[simp] theorem State.setPair_guest (s : State) (i j : Nat) (p : Pair) : (s.setPair i j p).guest = s.guest := rfl
@[simp] theorem State.setPair_lanes (s : State) (i j : Nat) (p : Pair) : (s.setPair i j p).lanes = s.lanes := rfl
@[simp] theorem State.setPair_readers (s : State) (i j : Nat) (p : Pair) : (s.setPair i j p).readers = s.readers := rfl
@[simp] theorem State.setPair_writers (s : State) (i j : Nat) (p : Pair) : (s.setPair i j p).writers = s.writers := rfl
@[simp] theorem State.setPair_fc (s : State) (i j : Nat) (p : Pair) : (s.setPair i j p).fc = s.fc := rfl
@[simp] theorem State.setPair_mgmt (s : State) (i j : Nat) (p : Pair) : (s.setPair i j p).mgmt = s.mgmt := rfl
@[simp] theorem State.setPair_board (s : State) (i j : Nat) (p : Pair) : (s.setPair i j p).board = s.board := rfl
@[simp] theorem State.setPair_out (s : State) (i j : Nat) (p : Pair) : (s.setPair i j p).out = s.out := rfl
@[simp] theorem State.modGuest_pending (s : State) (f : Guest → Guest) : (s.modGuest f).pending = s.pending := rfl
@[simp] theorem State.modGuest_inflight (s : State) (f : Guest → Guest) : (s.modGuest f).inflight = s.inflight := rfl
@[simp] theorem State.modGuest_free (s : State) (f : Guest → Guest) : (s.modGuest f).free = s.free := rfl
@[simp] theorem State.modGuest_time (s : State) (f : Guest → Guest) : (s.modGuest f).time = s.time := rfl
@[simp] theorem State.modGuest_cores (s : State) (f : Guest → Guest) : (s.modGuest f).cores = s.cores := rfl
@[simp] theorem State.modGuest_resetEntry (s : State) (f : Guest → Guest) : (s.modGuest f).resetEntry = s.resetEntry := rfl
@[simp] theorem State.modGuest_hier (s : State) (f : Guest → Guest) : (s.modGuest f).hier = s.hier := rfl
@[simp] theorem State.modGuest_router (s : State) (f : Guest → Guest) : (s.modGuest f).router = s.router := rfl
@[simp] theorem State.modGuest_qos (s : State) (f : Guest → Guest) : (s.modGuest f).qos = s.qos := rfl
@[simp] theorem State.modGuest_sec (s : State) (f : Guest → Guest) : (s.modGuest f).sec = s.sec := rfl
@[simp] theorem State.modGuest_power (s : State) (f : Guest → Guest) : (s.modGuest f).power = s.power := rfl
@[simp] theorem State.modGuest_seq (s : State) (f : Guest → Guest) : (s.modGuest f).seq = s.seq := rfl
@[simp] theorem State.modGuest_junction (s : State) (f : Guest → Guest) : (s.modGuest f).junction = s.junction := rfl
@[simp] theorem State.modGuest_viol (s : State) (f : Guest → Guest) : (s.modGuest f).viol = s.viol := rfl
@[simp] theorem State.modGuest_fenced (s : State) (f : Guest → Guest) : (s.modGuest f).fenced = s.fenced := rfl
@[simp] theorem State.modGuest_mirror (s : State) (f : Guest → Guest) : (s.modGuest f).mirror = s.mirror := rfl
@[simp] theorem State.modGuest_ports (s : State) (f : Guest → Guest) : (s.modGuest f).ports = s.ports := rfl
@[simp] theorem State.modGuest_engines (s : State) (f : Guest → Guest) : (s.modGuest f).engines = s.engines := rfl
@[simp] theorem State.modGuest_qps (s : State) (f : Guest → Guest) : (s.modGuest f).qps = s.qps := rfl
@[simp] theorem State.modGuest_lanes (s : State) (f : Guest → Guest) : (s.modGuest f).lanes = s.lanes := rfl
@[simp] theorem State.modGuest_readers (s : State) (f : Guest → Guest) : (s.modGuest f).readers = s.readers := rfl
@[simp] theorem State.modGuest_writers (s : State) (f : Guest → Guest) : (s.modGuest f).writers = s.writers := rfl
@[simp] theorem State.modGuest_fc (s : State) (f : Guest → Guest) : (s.modGuest f).fc = s.fc := rfl
@[simp] theorem State.modGuest_mgmt (s : State) (f : Guest → Guest) : (s.modGuest f).mgmt = s.mgmt := rfl
@[simp] theorem State.modGuest_board (s : State) (f : Guest → Guest) : (s.modGuest f).board = s.board := rfl
@[simp] theorem State.modGuest_out (s : State) (f : Guest → Guest) : (s.modGuest f).out = s.out := rfl
@[simp] theorem State.setStream_pending (s : State) (n : Nat) (x : Stream) : (s.setStream n x).pending = s.pending := rfl
@[simp] theorem State.setStream_inflight (s : State) (n : Nat) (x : Stream) : (s.setStream n x).inflight = s.inflight := rfl
@[simp] theorem State.setStream_free (s : State) (n : Nat) (x : Stream) : (s.setStream n x).free = s.free := rfl
@[simp] theorem State.setStream_time (s : State) (n : Nat) (x : Stream) : (s.setStream n x).time = s.time := rfl
@[simp] theorem State.setStream_cores (s : State) (n : Nat) (x : Stream) : (s.setStream n x).cores = s.cores := rfl
@[simp] theorem State.setStream_resetEntry (s : State) (n : Nat) (x : Stream) : (s.setStream n x).resetEntry = s.resetEntry := rfl
@[simp] theorem State.setStream_hier (s : State) (n : Nat) (x : Stream) : (s.setStream n x).hier = s.hier := rfl
@[simp] theorem State.setStream_router (s : State) (n : Nat) (x : Stream) : (s.setStream n x).router = s.router := rfl
@[simp] theorem State.setStream_qos (s : State) (n : Nat) (x : Stream) : (s.setStream n x).qos = s.qos := rfl
@[simp] theorem State.setStream_sec (s : State) (n : Nat) (x : Stream) : (s.setStream n x).sec = s.sec := rfl
@[simp] theorem State.setStream_power (s : State) (n : Nat) (x : Stream) : (s.setStream n x).power = s.power := rfl
@[simp] theorem State.setStream_seq (s : State) (n : Nat) (x : Stream) : (s.setStream n x).seq = s.seq := rfl
@[simp] theorem State.setStream_junction (s : State) (n : Nat) (x : Stream) : (s.setStream n x).junction = s.junction := rfl
@[simp] theorem State.setStream_viol (s : State) (n : Nat) (x : Stream) : (s.setStream n x).viol = s.viol := rfl
@[simp] theorem State.setStream_fenced (s : State) (n : Nat) (x : Stream) : (s.setStream n x).fenced = s.fenced := rfl
@[simp] theorem State.setStream_mirror (s : State) (n : Nat) (x : Stream) : (s.setStream n x).mirror = s.mirror := rfl
@[simp] theorem State.setStream_ports (s : State) (n : Nat) (x : Stream) : (s.setStream n x).ports = s.ports := rfl
@[simp] theorem State.setStream_engines (s : State) (n : Nat) (x : Stream) : (s.setStream n x).engines = s.engines := rfl
@[simp] theorem State.setStream_qps (s : State) (n : Nat) (x : Stream) : (s.setStream n x).qps = s.qps := rfl
@[simp] theorem State.setStream_lanes (s : State) (n : Nat) (x : Stream) : (s.setStream n x).lanes = s.lanes := rfl
@[simp] theorem State.setStream_readers (s : State) (n : Nat) (x : Stream) : (s.setStream n x).readers = s.readers := rfl
@[simp] theorem State.setStream_writers (s : State) (n : Nat) (x : Stream) : (s.setStream n x).writers = s.writers := rfl
@[simp] theorem State.setStream_fc (s : State) (n : Nat) (x : Stream) : (s.setStream n x).fc = s.fc := rfl
@[simp] theorem State.setStream_mgmt (s : State) (n : Nat) (x : Stream) : (s.setStream n x).mgmt = s.mgmt := rfl
@[simp] theorem State.setStream_board (s : State) (n : Nat) (x : Stream) : (s.setStream n x).board = s.board := rfl
@[simp] theorem State.setStream_out (s : State) (n : Nat) (x : Stream) : (s.setStream n x).out = s.out := rfl
@[simp] theorem State.setSlice_pending (s : State) (h : Nat) (x : Slice) : (s.setSlice h x).pending = s.pending := rfl
@[simp] theorem State.setSlice_inflight (s : State) (h : Nat) (x : Slice) : (s.setSlice h x).inflight = s.inflight := rfl
@[simp] theorem State.setSlice_free (s : State) (h : Nat) (x : Slice) : (s.setSlice h x).free = s.free := rfl
@[simp] theorem State.setSlice_time (s : State) (h : Nat) (x : Slice) : (s.setSlice h x).time = s.time := rfl
@[simp] theorem State.setSlice_cores (s : State) (h : Nat) (x : Slice) : (s.setSlice h x).cores = s.cores := rfl
@[simp] theorem State.setSlice_resetEntry (s : State) (h : Nat) (x : Slice) : (s.setSlice h x).resetEntry = s.resetEntry := rfl
@[simp] theorem State.setSlice_router (s : State) (h : Nat) (x : Slice) : (s.setSlice h x).router = s.router := rfl
@[simp] theorem State.setSlice_qos (s : State) (h : Nat) (x : Slice) : (s.setSlice h x).qos = s.qos := rfl
@[simp] theorem State.setSlice_sec (s : State) (h : Nat) (x : Slice) : (s.setSlice h x).sec = s.sec := rfl
@[simp] theorem State.setSlice_power (s : State) (h : Nat) (x : Slice) : (s.setSlice h x).power = s.power := rfl
@[simp] theorem State.setSlice_seq (s : State) (h : Nat) (x : Slice) : (s.setSlice h x).seq = s.seq := rfl
@[simp] theorem State.setSlice_junction (s : State) (h : Nat) (x : Slice) : (s.setSlice h x).junction = s.junction := rfl
@[simp] theorem State.setSlice_viol (s : State) (h : Nat) (x : Slice) : (s.setSlice h x).viol = s.viol := rfl
@[simp] theorem State.setSlice_fenced (s : State) (h : Nat) (x : Slice) : (s.setSlice h x).fenced = s.fenced := rfl
@[simp] theorem State.setSlice_mirror (s : State) (h : Nat) (x : Slice) : (s.setSlice h x).mirror = s.mirror := rfl
@[simp] theorem State.setSlice_ports (s : State) (h : Nat) (x : Slice) : (s.setSlice h x).ports = s.ports := rfl
@[simp] theorem State.setSlice_engines (s : State) (h : Nat) (x : Slice) : (s.setSlice h x).engines = s.engines := rfl
@[simp] theorem State.setSlice_qps (s : State) (h : Nat) (x : Slice) : (s.setSlice h x).qps = s.qps := rfl
@[simp] theorem State.setSlice_guest (s : State) (h : Nat) (x : Slice) : (s.setSlice h x).guest = s.guest := rfl
@[simp] theorem State.setSlice_lanes (s : State) (h : Nat) (x : Slice) : (s.setSlice h x).lanes = s.lanes := rfl
@[simp] theorem State.setSlice_readers (s : State) (h : Nat) (x : Slice) : (s.setSlice h x).readers = s.readers := rfl
@[simp] theorem State.setSlice_writers (s : State) (h : Nat) (x : Slice) : (s.setSlice h x).writers = s.writers := rfl
@[simp] theorem State.setSlice_fc (s : State) (h : Nat) (x : Slice) : (s.setSlice h x).fc = s.fc := rfl
@[simp] theorem State.setSlice_mgmt (s : State) (h : Nat) (x : Slice) : (s.setSlice h x).mgmt = s.mgmt := rfl
@[simp] theorem State.setSlice_board (s : State) (h : Nat) (x : Slice) : (s.setSlice h x).board = s.board := rfl
@[simp] theorem State.setSlice_out (s : State) (h : Nat) (x : Slice) : (s.setSlice h x).out = s.out := rfl
@[simp] theorem State.setTxn_pending (s : State) (line : Nat) (t : Txn) : (s.setTxn line t).pending = s.pending := rfl
@[simp] theorem State.setTxn_inflight (s : State) (line : Nat) (t : Txn) : (s.setTxn line t).inflight = s.inflight := rfl
@[simp] theorem State.setTxn_free (s : State) (line : Nat) (t : Txn) : (s.setTxn line t).free = s.free := rfl
@[simp] theorem State.setTxn_time (s : State) (line : Nat) (t : Txn) : (s.setTxn line t).time = s.time := rfl
@[simp] theorem State.setTxn_cores (s : State) (line : Nat) (t : Txn) : (s.setTxn line t).cores = s.cores := rfl
@[simp] theorem State.setTxn_resetEntry (s : State) (line : Nat) (t : Txn) : (s.setTxn line t).resetEntry = s.resetEntry := rfl
@[simp] theorem State.setTxn_router (s : State) (line : Nat) (t : Txn) : (s.setTxn line t).router = s.router := rfl
@[simp] theorem State.setTxn_qos (s : State) (line : Nat) (t : Txn) : (s.setTxn line t).qos = s.qos := rfl
@[simp] theorem State.setTxn_sec (s : State) (line : Nat) (t : Txn) : (s.setTxn line t).sec = s.sec := rfl
@[simp] theorem State.setTxn_power (s : State) (line : Nat) (t : Txn) : (s.setTxn line t).power = s.power := rfl
@[simp] theorem State.setTxn_seq (s : State) (line : Nat) (t : Txn) : (s.setTxn line t).seq = s.seq := rfl
@[simp] theorem State.setTxn_junction (s : State) (line : Nat) (t : Txn) : (s.setTxn line t).junction = s.junction := rfl
@[simp] theorem State.setTxn_viol (s : State) (line : Nat) (t : Txn) : (s.setTxn line t).viol = s.viol := rfl
@[simp] theorem State.setTxn_fenced (s : State) (line : Nat) (t : Txn) : (s.setTxn line t).fenced = s.fenced := rfl
@[simp] theorem State.setTxn_mirror (s : State) (line : Nat) (t : Txn) : (s.setTxn line t).mirror = s.mirror := rfl
@[simp] theorem State.setTxn_ports (s : State) (line : Nat) (t : Txn) : (s.setTxn line t).ports = s.ports := rfl
@[simp] theorem State.setTxn_engines (s : State) (line : Nat) (t : Txn) : (s.setTxn line t).engines = s.engines := rfl
@[simp] theorem State.setTxn_qps (s : State) (line : Nat) (t : Txn) : (s.setTxn line t).qps = s.qps := rfl
@[simp] theorem State.setTxn_guest (s : State) (line : Nat) (t : Txn) : (s.setTxn line t).guest = s.guest := rfl
@[simp] theorem State.setTxn_lanes (s : State) (line : Nat) (t : Txn) : (s.setTxn line t).lanes = s.lanes := rfl
@[simp] theorem State.setTxn_readers (s : State) (line : Nat) (t : Txn) : (s.setTxn line t).readers = s.readers := rfl
@[simp] theorem State.setTxn_writers (s : State) (line : Nat) (t : Txn) : (s.setTxn line t).writers = s.writers := rfl
@[simp] theorem State.setTxn_fc (s : State) (line : Nat) (t : Txn) : (s.setTxn line t).fc = s.fc := rfl
@[simp] theorem State.setTxn_mgmt (s : State) (line : Nat) (t : Txn) : (s.setTxn line t).mgmt = s.mgmt := rfl
@[simp] theorem State.setTxn_board (s : State) (line : Nat) (t : Txn) : (s.setTxn line t).board = s.board := rfl
@[simp] theorem State.setTxn_out (s : State) (line : Nat) (t : Txn) : (s.setTxn line t).out = s.out := rfl
@[simp] theorem State.setMc_pending (s : State) (k : Nat) (m : Mc) : (s.setMc k m).pending = s.pending := rfl
@[simp] theorem State.setMc_inflight (s : State) (k : Nat) (m : Mc) : (s.setMc k m).inflight = s.inflight := rfl
@[simp] theorem State.setMc_free (s : State) (k : Nat) (m : Mc) : (s.setMc k m).free = s.free := rfl
@[simp] theorem State.setMc_time (s : State) (k : Nat) (m : Mc) : (s.setMc k m).time = s.time := rfl
@[simp] theorem State.setMc_cores (s : State) (k : Nat) (m : Mc) : (s.setMc k m).cores = s.cores := rfl
@[simp] theorem State.setMc_resetEntry (s : State) (k : Nat) (m : Mc) : (s.setMc k m).resetEntry = s.resetEntry := rfl
@[simp] theorem State.setMc_router (s : State) (k : Nat) (m : Mc) : (s.setMc k m).router = s.router := rfl
@[simp] theorem State.setMc_qos (s : State) (k : Nat) (m : Mc) : (s.setMc k m).qos = s.qos := rfl
@[simp] theorem State.setMc_sec (s : State) (k : Nat) (m : Mc) : (s.setMc k m).sec = s.sec := rfl
@[simp] theorem State.setMc_power (s : State) (k : Nat) (m : Mc) : (s.setMc k m).power = s.power := rfl
@[simp] theorem State.setMc_seq (s : State) (k : Nat) (m : Mc) : (s.setMc k m).seq = s.seq := rfl
@[simp] theorem State.setMc_junction (s : State) (k : Nat) (m : Mc) : (s.setMc k m).junction = s.junction := rfl
@[simp] theorem State.setMc_viol (s : State) (k : Nat) (m : Mc) : (s.setMc k m).viol = s.viol := rfl
@[simp] theorem State.setMc_fenced (s : State) (k : Nat) (m : Mc) : (s.setMc k m).fenced = s.fenced := rfl
@[simp] theorem State.setMc_mirror (s : State) (k : Nat) (m : Mc) : (s.setMc k m).mirror = s.mirror := rfl
@[simp] theorem State.setMc_ports (s : State) (k : Nat) (m : Mc) : (s.setMc k m).ports = s.ports := rfl
@[simp] theorem State.setMc_engines (s : State) (k : Nat) (m : Mc) : (s.setMc k m).engines = s.engines := rfl
@[simp] theorem State.setMc_qps (s : State) (k : Nat) (m : Mc) : (s.setMc k m).qps = s.qps := rfl
@[simp] theorem State.setMc_guest (s : State) (k : Nat) (m : Mc) : (s.setMc k m).guest = s.guest := rfl
@[simp] theorem State.setMc_lanes (s : State) (k : Nat) (m : Mc) : (s.setMc k m).lanes = s.lanes := rfl
@[simp] theorem State.setMc_readers (s : State) (k : Nat) (m : Mc) : (s.setMc k m).readers = s.readers := rfl
@[simp] theorem State.setMc_writers (s : State) (k : Nat) (m : Mc) : (s.setMc k m).writers = s.writers := rfl
@[simp] theorem State.setMc_fc (s : State) (k : Nat) (m : Mc) : (s.setMc k m).fc = s.fc := rfl
@[simp] theorem State.setMc_mgmt (s : State) (k : Nat) (m : Mc) : (s.setMc k m).mgmt = s.mgmt := rfl
@[simp] theorem State.setMc_board (s : State) (k : Nat) (m : Mc) : (s.setMc k m).board = s.board := rfl
@[simp] theorem State.setMc_out (s : State) (k : Nat) (m : Mc) : (s.setMc k m).out = s.out := rfl
@[simp] theorem State.setDom_pending (s : State) (d : Nat) (x : Dom) : (s.setDom d x).pending = s.pending := rfl
@[simp] theorem State.setDom_inflight (s : State) (d : Nat) (x : Dom) : (s.setDom d x).inflight = s.inflight := rfl
@[simp] theorem State.setDom_free (s : State) (d : Nat) (x : Dom) : (s.setDom d x).free = s.free := rfl
@[simp] theorem State.setDom_time (s : State) (d : Nat) (x : Dom) : (s.setDom d x).time = s.time := rfl
@[simp] theorem State.setDom_cores (s : State) (d : Nat) (x : Dom) : (s.setDom d x).cores = s.cores := rfl
@[simp] theorem State.setDom_resetEntry (s : State) (d : Nat) (x : Dom) : (s.setDom d x).resetEntry = s.resetEntry := rfl
@[simp] theorem State.setDom_hier (s : State) (d : Nat) (x : Dom) : (s.setDom d x).hier = s.hier := rfl
@[simp] theorem State.setDom_router (s : State) (d : Nat) (x : Dom) : (s.setDom d x).router = s.router := rfl
@[simp] theorem State.setDom_qos (s : State) (d : Nat) (x : Dom) : (s.setDom d x).qos = s.qos := rfl
@[simp] theorem State.setDom_sec (s : State) (d : Nat) (x : Dom) : (s.setDom d x).sec = s.sec := rfl
@[simp] theorem State.setDom_seq (s : State) (d : Nat) (x : Dom) : (s.setDom d x).seq = s.seq := rfl
@[simp] theorem State.setDom_junction (s : State) (d : Nat) (x : Dom) : (s.setDom d x).junction = s.junction := rfl
@[simp] theorem State.setDom_viol (s : State) (d : Nat) (x : Dom) : (s.setDom d x).viol = s.viol := rfl
@[simp] theorem State.setDom_fenced (s : State) (d : Nat) (x : Dom) : (s.setDom d x).fenced = s.fenced := rfl
@[simp] theorem State.setDom_mirror (s : State) (d : Nat) (x : Dom) : (s.setDom d x).mirror = s.mirror := rfl
@[simp] theorem State.setDom_ports (s : State) (d : Nat) (x : Dom) : (s.setDom d x).ports = s.ports := rfl
@[simp] theorem State.setDom_engines (s : State) (d : Nat) (x : Dom) : (s.setDom d x).engines = s.engines := rfl
@[simp] theorem State.setDom_qps (s : State) (d : Nat) (x : Dom) : (s.setDom d x).qps = s.qps := rfl
@[simp] theorem State.setDom_guest (s : State) (d : Nat) (x : Dom) : (s.setDom d x).guest = s.guest := rfl
@[simp] theorem State.setDom_lanes (s : State) (d : Nat) (x : Dom) : (s.setDom d x).lanes = s.lanes := rfl
@[simp] theorem State.setDom_readers (s : State) (d : Nat) (x : Dom) : (s.setDom d x).readers = s.readers := rfl
@[simp] theorem State.setDom_writers (s : State) (d : Nat) (x : Dom) : (s.setDom d x).writers = s.writers := rfl
@[simp] theorem State.setDom_fc (s : State) (d : Nat) (x : Dom) : (s.setDom d x).fc = s.fc := rfl
@[simp] theorem State.setDom_mgmt (s : State) (d : Nat) (x : Dom) : (s.setDom d x).mgmt = s.mgmt := rfl
@[simp] theorem State.setDom_board (s : State) (d : Nat) (x : Dom) : (s.setDom d x).board = s.board := rfl
@[simp] theorem State.setDom_out (s : State) (d : Nat) (x : Dom) : (s.setDom d x).out = s.out := rfl
@[simp] theorem State.setTag_pending (s : State) (node tag : Nat) (t : TagInfo) : (s.setTag node tag t).pending = s.pending := rfl
@[simp] theorem State.setTag_inflight (s : State) (node tag : Nat) (t : TagInfo) : (s.setTag node tag t).inflight = s.inflight := rfl
@[simp] theorem State.setTag_free (s : State) (node tag : Nat) (t : TagInfo) : (s.setTag node tag t).free = s.free := rfl
@[simp] theorem State.setTag_time (s : State) (node tag : Nat) (t : TagInfo) : (s.setTag node tag t).time = s.time := rfl
@[simp] theorem State.setTag_cores (s : State) (node tag : Nat) (t : TagInfo) : (s.setTag node tag t).cores = s.cores := rfl
@[simp] theorem State.setTag_resetEntry (s : State) (node tag : Nat) (t : TagInfo) : (s.setTag node tag t).resetEntry = s.resetEntry := rfl
@[simp] theorem State.setTag_router (s : State) (node tag : Nat) (t : TagInfo) : (s.setTag node tag t).router = s.router := rfl
@[simp] theorem State.setTag_qos (s : State) (node tag : Nat) (t : TagInfo) : (s.setTag node tag t).qos = s.qos := rfl
@[simp] theorem State.setTag_sec (s : State) (node tag : Nat) (t : TagInfo) : (s.setTag node tag t).sec = s.sec := rfl
@[simp] theorem State.setTag_power (s : State) (node tag : Nat) (t : TagInfo) : (s.setTag node tag t).power = s.power := rfl
@[simp] theorem State.setTag_seq (s : State) (node tag : Nat) (t : TagInfo) : (s.setTag node tag t).seq = s.seq := rfl
@[simp] theorem State.setTag_junction (s : State) (node tag : Nat) (t : TagInfo) : (s.setTag node tag t).junction = s.junction := rfl
@[simp] theorem State.setTag_viol (s : State) (node tag : Nat) (t : TagInfo) : (s.setTag node tag t).viol = s.viol := rfl
@[simp] theorem State.setTag_fenced (s : State) (node tag : Nat) (t : TagInfo) : (s.setTag node tag t).fenced = s.fenced := rfl
@[simp] theorem State.setTag_mirror (s : State) (node tag : Nat) (t : TagInfo) : (s.setTag node tag t).mirror = s.mirror := rfl
@[simp] theorem State.setTag_ports (s : State) (node tag : Nat) (t : TagInfo) : (s.setTag node tag t).ports = s.ports := rfl
@[simp] theorem State.setTag_engines (s : State) (node tag : Nat) (t : TagInfo) : (s.setTag node tag t).engines = s.engines := rfl
@[simp] theorem State.setTag_qps (s : State) (node tag : Nat) (t : TagInfo) : (s.setTag node tag t).qps = s.qps := rfl
@[simp] theorem State.setTag_guest (s : State) (node tag : Nat) (t : TagInfo) : (s.setTag node tag t).guest = s.guest := rfl
@[simp] theorem State.setTag_lanes (s : State) (node tag : Nat) (t : TagInfo) : (s.setTag node tag t).lanes = s.lanes := rfl
@[simp] theorem State.setTag_readers (s : State) (node tag : Nat) (t : TagInfo) : (s.setTag node tag t).readers = s.readers := rfl
@[simp] theorem State.setTag_writers (s : State) (node tag : Nat) (t : TagInfo) : (s.setTag node tag t).writers = s.writers := rfl
@[simp] theorem State.setTag_fc (s : State) (node tag : Nat) (t : TagInfo) : (s.setTag node tag t).fc = s.fc := rfl
@[simp] theorem State.setTag_mgmt (s : State) (node tag : Nat) (t : TagInfo) : (s.setTag node tag t).mgmt = s.mgmt := rfl
@[simp] theorem State.setTag_board (s : State) (node tag : Nat) (t : TagInfo) : (s.setTag node tag t).board = s.board := rfl
@[simp] theorem State.setTag_out (s : State) (node tag : Nat) (t : TagInfo) : (s.setTag node tag t).out = s.out := rfl
@[simp] theorem State.setRail_pending (s : State) (r : Nat) (x : Rail) : (s.setRail r x).pending = s.pending := rfl
@[simp] theorem State.setRail_inflight (s : State) (r : Nat) (x : Rail) : (s.setRail r x).inflight = s.inflight := rfl
@[simp] theorem State.setRail_free (s : State) (r : Nat) (x : Rail) : (s.setRail r x).free = s.free := rfl
@[simp] theorem State.setRail_time (s : State) (r : Nat) (x : Rail) : (s.setRail r x).time = s.time := rfl
@[simp] theorem State.setRail_cores (s : State) (r : Nat) (x : Rail) : (s.setRail r x).cores = s.cores := rfl
@[simp] theorem State.setRail_resetEntry (s : State) (r : Nat) (x : Rail) : (s.setRail r x).resetEntry = s.resetEntry := rfl
@[simp] theorem State.setRail_hier (s : State) (r : Nat) (x : Rail) : (s.setRail r x).hier = s.hier := rfl
@[simp] theorem State.setRail_router (s : State) (r : Nat) (x : Rail) : (s.setRail r x).router = s.router := rfl
@[simp] theorem State.setRail_qos (s : State) (r : Nat) (x : Rail) : (s.setRail r x).qos = s.qos := rfl
@[simp] theorem State.setRail_sec (s : State) (r : Nat) (x : Rail) : (s.setRail r x).sec = s.sec := rfl
@[simp] theorem State.setRail_seq (s : State) (r : Nat) (x : Rail) : (s.setRail r x).seq = s.seq := rfl
@[simp] theorem State.setRail_junction (s : State) (r : Nat) (x : Rail) : (s.setRail r x).junction = s.junction := rfl
@[simp] theorem State.setRail_viol (s : State) (r : Nat) (x : Rail) : (s.setRail r x).viol = s.viol := rfl
@[simp] theorem State.setRail_fenced (s : State) (r : Nat) (x : Rail) : (s.setRail r x).fenced = s.fenced := rfl
@[simp] theorem State.setRail_mirror (s : State) (r : Nat) (x : Rail) : (s.setRail r x).mirror = s.mirror := rfl
@[simp] theorem State.setRail_ports (s : State) (r : Nat) (x : Rail) : (s.setRail r x).ports = s.ports := rfl
@[simp] theorem State.setRail_engines (s : State) (r : Nat) (x : Rail) : (s.setRail r x).engines = s.engines := rfl
@[simp] theorem State.setRail_qps (s : State) (r : Nat) (x : Rail) : (s.setRail r x).qps = s.qps := rfl
@[simp] theorem State.setRail_guest (s : State) (r : Nat) (x : Rail) : (s.setRail r x).guest = s.guest := rfl
@[simp] theorem State.setRail_lanes (s : State) (r : Nat) (x : Rail) : (s.setRail r x).lanes = s.lanes := rfl
@[simp] theorem State.setRail_readers (s : State) (r : Nat) (x : Rail) : (s.setRail r x).readers = s.readers := rfl
@[simp] theorem State.setRail_writers (s : State) (r : Nat) (x : Rail) : (s.setRail r x).writers = s.writers := rfl
@[simp] theorem State.setRail_fc (s : State) (r : Nat) (x : Rail) : (s.setRail r x).fc = s.fc := rfl
@[simp] theorem State.setRail_mgmt (s : State) (r : Nat) (x : Rail) : (s.setRail r x).mgmt = s.mgmt := rfl
@[simp] theorem State.setRail_board (s : State) (r : Nat) (x : Rail) : (s.setRail r x).board = s.board := rfl
@[simp] theorem State.setRail_out (s : State) (r : Nat) (x : Rail) : (s.setRail r x).out = s.out := rfl
@[simp] theorem State.setPort_pending (s : State) (p : Nat) (x : Port) : (s.setPort p x).pending = s.pending := rfl
@[simp] theorem State.setPort_inflight (s : State) (p : Nat) (x : Port) : (s.setPort p x).inflight = s.inflight := rfl
@[simp] theorem State.setPort_free (s : State) (p : Nat) (x : Port) : (s.setPort p x).free = s.free := rfl
@[simp] theorem State.setPort_time (s : State) (p : Nat) (x : Port) : (s.setPort p x).time = s.time := rfl
@[simp] theorem State.setPort_cores (s : State) (p : Nat) (x : Port) : (s.setPort p x).cores = s.cores := rfl
@[simp] theorem State.setPort_resetEntry (s : State) (p : Nat) (x : Port) : (s.setPort p x).resetEntry = s.resetEntry := rfl
@[simp] theorem State.setPort_hier (s : State) (p : Nat) (x : Port) : (s.setPort p x).hier = s.hier := rfl
@[simp] theorem State.setPort_router (s : State) (p : Nat) (x : Port) : (s.setPort p x).router = s.router := rfl
@[simp] theorem State.setPort_qos (s : State) (p : Nat) (x : Port) : (s.setPort p x).qos = s.qos := rfl
@[simp] theorem State.setPort_sec (s : State) (p : Nat) (x : Port) : (s.setPort p x).sec = s.sec := rfl
@[simp] theorem State.setPort_power (s : State) (p : Nat) (x : Port) : (s.setPort p x).power = s.power := rfl
@[simp] theorem State.setPort_seq (s : State) (p : Nat) (x : Port) : (s.setPort p x).seq = s.seq := rfl
@[simp] theorem State.setPort_junction (s : State) (p : Nat) (x : Port) : (s.setPort p x).junction = s.junction := rfl
@[simp] theorem State.setPort_viol (s : State) (p : Nat) (x : Port) : (s.setPort p x).viol = s.viol := rfl
@[simp] theorem State.setPort_fenced (s : State) (p : Nat) (x : Port) : (s.setPort p x).fenced = s.fenced := rfl
@[simp] theorem State.setPort_mirror (s : State) (p : Nat) (x : Port) : (s.setPort p x).mirror = s.mirror := rfl
@[simp] theorem State.setPort_engines (s : State) (p : Nat) (x : Port) : (s.setPort p x).engines = s.engines := rfl
@[simp] theorem State.setPort_qps (s : State) (p : Nat) (x : Port) : (s.setPort p x).qps = s.qps := rfl
@[simp] theorem State.setPort_guest (s : State) (p : Nat) (x : Port) : (s.setPort p x).guest = s.guest := rfl
@[simp] theorem State.setPort_lanes (s : State) (p : Nat) (x : Port) : (s.setPort p x).lanes = s.lanes := rfl
@[simp] theorem State.setPort_readers (s : State) (p : Nat) (x : Port) : (s.setPort p x).readers = s.readers := rfl
@[simp] theorem State.setPort_writers (s : State) (p : Nat) (x : Port) : (s.setPort p x).writers = s.writers := rfl
@[simp] theorem State.setPort_fc (s : State) (p : Nat) (x : Port) : (s.setPort p x).fc = s.fc := rfl
@[simp] theorem State.setPort_mgmt (s : State) (p : Nat) (x : Port) : (s.setPort p x).mgmt = s.mgmt := rfl
@[simp] theorem State.setPort_board (s : State) (p : Nat) (x : Port) : (s.setPort p x).board = s.board := rfl
@[simp] theorem State.setPort_out (s : State) (p : Nat) (x : Port) : (s.setPort p x).out = s.out := rfl
@[simp] theorem State.setEng_pending (s : State) (e : Nat) (x : QEng) : (s.setEng e x).pending = s.pending := rfl
@[simp] theorem State.setEng_inflight (s : State) (e : Nat) (x : QEng) : (s.setEng e x).inflight = s.inflight := rfl
@[simp] theorem State.setEng_free (s : State) (e : Nat) (x : QEng) : (s.setEng e x).free = s.free := rfl
@[simp] theorem State.setEng_time (s : State) (e : Nat) (x : QEng) : (s.setEng e x).time = s.time := rfl
@[simp] theorem State.setEng_cores (s : State) (e : Nat) (x : QEng) : (s.setEng e x).cores = s.cores := rfl
@[simp] theorem State.setEng_resetEntry (s : State) (e : Nat) (x : QEng) : (s.setEng e x).resetEntry = s.resetEntry := rfl
@[simp] theorem State.setEng_hier (s : State) (e : Nat) (x : QEng) : (s.setEng e x).hier = s.hier := rfl
@[simp] theorem State.setEng_router (s : State) (e : Nat) (x : QEng) : (s.setEng e x).router = s.router := rfl
@[simp] theorem State.setEng_qos (s : State) (e : Nat) (x : QEng) : (s.setEng e x).qos = s.qos := rfl
@[simp] theorem State.setEng_sec (s : State) (e : Nat) (x : QEng) : (s.setEng e x).sec = s.sec := rfl
@[simp] theorem State.setEng_power (s : State) (e : Nat) (x : QEng) : (s.setEng e x).power = s.power := rfl
@[simp] theorem State.setEng_seq (s : State) (e : Nat) (x : QEng) : (s.setEng e x).seq = s.seq := rfl
@[simp] theorem State.setEng_junction (s : State) (e : Nat) (x : QEng) : (s.setEng e x).junction = s.junction := rfl
@[simp] theorem State.setEng_viol (s : State) (e : Nat) (x : QEng) : (s.setEng e x).viol = s.viol := rfl
@[simp] theorem State.setEng_fenced (s : State) (e : Nat) (x : QEng) : (s.setEng e x).fenced = s.fenced := rfl
@[simp] theorem State.setEng_mirror (s : State) (e : Nat) (x : QEng) : (s.setEng e x).mirror = s.mirror := rfl
@[simp] theorem State.setEng_ports (s : State) (e : Nat) (x : QEng) : (s.setEng e x).ports = s.ports := rfl
@[simp] theorem State.setEng_qps (s : State) (e : Nat) (x : QEng) : (s.setEng e x).qps = s.qps := rfl
@[simp] theorem State.setEng_guest (s : State) (e : Nat) (x : QEng) : (s.setEng e x).guest = s.guest := rfl
@[simp] theorem State.setEng_lanes (s : State) (e : Nat) (x : QEng) : (s.setEng e x).lanes = s.lanes := rfl
@[simp] theorem State.setEng_readers (s : State) (e : Nat) (x : QEng) : (s.setEng e x).readers = s.readers := rfl
@[simp] theorem State.setEng_writers (s : State) (e : Nat) (x : QEng) : (s.setEng e x).writers = s.writers := rfl
@[simp] theorem State.setEng_fc (s : State) (e : Nat) (x : QEng) : (s.setEng e x).fc = s.fc := rfl
@[simp] theorem State.setEng_mgmt (s : State) (e : Nat) (x : QEng) : (s.setEng e x).mgmt = s.mgmt := rfl
@[simp] theorem State.setEng_board (s : State) (e : Nat) (x : QEng) : (s.setEng e x).board = s.board := rfl
@[simp] theorem State.setEng_out (s : State) (e : Nat) (x : QEng) : (s.setEng e x).out = s.out := rfl
@[simp] theorem State.setQp_pending (s : State) (n : Nat) (q : Qp) : (s.setQp n q).pending = s.pending := rfl
@[simp] theorem State.setQp_inflight (s : State) (n : Nat) (q : Qp) : (s.setQp n q).inflight = s.inflight := rfl
@[simp] theorem State.setQp_free (s : State) (n : Nat) (q : Qp) : (s.setQp n q).free = s.free := rfl
@[simp] theorem State.setQp_time (s : State) (n : Nat) (q : Qp) : (s.setQp n q).time = s.time := rfl
@[simp] theorem State.setQp_cores (s : State) (n : Nat) (q : Qp) : (s.setQp n q).cores = s.cores := rfl
@[simp] theorem State.setQp_resetEntry (s : State) (n : Nat) (q : Qp) : (s.setQp n q).resetEntry = s.resetEntry := rfl
@[simp] theorem State.setQp_hier (s : State) (n : Nat) (q : Qp) : (s.setQp n q).hier = s.hier := rfl
@[simp] theorem State.setQp_router (s : State) (n : Nat) (q : Qp) : (s.setQp n q).router = s.router := rfl
@[simp] theorem State.setQp_qos (s : State) (n : Nat) (q : Qp) : (s.setQp n q).qos = s.qos := rfl
@[simp] theorem State.setQp_sec (s : State) (n : Nat) (q : Qp) : (s.setQp n q).sec = s.sec := rfl
@[simp] theorem State.setQp_power (s : State) (n : Nat) (q : Qp) : (s.setQp n q).power = s.power := rfl
@[simp] theorem State.setQp_seq (s : State) (n : Nat) (q : Qp) : (s.setQp n q).seq = s.seq := rfl
@[simp] theorem State.setQp_junction (s : State) (n : Nat) (q : Qp) : (s.setQp n q).junction = s.junction := rfl
@[simp] theorem State.setQp_viol (s : State) (n : Nat) (q : Qp) : (s.setQp n q).viol = s.viol := rfl
@[simp] theorem State.setQp_fenced (s : State) (n : Nat) (q : Qp) : (s.setQp n q).fenced = s.fenced := rfl
@[simp] theorem State.setQp_mirror (s : State) (n : Nat) (q : Qp) : (s.setQp n q).mirror = s.mirror := rfl
@[simp] theorem State.setQp_ports (s : State) (n : Nat) (q : Qp) : (s.setQp n q).ports = s.ports := rfl
@[simp] theorem State.setQp_engines (s : State) (n : Nat) (q : Qp) : (s.setQp n q).engines = s.engines := rfl
@[simp] theorem State.setQp_guest (s : State) (n : Nat) (q : Qp) : (s.setQp n q).guest = s.guest := rfl
@[simp] theorem State.setQp_lanes (s : State) (n : Nat) (q : Qp) : (s.setQp n q).lanes = s.lanes := rfl
@[simp] theorem State.setQp_readers (s : State) (n : Nat) (q : Qp) : (s.setQp n q).readers = s.readers := rfl
@[simp] theorem State.setQp_writers (s : State) (n : Nat) (q : Qp) : (s.setQp n q).writers = s.writers := rfl
@[simp] theorem State.setQp_fc (s : State) (n : Nat) (q : Qp) : (s.setQp n q).fc = s.fc := rfl
@[simp] theorem State.setQp_mgmt (s : State) (n : Nat) (q : Qp) : (s.setQp n q).mgmt = s.mgmt := rfl
@[simp] theorem State.setQp_board (s : State) (n : Nat) (q : Qp) : (s.setQp n q).board = s.board := rfl
@[simp] theorem State.setQp_out (s : State) (n : Nat) (q : Qp) : (s.setQp n q).out = s.out := rfl
@[simp] theorem State.setQuiesce_pending (s : State) (q : Option Quiesce) : (s.setQuiesce q).pending = s.pending := rfl
@[simp] theorem State.setQuiesce_inflight (s : State) (q : Option Quiesce) : (s.setQuiesce q).inflight = s.inflight := rfl
@[simp] theorem State.setQuiesce_free (s : State) (q : Option Quiesce) : (s.setQuiesce q).free = s.free := rfl
@[simp] theorem State.setQuiesce_time (s : State) (q : Option Quiesce) : (s.setQuiesce q).time = s.time := rfl
@[simp] theorem State.setQuiesce_cores (s : State) (q : Option Quiesce) : (s.setQuiesce q).cores = s.cores := rfl
@[simp] theorem State.setQuiesce_resetEntry (s : State) (q : Option Quiesce) : (s.setQuiesce q).resetEntry = s.resetEntry := rfl
@[simp] theorem State.setQuiesce_hier (s : State) (q : Option Quiesce) : (s.setQuiesce q).hier = s.hier := rfl
@[simp] theorem State.setQuiesce_qos (s : State) (q : Option Quiesce) : (s.setQuiesce q).qos = s.qos := rfl
@[simp] theorem State.setQuiesce_sec (s : State) (q : Option Quiesce) : (s.setQuiesce q).sec = s.sec := rfl
@[simp] theorem State.setQuiesce_power (s : State) (q : Option Quiesce) : (s.setQuiesce q).power = s.power := rfl
@[simp] theorem State.setQuiesce_seq (s : State) (q : Option Quiesce) : (s.setQuiesce q).seq = s.seq := rfl
@[simp] theorem State.setQuiesce_junction (s : State) (q : Option Quiesce) : (s.setQuiesce q).junction = s.junction := rfl
@[simp] theorem State.setQuiesce_viol (s : State) (q : Option Quiesce) : (s.setQuiesce q).viol = s.viol := rfl
@[simp] theorem State.setQuiesce_fenced (s : State) (q : Option Quiesce) : (s.setQuiesce q).fenced = s.fenced := rfl
@[simp] theorem State.setQuiesce_mirror (s : State) (q : Option Quiesce) : (s.setQuiesce q).mirror = s.mirror := rfl
@[simp] theorem State.setQuiesce_ports (s : State) (q : Option Quiesce) : (s.setQuiesce q).ports = s.ports := rfl
@[simp] theorem State.setQuiesce_engines (s : State) (q : Option Quiesce) : (s.setQuiesce q).engines = s.engines := rfl
@[simp] theorem State.setQuiesce_qps (s : State) (q : Option Quiesce) : (s.setQuiesce q).qps = s.qps := rfl
@[simp] theorem State.setQuiesce_guest (s : State) (q : Option Quiesce) : (s.setQuiesce q).guest = s.guest := rfl
@[simp] theorem State.setQuiesce_lanes (s : State) (q : Option Quiesce) : (s.setQuiesce q).lanes = s.lanes := rfl
@[simp] theorem State.setQuiesce_readers (s : State) (q : Option Quiesce) : (s.setQuiesce q).readers = s.readers := rfl
@[simp] theorem State.setQuiesce_writers (s : State) (q : Option Quiesce) : (s.setQuiesce q).writers = s.writers := rfl
@[simp] theorem State.setQuiesce_fc (s : State) (q : Option Quiesce) : (s.setQuiesce q).fc = s.fc := rfl
@[simp] theorem State.setQuiesce_mgmt (s : State) (q : Option Quiesce) : (s.setQuiesce q).mgmt = s.mgmt := rfl
@[simp] theorem State.setQuiesce_board (s : State) (q : Option Quiesce) : (s.setQuiesce q).board = s.board := rfl
@[simp] theorem State.setQuiesce_out (s : State) (q : Option Quiesce) : (s.setQuiesce q).out = s.out := rfl
@[simp] theorem State.setTenant_pending (s : State) (t : BitVec 12) (x : Tenant) : (s.setTenant t x).pending = s.pending := rfl
@[simp] theorem State.setTenant_inflight (s : State) (t : BitVec 12) (x : Tenant) : (s.setTenant t x).inflight = s.inflight := rfl
@[simp] theorem State.setTenant_free (s : State) (t : BitVec 12) (x : Tenant) : (s.setTenant t x).free = s.free := rfl
@[simp] theorem State.setTenant_time (s : State) (t : BitVec 12) (x : Tenant) : (s.setTenant t x).time = s.time := rfl
@[simp] theorem State.setTenant_cores (s : State) (t : BitVec 12) (x : Tenant) : (s.setTenant t x).cores = s.cores := rfl
@[simp] theorem State.setTenant_resetEntry (s : State) (t : BitVec 12) (x : Tenant) : (s.setTenant t x).resetEntry = s.resetEntry := rfl
@[simp] theorem State.setTenant_hier (s : State) (t : BitVec 12) (x : Tenant) : (s.setTenant t x).hier = s.hier := rfl
@[simp] theorem State.setTenant_qos (s : State) (t : BitVec 12) (x : Tenant) : (s.setTenant t x).qos = s.qos := rfl
@[simp] theorem State.setTenant_sec (s : State) (t : BitVec 12) (x : Tenant) : (s.setTenant t x).sec = s.sec := rfl
@[simp] theorem State.setTenant_power (s : State) (t : BitVec 12) (x : Tenant) : (s.setTenant t x).power = s.power := rfl
@[simp] theorem State.setTenant_seq (s : State) (t : BitVec 12) (x : Tenant) : (s.setTenant t x).seq = s.seq := rfl
@[simp] theorem State.setTenant_junction (s : State) (t : BitVec 12) (x : Tenant) : (s.setTenant t x).junction = s.junction := rfl
@[simp] theorem State.setTenant_viol (s : State) (t : BitVec 12) (x : Tenant) : (s.setTenant t x).viol = s.viol := rfl
@[simp] theorem State.setTenant_fenced (s : State) (t : BitVec 12) (x : Tenant) : (s.setTenant t x).fenced = s.fenced := rfl
@[simp] theorem State.setTenant_mirror (s : State) (t : BitVec 12) (x : Tenant) : (s.setTenant t x).mirror = s.mirror := rfl
@[simp] theorem State.setTenant_ports (s : State) (t : BitVec 12) (x : Tenant) : (s.setTenant t x).ports = s.ports := rfl
@[simp] theorem State.setTenant_engines (s : State) (t : BitVec 12) (x : Tenant) : (s.setTenant t x).engines = s.engines := rfl
@[simp] theorem State.setTenant_qps (s : State) (t : BitVec 12) (x : Tenant) : (s.setTenant t x).qps = s.qps := rfl
@[simp] theorem State.setTenant_guest (s : State) (t : BitVec 12) (x : Tenant) : (s.setTenant t x).guest = s.guest := rfl
@[simp] theorem State.setTenant_lanes (s : State) (t : BitVec 12) (x : Tenant) : (s.setTenant t x).lanes = s.lanes := rfl
@[simp] theorem State.setTenant_readers (s : State) (t : BitVec 12) (x : Tenant) : (s.setTenant t x).readers = s.readers := rfl
@[simp] theorem State.setTenant_writers (s : State) (t : BitVec 12) (x : Tenant) : (s.setTenant t x).writers = s.writers := rfl
@[simp] theorem State.setTenant_fc (s : State) (t : BitVec 12) (x : Tenant) : (s.setTenant t x).fc = s.fc := rfl
@[simp] theorem State.setTenant_mgmt (s : State) (t : BitVec 12) (x : Tenant) : (s.setTenant t x).mgmt = s.mgmt := rfl
@[simp] theorem State.setTenant_board (s : State) (t : BitVec 12) (x : Tenant) : (s.setTenant t x).board = s.board := rfl
@[simp] theorem State.setTenant_out (s : State) (t : BitVec 12) (x : Tenant) : (s.setTenant t x).out = s.out := rfl
@[simp] theorem State.putRun_pending (s : State) (r : SeqRun) : (s.putRun r).pending = s.pending := rfl
@[simp] theorem State.putRun_inflight (s : State) (r : SeqRun) : (s.putRun r).inflight = s.inflight := rfl
@[simp] theorem State.putRun_free (s : State) (r : SeqRun) : (s.putRun r).free = s.free := rfl
@[simp] theorem State.putRun_time (s : State) (r : SeqRun) : (s.putRun r).time = s.time := rfl
@[simp] theorem State.putRun_cores (s : State) (r : SeqRun) : (s.putRun r).cores = s.cores := rfl
@[simp] theorem State.putRun_resetEntry (s : State) (r : SeqRun) : (s.putRun r).resetEntry = s.resetEntry := rfl
@[simp] theorem State.putRun_hier (s : State) (r : SeqRun) : (s.putRun r).hier = s.hier := rfl
@[simp] theorem State.putRun_router (s : State) (r : SeqRun) : (s.putRun r).router = s.router := rfl
@[simp] theorem State.putRun_qos (s : State) (r : SeqRun) : (s.putRun r).qos = s.qos := rfl
@[simp] theorem State.putRun_sec (s : State) (r : SeqRun) : (s.putRun r).sec = s.sec := rfl
@[simp] theorem State.putRun_power (s : State) (r : SeqRun) : (s.putRun r).power = s.power := rfl
@[simp] theorem State.putRun_junction (s : State) (r : SeqRun) : (s.putRun r).junction = s.junction := rfl
@[simp] theorem State.putRun_viol (s : State) (r : SeqRun) : (s.putRun r).viol = s.viol := rfl
@[simp] theorem State.putRun_fenced (s : State) (r : SeqRun) : (s.putRun r).fenced = s.fenced := rfl
@[simp] theorem State.putRun_mirror (s : State) (r : SeqRun) : (s.putRun r).mirror = s.mirror := rfl
@[simp] theorem State.putRun_ports (s : State) (r : SeqRun) : (s.putRun r).ports = s.ports := rfl
@[simp] theorem State.putRun_engines (s : State) (r : SeqRun) : (s.putRun r).engines = s.engines := rfl
@[simp] theorem State.putRun_qps (s : State) (r : SeqRun) : (s.putRun r).qps = s.qps := rfl
@[simp] theorem State.putRun_guest (s : State) (r : SeqRun) : (s.putRun r).guest = s.guest := rfl
@[simp] theorem State.putRun_lanes (s : State) (r : SeqRun) : (s.putRun r).lanes = s.lanes := rfl
@[simp] theorem State.putRun_readers (s : State) (r : SeqRun) : (s.putRun r).readers = s.readers := rfl
@[simp] theorem State.putRun_writers (s : State) (r : SeqRun) : (s.putRun r).writers = s.writers := rfl
@[simp] theorem State.putRun_fc (s : State) (r : SeqRun) : (s.putRun r).fc = s.fc := rfl
@[simp] theorem State.putRun_mgmt (s : State) (r : SeqRun) : (s.putRun r).mgmt = s.mgmt := rfl
@[simp] theorem State.putRun_board (s : State) (r : SeqRun) : (s.putRun r).board = s.board := rfl
@[simp] theorem State.putRun_out (s : State) (r : SeqRun) : (s.putRun r).out = s.out := rfl
@[simp] theorem State.setRun_pending (s : State) (r : Option WardenRun) : (s.setRun r).pending = s.pending := rfl
@[simp] theorem State.setRun_inflight (s : State) (r : Option WardenRun) : (s.setRun r).inflight = s.inflight := rfl
@[simp] theorem State.setRun_free (s : State) (r : Option WardenRun) : (s.setRun r).free = s.free := rfl
@[simp] theorem State.setRun_time (s : State) (r : Option WardenRun) : (s.setRun r).time = s.time := rfl
@[simp] theorem State.setRun_cores (s : State) (r : Option WardenRun) : (s.setRun r).cores = s.cores := rfl
@[simp] theorem State.setRun_resetEntry (s : State) (r : Option WardenRun) : (s.setRun r).resetEntry = s.resetEntry := rfl
@[simp] theorem State.setRun_hier (s : State) (r : Option WardenRun) : (s.setRun r).hier = s.hier := rfl
@[simp] theorem State.setRun_router (s : State) (r : Option WardenRun) : (s.setRun r).router = s.router := rfl
@[simp] theorem State.setRun_qos (s : State) (r : Option WardenRun) : (s.setRun r).qos = s.qos := rfl
@[simp] theorem State.setRun_power (s : State) (r : Option WardenRun) : (s.setRun r).power = s.power := rfl
@[simp] theorem State.setRun_seq (s : State) (r : Option WardenRun) : (s.setRun r).seq = s.seq := rfl
@[simp] theorem State.setRun_junction (s : State) (r : Option WardenRun) : (s.setRun r).junction = s.junction := rfl
@[simp] theorem State.setRun_viol (s : State) (r : Option WardenRun) : (s.setRun r).viol = s.viol := rfl
@[simp] theorem State.setRun_fenced (s : State) (r : Option WardenRun) : (s.setRun r).fenced = s.fenced := rfl
@[simp] theorem State.setRun_mirror (s : State) (r : Option WardenRun) : (s.setRun r).mirror = s.mirror := rfl
@[simp] theorem State.setRun_ports (s : State) (r : Option WardenRun) : (s.setRun r).ports = s.ports := rfl
@[simp] theorem State.setRun_engines (s : State) (r : Option WardenRun) : (s.setRun r).engines = s.engines := rfl
@[simp] theorem State.setRun_qps (s : State) (r : Option WardenRun) : (s.setRun r).qps = s.qps := rfl
@[simp] theorem State.setRun_guest (s : State) (r : Option WardenRun) : (s.setRun r).guest = s.guest := rfl
@[simp] theorem State.setRun_lanes (s : State) (r : Option WardenRun) : (s.setRun r).lanes = s.lanes := rfl
@[simp] theorem State.setRun_readers (s : State) (r : Option WardenRun) : (s.setRun r).readers = s.readers := rfl
@[simp] theorem State.setRun_writers (s : State) (r : Option WardenRun) : (s.setRun r).writers = s.writers := rfl
@[simp] theorem State.setRun_fc (s : State) (r : Option WardenRun) : (s.setRun r).fc = s.fc := rfl
@[simp] theorem State.setRun_mgmt (s : State) (r : Option WardenRun) : (s.setRun r).mgmt = s.mgmt := rfl
@[simp] theorem State.setRun_board (s : State) (r : Option WardenRun) : (s.setRun r).board = s.board := rfl
@[simp] theorem State.setRun_out (s : State) (r : Option WardenRun) : (s.setRun r).out = s.out := rfl
@[simp] theorem State.send_pending (s : State) (m : Instr) : (s.send m).pending = s.pending := rfl
@[simp] theorem State.send_free (s : State) (m : Instr) : (s.send m).free = s.free := rfl
@[simp] theorem State.send_time (s : State) (m : Instr) : (s.send m).time = s.time := rfl
@[simp] theorem State.send_cores (s : State) (m : Instr) : (s.send m).cores = s.cores := rfl
@[simp] theorem State.send_resetEntry (s : State) (m : Instr) : (s.send m).resetEntry = s.resetEntry := rfl
@[simp] theorem State.send_hier (s : State) (m : Instr) : (s.send m).hier = s.hier := rfl
@[simp] theorem State.send_router (s : State) (m : Instr) : (s.send m).router = s.router := rfl
@[simp] theorem State.send_qos (s : State) (m : Instr) : (s.send m).qos = s.qos := rfl
@[simp] theorem State.send_sec (s : State) (m : Instr) : (s.send m).sec = s.sec := rfl
@[simp] theorem State.send_power (s : State) (m : Instr) : (s.send m).power = s.power := rfl
@[simp] theorem State.send_seq (s : State) (m : Instr) : (s.send m).seq = s.seq := rfl
@[simp] theorem State.send_junction (s : State) (m : Instr) : (s.send m).junction = s.junction := rfl
@[simp] theorem State.send_viol (s : State) (m : Instr) : (s.send m).viol = s.viol := rfl
@[simp] theorem State.send_fenced (s : State) (m : Instr) : (s.send m).fenced = s.fenced := rfl
@[simp] theorem State.send_mirror (s : State) (m : Instr) : (s.send m).mirror = s.mirror := rfl
@[simp] theorem State.send_ports (s : State) (m : Instr) : (s.send m).ports = s.ports := rfl
@[simp] theorem State.send_engines (s : State) (m : Instr) : (s.send m).engines = s.engines := rfl
@[simp] theorem State.send_qps (s : State) (m : Instr) : (s.send m).qps = s.qps := rfl
@[simp] theorem State.send_guest (s : State) (m : Instr) : (s.send m).guest = s.guest := rfl
@[simp] theorem State.send_lanes (s : State) (m : Instr) : (s.send m).lanes = s.lanes := rfl
@[simp] theorem State.send_readers (s : State) (m : Instr) : (s.send m).readers = s.readers := rfl
@[simp] theorem State.send_writers (s : State) (m : Instr) : (s.send m).writers = s.writers := rfl
@[simp] theorem State.send_fc (s : State) (m : Instr) : (s.send m).fc = s.fc := rfl
@[simp] theorem State.send_mgmt (s : State) (m : Instr) : (s.send m).mgmt = s.mgmt := rfl
@[simp] theorem State.send_board (s : State) (m : Instr) : (s.send m).board = s.board := rfl
@[simp] theorem State.send_out (s : State) (m : Instr) : (s.send m).out = s.out := rfl
@[simp] theorem State.sendAll_pending (s : State) (ms : List Instr) : (s.sendAll ms).pending = s.pending := rfl
@[simp] theorem State.sendAll_free (s : State) (ms : List Instr) : (s.sendAll ms).free = s.free := rfl
@[simp] theorem State.sendAll_time (s : State) (ms : List Instr) : (s.sendAll ms).time = s.time := rfl
@[simp] theorem State.sendAll_cores (s : State) (ms : List Instr) : (s.sendAll ms).cores = s.cores := rfl
@[simp] theorem State.sendAll_resetEntry (s : State) (ms : List Instr) : (s.sendAll ms).resetEntry = s.resetEntry := rfl
@[simp] theorem State.sendAll_hier (s : State) (ms : List Instr) : (s.sendAll ms).hier = s.hier := rfl
@[simp] theorem State.sendAll_router (s : State) (ms : List Instr) : (s.sendAll ms).router = s.router := rfl
@[simp] theorem State.sendAll_qos (s : State) (ms : List Instr) : (s.sendAll ms).qos = s.qos := rfl
@[simp] theorem State.sendAll_sec (s : State) (ms : List Instr) : (s.sendAll ms).sec = s.sec := rfl
@[simp] theorem State.sendAll_power (s : State) (ms : List Instr) : (s.sendAll ms).power = s.power := rfl
@[simp] theorem State.sendAll_seq (s : State) (ms : List Instr) : (s.sendAll ms).seq = s.seq := rfl
@[simp] theorem State.sendAll_junction (s : State) (ms : List Instr) : (s.sendAll ms).junction = s.junction := rfl
@[simp] theorem State.sendAll_viol (s : State) (ms : List Instr) : (s.sendAll ms).viol = s.viol := rfl
@[simp] theorem State.sendAll_fenced (s : State) (ms : List Instr) : (s.sendAll ms).fenced = s.fenced := rfl
@[simp] theorem State.sendAll_mirror (s : State) (ms : List Instr) : (s.sendAll ms).mirror = s.mirror := rfl
@[simp] theorem State.sendAll_ports (s : State) (ms : List Instr) : (s.sendAll ms).ports = s.ports := rfl
@[simp] theorem State.sendAll_engines (s : State) (ms : List Instr) : (s.sendAll ms).engines = s.engines := rfl
@[simp] theorem State.sendAll_qps (s : State) (ms : List Instr) : (s.sendAll ms).qps = s.qps := rfl
@[simp] theorem State.sendAll_guest (s : State) (ms : List Instr) : (s.sendAll ms).guest = s.guest := rfl
@[simp] theorem State.sendAll_lanes (s : State) (ms : List Instr) : (s.sendAll ms).lanes = s.lanes := rfl
@[simp] theorem State.sendAll_readers (s : State) (ms : List Instr) : (s.sendAll ms).readers = s.readers := rfl
@[simp] theorem State.sendAll_writers (s : State) (ms : List Instr) : (s.sendAll ms).writers = s.writers := rfl
@[simp] theorem State.sendAll_fc (s : State) (ms : List Instr) : (s.sendAll ms).fc = s.fc := rfl
@[simp] theorem State.sendAll_mgmt (s : State) (ms : List Instr) : (s.sendAll ms).mgmt = s.mgmt := rfl
@[simp] theorem State.sendAll_board (s : State) (ms : List Instr) : (s.sendAll ms).board = s.board := rfl
@[simp] theorem State.sendAll_out (s : State) (ms : List Instr) : (s.sendAll ms).out = s.out := rfl
@[simp] theorem State.arrive_pending (s : State) (m : Instr) : (s.arrive m).pending = s.pending := rfl
@[simp] theorem State.arrive_free (s : State) (m : Instr) : (s.arrive m).free = s.free := rfl
@[simp] theorem State.arrive_time (s : State) (m : Instr) : (s.arrive m).time = s.time := rfl
@[simp] theorem State.arrive_cores (s : State) (m : Instr) : (s.arrive m).cores = s.cores := rfl
@[simp] theorem State.arrive_resetEntry (s : State) (m : Instr) : (s.arrive m).resetEntry = s.resetEntry := rfl
@[simp] theorem State.arrive_hier (s : State) (m : Instr) :
    (s.arrive m).hier = { s.hier with flights := s.hier.flights.eraseP (·.msg == m) } := rfl
@[simp] theorem State.arrive_router (s : State) (m : Instr) : (s.arrive m).router = s.router := rfl
@[simp] theorem State.arrive_qos (s : State) (m : Instr) : (s.arrive m).qos = s.qos := rfl
@[simp] theorem State.arrive_sec (s : State) (m : Instr) : (s.arrive m).sec = s.sec := rfl
@[simp] theorem State.arrive_power (s : State) (m : Instr) : (s.arrive m).power = s.power := rfl
@[simp] theorem State.arrive_seq (s : State) (m : Instr) : (s.arrive m).seq = s.seq := rfl
@[simp] theorem State.arrive_junction (s : State) (m : Instr) : (s.arrive m).junction = s.junction := rfl
@[simp] theorem State.arrive_viol (s : State) (m : Instr) : (s.arrive m).viol = s.viol := rfl
@[simp] theorem State.arrive_fenced (s : State) (m : Instr) : (s.arrive m).fenced = s.fenced := rfl
@[simp] theorem State.arrive_mirror (s : State) (m : Instr) : (s.arrive m).mirror = s.mirror := rfl
@[simp] theorem State.arrive_ports (s : State) (m : Instr) : (s.arrive m).ports = s.ports := rfl
@[simp] theorem State.arrive_engines (s : State) (m : Instr) : (s.arrive m).engines = s.engines := rfl
@[simp] theorem State.arrive_qps (s : State) (m : Instr) : (s.arrive m).qps = s.qps := rfl
@[simp] theorem State.arrive_guest (s : State) (m : Instr) : (s.arrive m).guest = s.guest := rfl
@[simp] theorem State.arrive_lanes (s : State) (m : Instr) : (s.arrive m).lanes = s.lanes := rfl
@[simp] theorem State.arrive_readers (s : State) (m : Instr) : (s.arrive m).readers = s.readers := rfl
@[simp] theorem State.arrive_writers (s : State) (m : Instr) : (s.arrive m).writers = s.writers := rfl
@[simp] theorem State.arrive_fc (s : State) (m : Instr) : (s.arrive m).fc = s.fc := rfl
@[simp] theorem State.arrive_mgmt (s : State) (m : Instr) : (s.arrive m).mgmt = s.mgmt := rfl
@[simp] theorem State.arrive_board (s : State) (m : Instr) : (s.arrive m).board = s.board := rfl
@[simp] theorem State.arrive_out (s : State) (m : Instr) : (s.arrive m).out = s.out := rfl
@[simp] theorem State.violate_pending (s : State) (blk : Nat) : (s.violate blk).pending = s.pending := rfl
@[simp] theorem State.violate_inflight (s : State) (blk : Nat) : (s.violate blk).inflight = s.inflight := rfl
@[simp] theorem State.violate_free (s : State) (blk : Nat) : (s.violate blk).free = s.free := rfl
@[simp] theorem State.violate_time (s : State) (blk : Nat) : (s.violate blk).time = s.time := rfl
@[simp] theorem State.violate_cores (s : State) (blk : Nat) : (s.violate blk).cores = s.cores := rfl
@[simp] theorem State.violate_resetEntry (s : State) (blk : Nat) : (s.violate blk).resetEntry = s.resetEntry := rfl
@[simp] theorem State.violate_hier (s : State) (blk : Nat) : (s.violate blk).hier = s.hier := rfl
@[simp] theorem State.violate_router (s : State) (blk : Nat) : (s.violate blk).router = s.router := rfl
@[simp] theorem State.violate_qos (s : State) (blk : Nat) : (s.violate blk).qos = s.qos := rfl
@[simp] theorem State.violate_sec (s : State) (blk : Nat) : (s.violate blk).sec = s.sec := rfl
@[simp] theorem State.violate_power (s : State) (blk : Nat) : (s.violate blk).power = s.power := rfl
@[simp] theorem State.violate_seq (s : State) (blk : Nat) : (s.violate blk).seq = s.seq := rfl
@[simp] theorem State.violate_junction (s : State) (blk : Nat) : (s.violate blk).junction = s.junction := rfl
@[simp] theorem State.violate_fenced (s : State) (blk : Nat) : (s.violate blk).fenced = s.fenced := rfl
@[simp] theorem State.violate_mirror (s : State) (blk : Nat) : (s.violate blk).mirror = s.mirror := rfl
@[simp] theorem State.violate_ports (s : State) (blk : Nat) : (s.violate blk).ports = s.ports := rfl
@[simp] theorem State.violate_engines (s : State) (blk : Nat) : (s.violate blk).engines = s.engines := rfl
@[simp] theorem State.violate_qps (s : State) (blk : Nat) : (s.violate blk).qps = s.qps := rfl
@[simp] theorem State.violate_guest (s : State) (blk : Nat) : (s.violate blk).guest = s.guest := rfl
@[simp] theorem State.violate_lanes (s : State) (blk : Nat) : (s.violate blk).lanes = s.lanes := rfl
@[simp] theorem State.violate_readers (s : State) (blk : Nat) : (s.violate blk).readers = s.readers := rfl
@[simp] theorem State.violate_writers (s : State) (blk : Nat) : (s.violate blk).writers = s.writers := rfl
@[simp] theorem State.violate_fc (s : State) (blk : Nat) : (s.violate blk).fc = s.fc := rfl
@[simp] theorem State.violate_mgmt (s : State) (blk : Nat) : (s.violate blk).mgmt = s.mgmt := rfl
@[simp] theorem State.violate_board (s : State) (blk : Nat) : (s.violate blk).board = s.board := rfl
@[simp] theorem State.violate_out (s : State) (blk : Nat) : (s.violate blk).out = s.out := rfl
@[simp] theorem State.fault_pending (s : State) (src : BitVec 16) (kind : BitVec 8) (tid : Option (BitVec 12)) (addr : Nat) : (s.fault src kind tid addr).pending = s.pending := rfl
@[simp] theorem State.fault_free (s : State) (src : BitVec 16) (kind : BitVec 8) (tid : Option (BitVec 12)) (addr : Nat) : (s.fault src kind tid addr).free = s.free := rfl
@[simp] theorem State.fault_time (s : State) (src : BitVec 16) (kind : BitVec 8) (tid : Option (BitVec 12)) (addr : Nat) : (s.fault src kind tid addr).time = s.time := rfl
@[simp] theorem State.fault_cores (s : State) (src : BitVec 16) (kind : BitVec 8) (tid : Option (BitVec 12)) (addr : Nat) : (s.fault src kind tid addr).cores = s.cores := rfl
@[simp] theorem State.fault_resetEntry (s : State) (src : BitVec 16) (kind : BitVec 8) (tid : Option (BitVec 12)) (addr : Nat) : (s.fault src kind tid addr).resetEntry = s.resetEntry := rfl
@[simp] theorem State.fault_hier (s : State) (src : BitVec 16) (kind : BitVec 8) (tid : Option (BitVec 12)) (addr : Nat) : (s.fault src kind tid addr).hier = s.hier := rfl
@[simp] theorem State.fault_router (s : State) (src : BitVec 16) (kind : BitVec 8) (tid : Option (BitVec 12)) (addr : Nat) : (s.fault src kind tid addr).router = s.router := rfl
@[simp] theorem State.fault_qos (s : State) (src : BitVec 16) (kind : BitVec 8) (tid : Option (BitVec 12)) (addr : Nat) : (s.fault src kind tid addr).qos = s.qos := rfl
@[simp] theorem State.fault_sec (s : State) (src : BitVec 16) (kind : BitVec 8) (tid : Option (BitVec 12)) (addr : Nat) : (s.fault src kind tid addr).sec = s.sec := rfl
@[simp] theorem State.fault_power (s : State) (src : BitVec 16) (kind : BitVec 8) (tid : Option (BitVec 12)) (addr : Nat) : (s.fault src kind tid addr).power = s.power := rfl
@[simp] theorem State.fault_seq (s : State) (src : BitVec 16) (kind : BitVec 8) (tid : Option (BitVec 12)) (addr : Nat) : (s.fault src kind tid addr).seq = s.seq := rfl
@[simp] theorem State.fault_junction (s : State) (src : BitVec 16) (kind : BitVec 8) (tid : Option (BitVec 12)) (addr : Nat) : (s.fault src kind tid addr).junction = s.junction := rfl
@[simp] theorem State.fault_viol (s : State) (src : BitVec 16) (kind : BitVec 8) (tid : Option (BitVec 12)) (addr : Nat) : (s.fault src kind tid addr).viol = s.viol := rfl
@[simp] theorem State.fault_fenced (s : State) (src : BitVec 16) (kind : BitVec 8) (tid : Option (BitVec 12)) (addr : Nat) : (s.fault src kind tid addr).fenced = s.fenced := rfl
@[simp] theorem State.fault_mirror (s : State) (src : BitVec 16) (kind : BitVec 8) (tid : Option (BitVec 12)) (addr : Nat) : (s.fault src kind tid addr).mirror = s.mirror := rfl
@[simp] theorem State.fault_ports (s : State) (src : BitVec 16) (kind : BitVec 8) (tid : Option (BitVec 12)) (addr : Nat) : (s.fault src kind tid addr).ports = s.ports := rfl
@[simp] theorem State.fault_engines (s : State) (src : BitVec 16) (kind : BitVec 8) (tid : Option (BitVec 12)) (addr : Nat) : (s.fault src kind tid addr).engines = s.engines := rfl
@[simp] theorem State.fault_qps (s : State) (src : BitVec 16) (kind : BitVec 8) (tid : Option (BitVec 12)) (addr : Nat) : (s.fault src kind tid addr).qps = s.qps := rfl
@[simp] theorem State.fault_guest (s : State) (src : BitVec 16) (kind : BitVec 8) (tid : Option (BitVec 12)) (addr : Nat) : (s.fault src kind tid addr).guest = s.guest := rfl
@[simp] theorem State.fault_lanes (s : State) (src : BitVec 16) (kind : BitVec 8) (tid : Option (BitVec 12)) (addr : Nat) : (s.fault src kind tid addr).lanes = s.lanes := rfl
@[simp] theorem State.fault_readers (s : State) (src : BitVec 16) (kind : BitVec 8) (tid : Option (BitVec 12)) (addr : Nat) : (s.fault src kind tid addr).readers = s.readers := rfl
@[simp] theorem State.fault_writers (s : State) (src : BitVec 16) (kind : BitVec 8) (tid : Option (BitVec 12)) (addr : Nat) : (s.fault src kind tid addr).writers = s.writers := rfl
@[simp] theorem State.fault_fc (s : State) (src : BitVec 16) (kind : BitVec 8) (tid : Option (BitVec 12)) (addr : Nat) : (s.fault src kind tid addr).fc = s.fc := rfl
@[simp] theorem State.fault_mgmt (s : State) (src : BitVec 16) (kind : BitVec 8) (tid : Option (BitVec 12)) (addr : Nat) : (s.fault src kind tid addr).mgmt = s.mgmt := rfl
@[simp] theorem State.fault_board (s : State) (src : BitVec 16) (kind : BitVec 8) (tid : Option (BitVec 12)) (addr : Nat) : (s.fault src kind tid addr).board = s.board := rfl
@[simp] theorem State.fault_out (s : State) (src : BitVec 16) (kind : BitVec 8) (tid : Option (BitVec 12)) (addr : Nat) : (s.fault src kind tid addr).out = s.out := rfl

@[simp] theorem State.setCore_cores (s : State) (g : Nat) (c : Core) : (s.setCore g c).cores = tput s.cores g c := rfl
@[simp] theorem State.modCore_cores (s : State) (g : Nat) (f : Core → Core) :
    (s.modCore g f).cores = tput s.cores g (f (s.core g)) := rfl
@[simp] theorem State.send_inflight (s : State) (m : Instr) : (s.send m).inflight = s.inflight ++ [m] := rfl
@[simp] theorem State.arrive_inflight (s : State) (m : Instr) : (s.arrive m).inflight = s.inflight.erase m := rfl

end Sys2Proof.Machine
end

