-- ==== Sys2Proof/Laws/Table.lean ====
section
/-! SUPPORT. What placing and removing an entry of a table leave, and the laws of memory under the canonical form. -/

namespace Sys2Proof.Machine

@[simp] theorem tfind_tput_same {α : Type} (t : Table α) (k : Nat) (v : α) : tfind? (tput t k v) k = some v := by
  induction t with
  | nil => simp [tput, tfind?]
  | cons e t ih =>
    obtain ⟨j, u⟩ := e
    unfold tput
    split
    · simp [tfind?]
    · split
      · simp [tfind?]
      · simp only [tfind?]
        split
        · omega
        · exact ih

theorem tfind_tput_ne {α : Type} (t : Table α) (k j : Nat) (v : α) (h : j ≠ k) : tfind? (tput t k v) j = tfind? t j := by
  induction t with
  | nil => simp [tput, tfind?, Ne.symm h]
  | cons e t ih =>
    obtain ⟨i, u⟩ := e
    unfold tput
    split
    · simp [tfind?, Ne.symm h]
    · split
      · next h2 => subst h2; simp [tfind?, Ne.symm h]
      · simp only [tfind?, ih]

@[simp] theorem tfind_tdel_same {α : Type} (t : Table α) (k : Nat) : tfind? (tdel t k) k = none := by
  induction t with
  | nil => simp [tdel, tfind?]
  | cons e t ih =>
    obtain ⟨i, u⟩ := e
    unfold tdel at ih ⊢
    by_cases h : i = k <;> simp_all [tfind?]

theorem tfind_tdel_ne {α : Type} (t : Table α) (k j : Nat) (h : j ≠ k) : tfind? (tdel t k) j = tfind? t j := by
  induction t with
  | nil => simp [tdel, tfind?]
  | cons e t ih =>
    obtain ⟨i, u⟩ := e
    unfold tdel at ih ⊢
    by_cases h2 : i = k
    · subst h2; simp_all [tfind?, Ne.symm h]
    · simp [tfind?, h2, ih]

@[simp] theorem tget_tput_same {α : Type} (t : Table α) (k : Nat) (v d : α) : tget (tput t k v) k d = v := by
  simp [tget]

theorem tget_tput_ne {α : Type} (t : Table α) (k j : Nat) (v d : α) (h : j ≠ k) : tget (tput t k v) j d = tget t j d := by
  simp [tget, tfind_tput_ne t k j v h]

@[simp] theorem tget_nil {α : Type} (k : Nat) (d : α) : tget [] k d = d := rfl

/-! ### Memory -/

theorem memWf_tail {c : Host.Cell} {l : List Host.Cell} (h : memWf (c :: l) = true) : memWf l = true := by
  cases l with
  | nil => rfl
  | cons d l => simp [memWf] at h; exact h.2

theorem memWf_head {c : Host.Cell} {l : List Host.Cell} (h : memWf (c :: l) = true) : c.2 ≠ unlistedByte := by
  cases l <;> simp [memWf] at h <;> first | exact h | exact h.1.1

theorem memWf_cons {c : Host.Cell} {l : List Host.Cell} (h : memWf l = true) (h1 : c.2 ≠ unlistedByte)
    (h2 : ∀ d, l.head? = some d → c.1 < d.1) : memWf (c :: l) = true := by
  cases l with
  | nil => simp [memWf, h1]
  | cons d l => simp [memWf, h1, h, h2 d rfl]

theorem memWf_lt {c : Host.Cell} {l : List Host.Cell} (h : memWf (c :: l) = true) (d : Host.Cell)
    (hd : l.head? = some d) : c.1 < d.1 := by
  cases l with
  | nil => simp at hd
  | cons e l => simp [memWf] at h; simp at hd; subst hd; exact h.1.2

theorem memWrite_head (l : List Host.Cell) (a : Nat) (b : Byte) (c d : Host.Cell) (h : memWf (c :: l) = true)
    (ha : c.1 < a) (hd : (memWrite l a b).head? = some d) : c.1 < d.1 := by
  cases l with
  | nil => unfold memWrite at hd; split at hd <;> simp at hd; subst hd; exact ha
  | cons e l =>
    have h1 := memWf_lt h e rfl
    unfold memWrite at hd
    split at hd
    · split at hd <;> simp at hd <;> subst hd <;> assumption
    · split at hd
      · split at hd
        · have := memWf_lt (memWf_tail h) d hd; omega
        · simp at hd; subst hd; exact ha
      · simp at hd; subst hd; exact h1

/-- A write keeps the canonical form. -/
theorem memWrite_wf (m : List Host.Cell) (a : Nat) (b : Byte) (h : memWf m = true) : memWf (memWrite m a b) = true := by
  induction m with
  | nil => unfold memWrite; split <;> simp_all [memWf]
  | cons c l ih =>
    unfold memWrite
    split
    · split
      · exact h
      · next h1 h2 => exact memWf_cons h h2 (by intro d hd; simp at hd; subst hd; exact h1)
    · split
      · split
        · exact memWf_tail h
        · next h1 h2 h3 => exact memWf_cons (memWf_tail h) h3 (fun d hd => by have := memWf_lt h d hd; simp only; omega)
      · next h1 h2 => exact memWf_cons (ih (memWf_tail h)) (memWf_head h) (fun d hd => memWrite_head l a b c d h (by omega) hd)

theorem memWriteBytes_wf (m : List Host.Cell) (a : Nat) {w : Nat} (v : BitVec w) (n : Nat) (h : memWf m = true) :
    memWf (memWriteBytes m a v n) = true := by
  induction n with
  | zero => exact h
  | succ n ih => exact memWrite_wf _ _ _ ih

/-- What a coded write of a line leaves of the memory's form. -/
theorem storeRaw_wf (s : State) (k loc : Nat) (d : Line) (x : BitVec 64) (h : memWf s.hier.dram = true) :
    memWf (s.storeRaw k loc d x).hier.dram = true := by
  unfold State.storeRaw
  simp only
  split <;> exact memWriteBytes_wf _ _ _ _ h

theorem dramWrite_wf (s : State) (p : Place) (line : Nat) (d : LineData) (h : memWf s.hier.dram = true) :
    memWf (s.dramWrite p line d).hier.dram = true := storeRaw_wf _ _ _ _ _ h

theorem setMc_dram (s : State) (k : Nat) (m : Mc) : (s.setMc k m).hier.dram = s.hier.dram := rfl

theorem fault_hier (s : State) (src : BitVec 16) (kind : BitVec 8) (tid : Option (BitVec 12)) (a : Nat) :
    (s.fault src kind tid a).hier = s.hier := rfl

theorem countCorrected_dram (s : State) (k line j : Nat) (b : Bool) :
    (s.countCorrected k line j b).hier.dram = s.hier.dram := by
  unfold State.countCorrected
  dsimp only
  rw [apply_ite State.hier, apply_ite Hier.dram, fault_hier, setMc_dram, setMc_dram, ite_self]

/-- A read may rewrite an uncorrectable line; it keeps the form too. -/
theorem dramRead_wf (s : State) (p : Place) (line : Nat) (h : memWf s.hier.dram = true) :
    memWf (s.dramRead p line).2.hier.dram = true := by
  unfold State.dramRead
  simp only
  split
  · dsimp only
    rw [countCorrected_dram]
    exact h
  · dsimp only
    unfold State.recordPoison
    rw [fault_hier, setMc_dram]
    exact storeRaw_wf _ _ _ _ _ h
  · exact h

theorem reset_memory_wf : memWf State.reset.hier.dram = true := by rfl

/-- Reading a byte of canonical memory below its first address. -/
theorem memRead_below (m : List Host.Cell) (a : Nat) (h : memWf m = true) (hl : ∀ d, m.head? = some d → a < d.1) :
    memRead m a = unlistedByte := by
  induction m with
  | nil => rfl
  | cons c l ih =>
    have h1 := hl c rfl
    unfold memRead
    rw [if_neg (by omega)]
    exact ih (memWf_tail h) (fun d hd => by have := memWf_lt h d hd; omega)

/-- A read after a write to the same byte. -/
theorem memRead_write_same (m : List Host.Cell) (a : Nat) (b : Byte) (h : memWf m = true) :
    memRead (memWrite m a b) a = b := by
  induction m with
  | nil => unfold memWrite; split <;> simp_all [memRead]
  | cons c l ih =>
    unfold memWrite
    split
    · next h1 =>
      split
      · next h2 => rw [h2]; exact memRead_below _ _ h (by intro d hd; simp at hd; subst hd; exact h1)
      · simp [memRead]
    · next h1 =>
      split
      · next h2 =>
        split
        · next h3 => rw [h3]; exact memRead_below _ _ (memWf_tail h) (fun d hd => by have := memWf_lt h d hd; omega)
        · simp [memRead]
      · next h2 => unfold memRead; rw [if_neg (by omega)]; exact ih (memWf_tail h)

/-- A write leaves every other byte as it was. -/
theorem memRead_write_ne (m : List Host.Cell) (a e : Nat) (b : Byte) (he : e ≠ a) :
    memRead (memWrite m a b) e = memRead m e := by
  induction m with
  | nil => unfold memWrite; split <;> simp [memRead]; intro h; exact absurd h.symm he
  | cons c l ih =>
    unfold memWrite
    split
    · split
      · rfl
      · simp [memRead, Ne.symm he]
    · split
      · next h1 =>
        split
        · simp [memRead, ← h1, Ne.symm he]
        · simp [memRead, ← h1, Ne.symm he]
      · simp only [memRead, ih]

/-- A read inside the bytes just written gives the value's byte. -/
theorem memRead_writeBytes_in (m : List Host.Cell) (a : Nat) {w : Nat} (v : BitVec w) (n i : Nat) (h : memWf m = true)
    (hi : i < n) : memRead (memWriteBytes m a v n) (a + i) = byteOf v i := by
  induction n with
  | zero => omega
  | succ n ih =>
    unfold memWriteBytes
    by_cases h1 : i = n
    · subst h1; exact memRead_write_same _ _ _ (memWriteBytes_wf _ _ _ _ h)
    · rw [memRead_write_ne _ _ _ _ (by omega)]; exact ih (by omega)

/-- A read outside the bytes just written gives what it gave. -/
theorem memRead_writeBytes_out (m : List Host.Cell) (a e : Nat) {w : Nat} (v : BitVec w) (n : Nat)
    (h : e < a ∨ a + n ≤ e) : memRead (memWriteBytes m a v n) e = memRead m e := by
  induction n with
  | zero => rfl
  | succ n ih => unfold memWriteBytes; rw [memRead_write_ne _ _ _ _ (by omega)]; exact ih (by omega)

end Sys2Proof.Machine
end

