-- ==== Sys2Proof/Laws/Core.lean ====
section
/-! SUPPORT. Laws of the shared operations: the step of a core on a fetched instruction, well-formed commands, and what messages,
arrivals, fences, faults and updates of one core leave. -/

namespace Sys2Proof.Machine

/-- The bind of the instruction monad after an operation that succeeds. -/
theorem exec_bind_ok {α β : Type} {m : Exec α} {f : α → Exec β} {s s1 : State} {v : α} (h : m s = .ok v s1) :
    (m >>= f) s = f v s1 := by
  show EStateM.bind _ _ _ = _
  simp [EStateM.bind, h]

/-- The bind of the instruction monad after an operation that stops. -/
theorem exec_bind_error {α β : Type} {m : Exec α} {f : α → Exec β} {s s1 : State} {e : Stop} (h : m s = .error e s1) :
    (m >>= f) s = .error e s1 := by
  show EStateM.bind _ _ _ = _
  simp [EStateM.bind, h]

/-- A core that fetches is a core of the part. -/
theorem coreOk_of_fetches {c : Nat} {s s1 : State} {x : Ctx} (h : Fetches c s x s1) : coreOk c = true := by
  have := h.1
  simp [State.canExec, State.coreRuns, State.coreEnabled, State.computeEn] at this
  simp [coreOk]; omega

theorem ctx_core_of_fetches {c : Nat} {s s1 : State} {x : Ctx} (h : Fetches c s x s1) : x.g = c := by
  rw [h.2.2.2.1]; rfl

/-- Everything a core's step can do once its instruction is fetched: retire, stall, start over, or take an exception. -/
theorem coreStep_of_fetches {c : Nat} {s s1 : State} {x : Ctx} (h : Fetches c s x s1) (body : Ctx → Exec (Option Word))
    (eret : Bool) : s.coreStep c body eret = (match body x s1 with
      | .ok (some p) t => if (t.core c).stall == .none then t.retire c x.sw x.n p eret else t
      | .ok none t => t
      | .error .wait t => t.undo c
      | .error (.exc e) t => (t.undo c).takeExc c x.sw e) := by
  obtain ⟨h1, h2, h3, h4, h5⟩ := h
  unfold State.coreStep
  simp only [h1, h2, h3, Bool.not_true, if_false, Bool.false_eq_true]
  rw [← h4]
  have : (do fetch x; body x : Exec (Option Word)) s = body x s1 := exec_bind_ok h5
  rw [this]
  first | done | rcases body x s1 with ⟨_ | _, _⟩ | ⟨_ | _, _⟩ <;> rfl

/-- An instruction of two slots completes with the function of the values read. -/
theorem binary_ok {x : Ctx} {d sa sb : BitVec 5} {f : Word → Word → Word} {s1 s2 s3 : State} {v : Table Word}
    (h1 : slotsRead x [sa.toNat, sb.toNat] s1 = .ok v s2)
    (h2 : slotsWrite x [(d.toNat, f (tget v sa.toNat 0) (tget v sb.toNat 0))] s2 = .ok () s3) :
    binary x d sa sb f s1 = .ok (some (x.pc + 4)) s3 := by
  unfold binary done
  rw [exec_bind_ok h1, exec_bind_ok h2]
  rfl

/-- A well-formed command goes on; an ill-formed one faults. -/
theorem onWf_true {b : Bool} (s : State) (h : b = true) : onWf b s = .next s := by simp [onWf, h]
theorem onWf_false {b : Bool} (s : State) (h : b = false) : onWf b s = .fault .illFormed := by simp [onWf, h]

@[simp] theorem send_inflight (s : State) (m : Instr) : (s.send m).inflight = s.inflight ++ [m] := rfl
@[simp] theorem send_core (s : State) (m : Instr) (g : Nat) : (s.send m).core g = s.core g := rfl
@[simp] theorem send_hier (s : State) (m : Instr) : (s.send m).hier = s.hier := rfl
@[simp] theorem send_dom (s : State) (m : Instr) (d : Nat) : (s.send m).dom d = s.dom d := rfl
@[simp] theorem send_fenced (s : State) (m : Instr) : (s.send m).fenced = s.fenced := rfl
@[simp] theorem arrive_inflight (s : State) (m : Instr) : (s.arrive m).inflight = s.inflight.erase m := rfl
@[simp] theorem arrive_core (s : State) (m : Instr) (g : Nat) : (s.arrive m).core g = s.core g := rfl
@[simp] theorem arrive_dom (s : State) (m : Instr) (d : Nat) : (s.arrive m).dom d = s.dom d := rfl
@[simp] theorem arrive_fenced (s : State) (m : Instr) : (s.arrive m).fenced = s.fenced := rfl
@[simp] theorem setCore_core_same (s : State) (g : Nat) (c : Core) : (s.setCore g c).core g = c := by
  simp [State.setCore, State.core]
theorem setCore_core_ne (s : State) (g j : Nat) (c : Core) (h : j ≠ g) : (s.setCore g c).core j = s.core j := by
  simp [State.setCore, State.core, tget_tput_ne _ _ _ _ _ h]
@[simp] theorem setCore_hier (s : State) (g : Nat) (c : Core) : (s.setCore g c).hier = s.hier := rfl
@[simp] theorem setCore_inflight (s : State) (g : Nat) (c : Core) : (s.setCore g c).inflight = s.inflight := rfl
@[simp] theorem setDom_dom_same (s : State) (d : Nat) (x : Dom) : (s.setDom d x).dom d = x := by
  simp [State.setDom, State.dom]
theorem setDom_dom_ne (s : State) (d j : Nat) (x : Dom) (h : j ≠ d) : (s.setDom d x).dom j = s.dom j := by
  simp [State.setDom, State.dom, tget_tput_ne _ _ _ _ _ h]
@[simp] theorem setTenant_tenant_same (s : State) (t : BitVec 12) (x : Tenant) : (s.setTenant t x).tenant t = x := by
  simp [State.setTenant, State.tenant]
@[simp] theorem violate_core (s : State) (b g : Nat) : (s.violate b).core g = s.core g := rfl
@[simp] theorem violate_hier (s : State) (b : Nat) : (s.violate b).hier = s.hier := rfl

end Sys2Proof.Machine
end

