-- ==== Sys2Proof/Laws/PerInstr.lean ====
section
/-! SUPPORT. Laws of every command as syntax, one lemma for each constructor. -/

namespace Sys2Proof.Laws.CoreBound

/-- A well-formed instruction names a core of the part (R17). -/
def Statement (i : Instr) : Prop := i.wf = true → ∀ c, coreOf i = some c → c < 576

theorem rds (h : Hdr) (line : Nat) (shared : Bool) (hash : Option (BitVec 10)) : Statement (.rds h line shared hash) := by
  intro _ k hk; cases hk
theorem rdx (h : Hdr) (line : Nat) (hash : Option (BitVec 10)) : Statement (.rdx h line hash) := by
  intro _ k hk; cases hk
theorem upg (h : Hdr) (line : Nat) : Statement (.upg h line) := by
  intro _ k hk; cases hk
theorem claim (h : Hdr) (line : Nat) : Statement (.claim h line) := by
  intro _ k hk; cases hk
theorem rdcur (h : Hdr) (line : Nat) : Statement (.rdcur h line) := by
  intro _ k hk; cases hk
theorem wrline (h : Hdr) (line : Nat) (d : LineData) : Statement (.wrline h line d) := by
  intro _ k hk; cases hk
theorem wrpart (h : Hdr) (line : Nat) (p : Part) : Statement (.wrpart h line p) := by
  intro _ k hk; cases hk
theorem atom (h : Hdr) (pa : Nat) (a : AtomOp) : Statement (.atom h pa a) := by
  intro _ k hk; cases hk
theorem wbreq (h : Hdr) (line : Nat) : Statement (.wbreq h line) := by
  intro _ k hk; cases hk
theorem offer (h : Hdr) (line : Nat) : Statement (.offer h line) := by
  intro _ k hk; cases hk
theorem drop (h : Hdr) (line : Nat) : Statement (.drop h line) := by
  intro _ k hk; cases hk
theorem cwbreq (h : Hdr) (line : Nat) : Statement (.cwbreq h line) := by
  intro _ k hk; cases hk
theorem cflreq (h : Hdr) (line : Nat) : Statement (.cflreq h line) := by
  intro _ k hk; cases hk
theorem hazerd (h : Hdr) (line : Nat) : Statement (.hazerd h line) := by
  intro _ k hk; cases hk
theorem snps (req : Hdr) (holder : Nat) (line : Nat) : Statement (.snps req holder line) := by
  intro _ k hk; cases hk
theorem snpx (req : Hdr) (holder : Nat) (line : Nat) : Statement (.snpx req holder line) := by
  intro _ k hk; cases hk
theorem snpinv (req : Hdr) (holder : Nat) (line : Nat) : Statement (.snpinv req holder line) := by
  intro _ k hk; cases hk
theorem snpcur (req : Hdr) (holder : Nat) (line : Nat) : Statement (.snpcur req holder line) := by
  intro _ k hk; cases hk
theorem snpflush (req : Hdr) (holder : Nat) (line : Nat) : Statement (.snpflush req holder line) := by
  intro _ k hk; cases hk
theorem snpclean (req : Hdr) (holder : Nat) (line : Nat) : Statement (.snpclean req holder line) := by
  intro _ k hk; cases hk
theorem go (h : Hdr) (line : Nat) : Statement (.go h line) := by
  intro _ k hk; cases hk
theorem cmp (h : Hdr) (line : Nat) : Statement (.cmp h line) := by
  intro _ k hk; cases hk
theorem cmpack (h : Hdr) (line : Nat) : Statement (.cmpack h line) := by
  intro _ k hk; cases hk
theorem wbgo (h : Hdr) (line : Nat) : Statement (.wbgo h line) := by
  intro _ k hk; cases hk
theorem wbcancel (h : Hdr) (line : Nat) : Statement (.wbcancel h line) := by
  intro _ k hk; cases hk
theorem accept (h : Hdr) (line : Nat) : Statement (.accept h line) := by
  intro _ k hk; cases hk
theorem decline (h : Hdr) (line : Nat) : Statement (.decline h line) := by
  intro _ k hk; cases hk
theorem acceptheld (h : Hdr) (line : Nat) : Statement (.acceptheld h line) := by
  intro _ k hk; cases hk
theorem acki (holder : Nat) (line : Nat) : Statement (.acki holder line) := by
  intro _ k hk; cases hk
theorem acks (holder : Nat) (line : Nat) : Statement (.acks holder line) := by
  intro _ k hk; cases hk
theorem acke (holder : Nat) (line : Nat) : Statement (.acke holder line) := by
  intro _ k hk; cases hk
theorem acko (holder : Nat) (line : Nat) : Statement (.acko holder line) := by
  intro _ k hk; cases hk
theorem notpresent (holder : Nat) (line : Nat) : Statement (.notpresent holder line) := by
  intro _ k hk; cases hk
theorem hazeno (h : Hdr) (line : Nat) : Statement (.hazeno h line) := by
  intro _ k hk; cases hk
theorem err (h : Hdr) (pa : Nat) (code : BitVec 16) : Statement (.err h pa code) := by
  intro _ k hk; cases hk
theorem datas (h : Hdr) (line : Nat) (d : LineData) : Statement (.datas h line d) := by
  intro _ k hk; cases hk
theorem datae (h : Hdr) (line : Nat) (d : LineData) : Statement (.datae h line d) := by
  intro _ k hk; cases hk
theorem datam (h : Hdr) (line : Nat) (d : LineData) : Statement (.datam h line d) := by
  intro _ k hk; cases hk
theorem fwds (h : Hdr) (line : Nat) (d : LineData) : Statement (.fwds h line d) := by
  intro _ k hk; cases hk
theorem fwdm (h : Hdr) (line : Nat) (d : LineData) : Statement (.fwdm h line d) := by
  intro _ k hk; cases hk
theorem snpdata (holder : Nat) (line : Nat) (d : LineData) (st : L2St) : Statement (.snpdata holder line d st) := by
  intro _ k hk; cases hk
theorem wbdata (h : Hdr) (line : Nat) (d : LineData) : Statement (.wbdata h line d) := by
  intro _ k hk; cases hk
theorem offerdata (h : Hdr) (line : Nat) (d : LineData) : Statement (.offerdata h line d) := by
  intro _ k hk; cases hk
theorem curdata (h : Hdr) (line : Nat) (d : LineData) : Statement (.curdata h line d) := by
  intro _ k hk; cases hk
theorem hazedata (h : Hdr) (line : Nat) (d : LineData) : Statement (.hazedata h line d) := by
  intro _ k hk; cases hk
theorem atomdata (h : Hdr) (pa : Nat) (old : BitVec 128) (poison : Bool) : Statement (.atomdata h pa old poison) := by
  intro _ k hk; cases hk
theorem mrd (line : Nat) : Statement (.mrd line) := by
  intro _ k hk; cases hk
theorem mwr (line : Nat) : Statement (.mwr line) := by
  intro _ k hk; cases hk
theorem mmerge (line : Nat) (p : Part) : Statement (.mmerge line p) := by
  intro _ k hk; cases hk
theorem matom (req : Hdr) (pa : Nat) (a : AtomOp) : Statement (.matom req pa a) := by
  intro _ k hk; cases hk
theorem mwrgo (line : Nat) : Statement (.mwrgo line) := by
  intro _ k hk; cases hk
theorem mwrdata (line : Nat) (d : LineData) : Statement (.mwrdata line d) := by
  intro _ k hk; cases hk
theorem mdata (line : Nat) (d : LineData) : Statement (.mdata line d) := by
  intro _ k hk; cases hk
theorem faultMessage (source : BitVec 16) (kind : BitVec 8) (tid : Option (BitVec 12)) (addr : Nat) : Statement (.faultMessage source kind tid addr) := by
  intro _ k hk; cases hk
theorem residencyUpdate (c : Nat) (tid : BitVec 12) (tswitch : Bool) : Statement (.residencyUpdate c tid tswitch) := by
  intro _ k hk; cases hk
theorem residencyAnswer (c : Nat) (cls : BitVec 3) (mask : BitVec 8) : Statement (.residencyAnswer c cls mask) := by
  intro _ k hk; cases hk
theorem routerMessage (tid : BitVec 12) (vector : BitVec 9) : Statement (.routerMessage tid vector) := by
  intro _ k hk; cases hk
theorem interruptDelivery (c : Nat) (tid : BitVec 12) (vector : BitVec 9) : Statement (.interruptDelivery c tid vector) := by
  intro _ k hk; cases hk
theorem blockNotice (engine : Nat) (tid : BitVec 12) : Statement (.blockNotice engine tid) := by
  intro _ k hk; cases hk
theorem drainedNotice (engine : Nat) (tid : BitVec 12) (aborted : Nat) : Statement (.drainedNotice engine tid aborted) := by
  intro _ k hk; cases hk
theorem scrubbedNotice (engine : Nat) (tid : BitVec 12) : Statement (.scrubbedNotice engine tid) := by
  intro _ k hk; cases hk
theorem tlbiBroadcastTake (c : Nat) (issuer : Nat) : Statement (.tlbiBroadcastTake c issuer) := by
  intro _ k hk; cases hk
theorem rangeStepAck : Statement .rangeStepAck := by
  intro _ k hk; cases hk
theorem keyUpdate (stack : Nat) : Statement (.keyUpdate stack) := by
  intro _ k hk; cases hk
theorem gateCheck (c : Nat) (eid : BitVec 10) (target : Word) (gate : BitVec 16) : Statement (.gateCheck c eid target gate) := by
  intro _ k hk; cases hk
theorem saveAreaAcked (c : Nat) : Statement (.saveAreaAcked c) := by
  intro _ k hk; cases hk
theorem pauseNoticeCore (c : Nat) (tid : BitVec 12) : Statement (.pauseNoticeCore c tid) := by
  intro _ k hk; cases hk
theorem pauseNoticeEngine (u : Nat) (tid : BitVec 12) : Statement (.pauseNoticeEngine u tid) := by
  intro _ k hk; cases hk
theorem routerPauseNotice (tid : BitVec 12) : Statement (.routerPauseNotice tid) := by
  intro _ k hk; cases hk
theorem routerRecordRequest (tid : BitVec 12) : Statement (.routerRecordRequest tid) := by
  intro _ k hk; cases hk
theorem pausedNotice (u : Nat) (tid : BitVec 12) : Statement (.pausedNotice u tid) := by
  intro _ k hk; cases hk
theorem sealNotice (n : Nat) (tid : BitVec 12) : Statement (.sealNotice n tid) := by
  intro _ k hk; cases hk
theorem sealedNotice (n : Nat) (tid : BitVec 12) : Statement (.sealedNotice n tid) := by
  intro _ k hk; cases hk
theorem sleepRequest (d : Nat) : Statement (.sleepRequest d) := by
  intro _ k hk; cases hk
theorem sleepAnswer (d : Nat) (agree : Bool) : Statement (.sleepAnswer d agree) := by
  intro _ k hk; cases hk
theorem seqTableRequest (purpose : Nat) (param : Nat) : Statement (.seqTableRequest purpose param) := by
  intro _ k hk; cases hk
theorem fullReset (cause : Nat) : Statement (.fullReset cause) := by
  intro _ k hk; cases hk
theorem mirrorLeave : Statement .mirrorLeave := by
  intro _ k hk; cases hk
theorem heldFrameCopy (qpn : Nat) : Statement (.heldFrameCopy qpn) := by
  intro _ k hk; cases hk
theorem unitDrained (d : Nat) : Statement (.unitDrained d) := by
  intro _ k hk; cases hk
theorem guestWindowAccess (h : Hdr) (offset : Nat) (op : GuestOp) : Statement (.guestWindowAccess h offset op) := by
  intro _ k hk; cases hk
theorem ringFrameReceive (src : Nat) (dst : Nat) (channel : Nat) (frame : BitVec 768) : Statement (.ringFrameReceive src dst channel frame) := by
  intro _ k hk; cases hk
theorem cacheSectionArrival (compute : Bool) (die : Nat) : Statement (.cacheSectionArrival compute die) := by
  intro _ k hk; cases hk
theorem brixmenRequest (ip : BitVec 32) (port : Nat) (bytes : List Byte) : Statement (.brixmenRequest ip port bytes) := by
  intro _ k hk; cases hk
theorem add (c : Nat) (d sa sb : BitVec 5) : Statement (.add c d sa sb) := by
  intro h k hk; cases hk; exact of_decide_eq_true h
theorem sub (c : Nat) (d sa sb : BitVec 5) : Statement (.sub c d sa sb) := by
  intro h k hk; cases hk; exact of_decide_eq_true h
theorem andT (c : Nat) (d sa sb : BitVec 5) : Statement (.andT c d sa sb) := by
  intro h k hk; cases hk; exact of_decide_eq_true h
theorem orT (c : Nat) (d sa sb : BitVec 5) : Statement (.orT c d sa sb) := by
  intro h k hk; cases hk; exact of_decide_eq_true h
theorem xor (c : Nat) (d sa sb : BitVec 5) : Statement (.xor c d sa sb) := by
  intro h k hk; cases hk; exact of_decide_eq_true h
theorem shl (c : Nat) (d sa sb : BitVec 5) : Statement (.shl c d sa sb) := by
  intro h k hk; cases hk; exact of_decide_eq_true h
theorem shr (c : Nat) (d sa sb : BitVec 5) : Statement (.shr c d sa sb) := by
  intro h k hk; cases hk; exact of_decide_eq_true h
theorem sar (c : Nat) (d sa sb : BitVec 5) : Statement (.sar c d sa sb) := by
  intro h k hk; cases hk; exact of_decide_eq_true h
theorem ror (c : Nat) (d sa sb : BitVec 5) : Statement (.ror c d sa sb) := by
  intro h k hk; cases hk; exact of_decide_eq_true h
theorem min (c : Nat) (d sa sb : BitVec 5) : Statement (.min c d sa sb) := by
  intro h k hk; cases hk; exact of_decide_eq_true h
theorem max (c : Nat) (d sa sb : BitVec 5) : Statement (.max c d sa sb) := by
  intro h k hk; cases hk; exact of_decide_eq_true h
theorem minu (c : Nat) (d sa sb : BitVec 5) : Statement (.minu c d sa sb) := by
  intro h k hk; cases hk; exact of_decide_eq_true h
theorem maxu (c : Nat) (d sa sb : BitVec 5) : Statement (.maxu c d sa sb) := by
  intro h k hk; cases hk; exact of_decide_eq_true h
theorem slt (c : Nat) (d sa sb : BitVec 5) : Statement (.slt c d sa sb) := by
  intro h k hk; cases hk; exact of_decide_eq_true h
theorem sltu (c : Nat) (d sa sb : BitVec 5) : Statement (.sltu c d sa sb) := by
  intro h k hk; cases hk; exact of_decide_eq_true h
theorem movs (c : Nat) (d sa sb : BitVec 5) : Statement (.movs c d sa sb) := by
  intro h k hk; cases hk; exact of_decide_eq_true h
theorem clz (c : Nat) (d sa sb : BitVec 5) : Statement (.clz c d sa sb) := by
  intro h k hk; cases hk; exact of_decide_eq_true h
theorem ctz (c : Nat) (d sa sb : BitVec 5) : Statement (.ctz c d sa sb) := by
  intro h k hk; cases hk; exact of_decide_eq_true h
theorem popc (c : Nat) (d sa sb : BitVec 5) : Statement (.popc c d sa sb) := by
  intro h k hk; cases hk; exact of_decide_eq_true h
theorem bswap (c : Nat) (d sa sb : BitVec 5) : Statement (.bswap c d sa sb) := by
  intro h k hk; cases hk; exact of_decide_eq_true h
theorem mul (c : Nat) (d sa sb : BitVec 5) : Statement (.mul c d sa sb) := by
  intro h k hk; cases hk; exact of_decide_eq_true h
theorem mulh (c : Nat) (d sa sb : BitVec 5) : Statement (.mulh c d sa sb) := by
  intro h k hk; cases hk; exact of_decide_eq_true h
theorem mulhu (c : Nat) (d sa sb : BitVec 5) : Statement (.mulhu c d sa sb) := by
  intro h k hk; cases hk; exact of_decide_eq_true h
theorem div (c : Nat) (d sa sb : BitVec 5) : Statement (.div c d sa sb) := by
  intro h k hk; cases hk; exact of_decide_eq_true h
theorem divu (c : Nat) (d sa sb : BitVec 5) : Statement (.divu c d sa sb) := by
  intro h k hk; cases hk; exact of_decide_eq_true h
theorem rem (c : Nat) (d sa sb : BitVec 5) : Statement (.rem c d sa sb) := by
  intro h k hk; cases hk; exact of_decide_eq_true h
theorem remu (c : Nat) (d sa sb : BitVec 5) : Statement (.remu c d sa sb) := by
  intro h k hk; cases hk; exact of_decide_eq_true h
theorem aese (c : Nat) (d sa sb : BitVec 5) : Statement (.aese c d sa sb) := by
  intro h k hk; cases hk; exact of_decide_eq_true h
theorem aesel (c : Nat) (d sa sb : BitVec 5) : Statement (.aesel c d sa sb) := by
  intro h k hk; cases hk; exact of_decide_eq_true h
theorem aesd (c : Nat) (d sa sb : BitVec 5) : Statement (.aesd c d sa sb) := by
  intro h k hk; cases hk; exact of_decide_eq_true h
theorem aesdl (c : Nat) (d sa sb : BitVec 5) : Statement (.aesdl c d sa sb) := by
  intro h k hk; cases hk; exact of_decide_eq_true h
theorem aessub (c : Nat) (d sa sb : BitVec 5) : Statement (.aessub c d sa sb) := by
  intro h k hk; cases hk; exact of_decide_eq_true h
theorem sha256r (c : Nat) (d sa sb : BitVec 5) : Statement (.sha256r c d sa sb) := by
  intro h k hk; cases hk; exact of_decide_eq_true h
theorem sha256w (c : Nat) (d sa sb : BitVec 5) : Statement (.sha256w c d sa sb) := by
  intro h k hk; cases hk; exact of_decide_eq_true h
theorem sha512r (c : Nat) (d sa sb : BitVec 5) : Statement (.sha512r c d sa sb) := by
  intro h k hk; cases hk; exact of_decide_eq_true h
theorem sha512w (c : Nat) (d sa sb : BitVec 5) : Statement (.sha512w c d sa sb) := by
  intro h k hk; cases hk; exact of_decide_eq_true h
theorem crc32cb (c : Nat) (d sa sb : BitVec 5) : Statement (.crc32cb c d sa sb) := by
  intro h k hk; cases hk; exact of_decide_eq_true h
theorem crc32ch (c : Nat) (d sa sb : BitVec 5) : Statement (.crc32ch c d sa sb) := by
  intro h k hk; cases hk; exact of_decide_eq_true h
theorem crc32cw (c : Nat) (d sa sb : BitVec 5) : Statement (.crc32cw c d sa sb) := by
  intro h k hk; cases hk; exact of_decide_eq_true h
theorem crc32cd (c : Nat) (d sa sb : BitVec 5) : Statement (.crc32cd c d sa sb) := by
  intro h k hk; cases hk; exact of_decide_eq_true h
theorem fadd (c : Nat) (d sa sb : BitVec 5) : Statement (.fadd c d sa sb) := by
  intro h k hk; cases hk; exact of_decide_eq_true h
theorem fsub (c : Nat) (d sa sb : BitVec 5) : Statement (.fsub c d sa sb) := by
  intro h k hk; cases hk; exact of_decide_eq_true h
theorem fmul (c : Nat) (d sa sb : BitVec 5) : Statement (.fmul c d sa sb) := by
  intro h k hk; cases hk; exact of_decide_eq_true h
theorem fdiv (c : Nat) (d sa sb : BitVec 5) : Statement (.fdiv c d sa sb) := by
  intro h k hk; cases hk; exact of_decide_eq_true h
theorem fsqrt (c : Nat) (d sa sb : BitVec 5) : Statement (.fsqrt c d sa sb) := by
  intro h k hk; cases hk; exact of_decide_eq_true h
theorem fmin (c : Nat) (d sa sb : BitVec 5) : Statement (.fmin c d sa sb) := by
  intro h k hk; cases hk; exact of_decide_eq_true h
theorem fmax (c : Nat) (d sa sb : BitVec 5) : Statement (.fmax c d sa sb) := by
  intro h k hk; cases hk; exact of_decide_eq_true h
theorem fma (c : Nat) (d sa sb : BitVec 5) : Statement (.fma c d sa sb) := by
  intro h k hk; cases hk; exact of_decide_eq_true h
theorem fcvti (c : Nat) (d sa sb : BitVec 5) : Statement (.fcvti c d sa sb) := by
  intro h k hk; cases hk; exact of_decide_eq_true h
theorem fcvtf (c : Nat) (d sa sb : BitVec 5) : Statement (.fcvtf c d sa sb) := by
  intro h k hk; cases hk; exact of_decide_eq_true h
theorem flt (c : Nat) (d sa sb : BitVec 5) : Statement (.flt c d sa sb) := by
  intro h k hk; cases hk; exact of_decide_eq_true h
theorem feq (c : Nat) (d sa sb : BitVec 5) : Statement (.feq c d sa sb) := by
  intro h k hk; cases hk; exact of_decide_eq_true h
theorem vadd (c : Nat) (ty : BitVec 3) (d sa sb : BitVec 5) : Statement (.vadd c ty d sa sb) := by
  intro h k hk; cases hk; exact of_decide_eq_true h
theorem vsub (c : Nat) (ty : BitVec 3) (d sa sb : BitVec 5) : Statement (.vsub c ty d sa sb) := by
  intro h k hk; cases hk; exact of_decide_eq_true h
theorem vmul (c : Nat) (ty : BitVec 3) (d sa sb : BitVec 5) : Statement (.vmul c ty d sa sb) := by
  intro h k hk; cases hk; exact of_decide_eq_true h
theorem vand (c : Nat) (ty : BitVec 3) (d sa sb : BitVec 5) : Statement (.vand c ty d sa sb) := by
  intro h k hk; cases hk; exact of_decide_eq_true h
theorem vor (c : Nat) (ty : BitVec 3) (d sa sb : BitVec 5) : Statement (.vor c ty d sa sb) := by
  intro h k hk; cases hk; exact of_decide_eq_true h
theorem vxor (c : Nat) (ty : BitVec 3) (d sa sb : BitVec 5) : Statement (.vxor c ty d sa sb) := by
  intro h k hk; cases hk; exact of_decide_eq_true h
theorem vmin (c : Nat) (ty : BitVec 3) (d sa sb : BitVec 5) : Statement (.vmin c ty d sa sb) := by
  intro h k hk; cases hk; exact of_decide_eq_true h
theorem vmax (c : Nat) (ty : BitVec 3) (d sa sb : BitVec 5) : Statement (.vmax c ty d sa sb) := by
  intro h k hk; cases hk; exact of_decide_eq_true h
theorem vminu (c : Nat) (ty : BitVec 3) (d sa sb : BitVec 5) : Statement (.vminu c ty d sa sb) := by
  intro h k hk; cases hk; exact of_decide_eq_true h
theorem vmaxu (c : Nat) (ty : BitVec 3) (d sa sb : BitVec 5) : Statement (.vmaxu c ty d sa sb) := by
  intro h k hk; cases hk; exact of_decide_eq_true h
theorem vshl (c : Nat) (ty : BitVec 3) (d sa sb : BitVec 5) : Statement (.vshl c ty d sa sb) := by
  intro h k hk; cases hk; exact of_decide_eq_true h
theorem vshr (c : Nat) (ty : BitVec 3) (d sa sb : BitVec 5) : Statement (.vshr c ty d sa sb) := by
  intro h k hk; cases hk; exact of_decide_eq_true h
theorem vsar (c : Nat) (ty : BitVec 3) (d sa sb : BitVec 5) : Statement (.vsar c ty d sa sb) := by
  intro h k hk; cases hk; exact of_decide_eq_true h
theorem vcmpeq (c : Nat) (ty : BitVec 3) (d sa sb : BitVec 5) : Statement (.vcmpeq c ty d sa sb) := by
  intro h k hk; cases hk; exact of_decide_eq_true h
theorem vcmplt (c : Nat) (ty : BitVec 3) (d sa sb : BitVec 5) : Statement (.vcmplt c ty d sa sb) := by
  intro h k hk; cases hk; exact of_decide_eq_true h
theorem vcmpltu (c : Nat) (ty : BitVec 3) (d sa sb : BitVec 5) : Statement (.vcmpltu c ty d sa sb) := by
  intro h k hk; cases hk; exact of_decide_eq_true h
theorem vfma (c : Nat) (ty : BitVec 3) (d sa sb : BitVec 5) : Statement (.vfma c ty d sa sb) := by
  intro h k hk; cases hk; exact of_decide_eq_true h
theorem vlds (c : Nat) (ty : BitVec 3) (d sa sb : BitVec 5) : Statement (.vlds c ty d sa sb) := by
  intro h k hk; cases hk; exact of_decide_eq_true h
theorem vsts (c : Nat) (ty : BitVec 3) (d sa sb : BitVec 5) : Statement (.vsts c ty d sa sb) := by
  intro h k hk; cases hk; exact of_decide_eq_true h
theorem vbcast (c : Nat) (ty : BitVec 3) (d sa sb : BitVec 5) : Statement (.vbcast c ty d sa sb) := by
  intro h k hk; cases hk; exact of_decide_eq_true h
theorem vext (c : Nat) (ty : BitVec 3) (d sa sb : BitVec 5) : Statement (.vext c ty d sa sb) := by
  intro h k hk; cases hk; exact of_decide_eq_true h
theorem vins (c : Nat) (ty : BitVec 3) (d sa sb : BitVec 5) : Statement (.vins c ty d sa sb) := by
  intro h k hk; cases hk; exact of_decide_eq_true h
theorem vradd (c : Nat) (ty : BitVec 3) (d sa sb : BitVec 5) : Statement (.vradd c ty d sa sb) := by
  intro h k hk; cases hk; exact of_decide_eq_true h
theorem vrmin (c : Nat) (ty : BitVec 3) (d sa sb : BitVec 5) : Statement (.vrmin c ty d sa sb) := by
  intro h k hk; cases hk; exact of_decide_eq_true h
theorem vrmax (c : Nat) (ty : BitVec 3) (d sa sb : BitVec 5) : Statement (.vrmax c ty d sa sb) := by
  intro h k hk; cases hk; exact of_decide_eq_true h
theorem afadd (c : Nat) (z : BitVec 4) (order : BitVec 2) (wide : Bool) (d sa sb : BitVec 5) : Statement (.afadd c z order wide d sa sb) := by
  intro h k hk; cases hk; exact of_decide_eq_true h
theorem aswap (c : Nat) (z : BitVec 4) (order : BitVec 2) (wide : Bool) (d sa sb : BitVec 5) : Statement (.aswap c z order wide d sa sb) := by
  intro h k hk; cases hk; exact of_decide_eq_true h
theorem acas (c : Nat) (z : BitVec 4) (order : BitVec 2) (wide : Bool) (d sa sb : BitVec 5) : Statement (.acas c z order wide d sa sb) := by
  intro h k hk; cases hk; exact of_decide_eq_true h
theorem amin (c : Nat) (z : BitVec 4) (order : BitVec 2) (wide : Bool) (d sa sb : BitVec 5) : Statement (.amin c z order wide d sa sb) := by
  intro h k hk; cases hk; exact of_decide_eq_true h
theorem amax (c : Nat) (z : BitVec 4) (order : BitVec 2) (wide : Bool) (d sa sb : BitVec 5) : Statement (.amax c z order wide d sa sb) := by
  intro h k hk; cases hk; exact of_decide_eq_true h
theorem aminu (c : Nat) (z : BitVec 4) (order : BitVec 2) (wide : Bool) (d sa sb : BitVec 5) : Statement (.aminu c z order wide d sa sb) := by
  intro h k hk; cases hk; exact of_decide_eq_true h
theorem amaxu (c : Nat) (z : BitVec 4) (order : BitVec 2) (wide : Bool) (d sa sb : BitVec 5) : Statement (.amaxu c z order wide d sa sb) := by
  intro h k hk; cases hk; exact of_decide_eq_true h
theorem aand (c : Nat) (z : BitVec 4) (order : BitVec 2) (wide : Bool) (d sa sb : BitVec 5) : Statement (.aand c z order wide d sa sb) := by
  intro h k hk; cases hk; exact of_decide_eq_true h
theorem aor (c : Nat) (z : BitVec 4) (order : BitVec 2) (wide : Bool) (d sa sb : BitVec 5) : Statement (.aor c z order wide d sa sb) := by
  intro h k hk; cases hk; exact of_decide_eq_true h
theorem axor (c : Nat) (z : BitVec 4) (order : BitVec 2) (wide : Bool) (d sa sb : BitVec 5) : Statement (.axor c z order wide d sa sb) := by
  intro h k hk; cases hk; exact of_decide_eq_true h
theorem li (c : Nat) (imm : BitVec 24) : Statement (.li c imm) := by
  intro h k hk; cases hk; exact of_decide_eq_true h
theorem addi (c : Nat) (imm : BitVec 24) : Statement (.addi c imm) := by
  intro h k hk; cases hk; exact of_decide_eq_true h
theorem shi (c : Nat) (imm : BitVec 24) : Statement (.shi c imm) := by
  intro h k hk; cases hk; exact of_decide_eq_true h
theorem andi (c : Nat) (imm : BitVec 24) : Statement (.andi c imm) := by
  intro h k hk; cases hk; exact of_decide_eq_true h
theorem lix (c : Nat) (imm : BitVec 24) : Statement (.lix c imm) := by
  intro h k hk; cases hk; exact of_decide_eq_true h
theorem addx (c : Nat) (imm : BitVec 24) : Statement (.addx c imm) := by
  intro h k hk; cases hk; exact of_decide_eq_true h
theorem liy (c : Nat) (imm : BitVec 24) : Statement (.liy c imm) := by
  intro h k hk; cases hk; exact of_decide_eq_true h
theorem addy (c : Nat) (imm : BitVec 24) : Statement (.addy c imm) := by
  intro h k hk; cases hk; exact of_decide_eq_true h
theorem addf (c : Nat) (imm : BitVec 24) : Statement (.addf c imm) := by
  intro h k hk; cases hk; exact of_decide_eq_true h
theorem ori (c : Nat) (imm : BitVec 24) : Statement (.ori c imm) := by
  intro h k hk; cases hk; exact of_decide_eq_true h
theorem xori (c : Nat) (imm : BitVec 24) : Statement (.xori c imm) := by
  intro h k hk; cases hk; exact of_decide_eq_true h
theorem shifti (c : Nat) (imm : BitVec 24) : Statement (.shifti c imm) := by
  intro h k hk; cases hk; exact of_decide_eq_true h
theorem mov (c : Nat) (imm : BitVec 24) : Statement (.mov c imm) := by
  intro h k hk; cases hk; exact of_decide_eq_true h
theorem ret (c : Nat) (imm : BitVec 24) : Statement (.ret c imm) := by
  intro h k hk; cases hk; exact of_decide_eq_true h
theorem ja (c : Nat) (imm : BitVec 24) : Statement (.ja c imm) := by
  intro h k hk; cases hk; exact of_decide_eq_true h
theorem calla (c : Nat) (imm : BitVec 24) : Statement (.calla c imm) := by
  intro h k hk; cases hk; exact of_decide_eq_true h
theorem ld (c : Nat) (base size : BitVec 2) (disp : BitVec 22) : Statement (.ld c base size disp) := by
  intro h k hk; cases hk; exact of_decide_eq_true h
theorem lds (c : Nat) (base size : BitVec 2) (disp : BitVec 22) : Statement (.lds c base size disp) := by
  intro h k hk; cases hk; exact of_decide_eq_true h
theorem st (c : Nat) (base size : BitVec 2) (disp : BitVec 22) : Statement (.st c base size disp) := by
  intro h k hk; cases hk; exact of_decide_eq_true h
theorem addMem (c : Nat) (base size : BitVec 2) (disp : BitVec 22) : Statement (.addMem c base size disp) := by
  intro h k hk; cases hk; exact of_decide_eq_true h
theorem subMem (c : Nat) (base size : BitVec 2) (disp : BitVec 22) : Statement (.subMem c base size disp) := by
  intro h k hk; cases hk; exact of_decide_eq_true h
theorem andMem (c : Nat) (base size : BitVec 2) (disp : BitVec 22) : Statement (.andMem c base size disp) := by
  intro h k hk; cases hk; exact of_decide_eq_true h
theorem orMem (c : Nat) (base size : BitVec 2) (disp : BitVec 22) : Statement (.orMem c base size disp) := by
  intro h k hk; cases hk; exact of_decide_eq_true h
theorem xorMem (c : Nat) (base size : BitVec 2) (disp : BitVec 22) : Statement (.xorMem c base size disp) := by
  intro h k hk; cases hk; exact of_decide_eq_true h
theorem mulMem (c : Nat) (base size : BitVec 2) (disp : BitVec 22) : Statement (.mulMem c base size disp) := by
  intro h k hk; cases hk; exact of_decide_eq_true h
theorem ldx (c : Nat) (base size : BitVec 2) (disp : BitVec 22) : Statement (.ldx c base size disp) := by
  intro h k hk; cases hk; exact of_decide_eq_true h
theorem stx (c : Nat) (base size : BitVec 2) (disp : BitVec 22) : Statement (.stx c base size disp) := by
  intro h k hk; cases hk; exact of_decide_eq_true h
theorem ldy (c : Nat) (base size : BitVec 2) (disp : BitVec 22) : Statement (.ldy c base size disp) := by
  intro h k hk; cases hk; exact of_decide_eq_true h
theorem sty (c : Nat) (base size : BitVec 2) (disp : BitVec 22) : Statement (.sty c base size disp) := by
  intro h k hk; cases hk; exact of_decide_eq_true h
theorem lea (c : Nat) (base size : BitVec 2) (disp : BitVec 22) : Statement (.lea c base size disp) := by
  intro h k hk; cases hk; exact of_decide_eq_true h
theorem vld (c : Nat) (base size : BitVec 2) (disp : BitVec 22) : Statement (.vld c base size disp) := by
  intro h k hk; cases hk; exact of_decide_eq_true h
theorem vst (c : Nat) (base size : BitVec 2) (disp : BitVec 22) : Statement (.vst c base size disp) := by
  intro h k hk; cases hk; exact of_decide_eq_true h
theorem bCond (c : Nat) (cond : BitVec 3) (slot : BitVec 5) (disp : BitVec 18) : Statement (.bCond c cond slot disp) := by
  intro h k hk; cases hk; exact of_decide_eq_true h
theorem jmp (c : Nat) (disp : BitVec 26) : Statement (.jmp c disp) := by
  intro h k hk; cases hk; exact of_decide_eq_true h
theorem call (c : Nat) (disp : BitVec 26) : Statement (.call c disp) := by
  intro h k hk; cases hk; exact of_decide_eq_true h
theorem mfsr (c : Nat) (opnd : BitVec 16) : Statement (.mfsr c opnd) := by
  intro h k hk; cases hk; exact of_decide_eq_true h
theorem mtsr (c : Nat) (opnd : BitVec 16) : Statement (.mtsr c opnd) := by
  intro h k hk; cases hk; exact of_decide_eq_true h
theorem mfsw (c : Nat) (opnd : BitVec 16) : Statement (.mfsw c opnd) := by
  intro h k hk; cases hk; exact of_decide_eq_true h
theorem mtsw (c : Nat) (opnd : BitVec 16) : Statement (.mtsw c opnd) := by
  intro h k hk; cases hk; exact of_decide_eq_true h
theorem sync (c : Nat) (opnd : BitVec 16) : Statement (.sync c opnd) := by
  intro h k hk; cases hk; exact of_decide_eq_true h
theorem ifence (c : Nat) (opnd : BitVec 16) : Statement (.ifence c opnd) := by
  intro h k hk; cases hk; exact of_decide_eq_true h
theorem fence (c : Nat) (opnd : BitVec 16) : Statement (.fence c opnd) := by
  intro h k hk; cases hk; exact of_decide_eq_true h
theorem trap (c : Nat) (opnd : BitVec 16) : Statement (.trap c opnd) := by
  intro h k hk; cases hk; exact of_decide_eq_true h
theorem svc (c : Nat) (opnd : BitVec 16) : Statement (.svc c opnd) := by
  intro h k hk; cases hk; exact of_decide_eq_true h
theorem hvc (c : Nat) (opnd : BitVec 16) : Statement (.hvc c opnd) := by
  intro h k hk; cases hk; exact of_decide_eq_true h
theorem eret (c : Nat) (opnd : BitVec 16) : Statement (.eret c opnd) := by
  intro h k hk; cases hk; exact of_decide_eq_true h
theorem wfi (c : Nat) (opnd : BitVec 16) : Statement (.wfi c opnd) := by
  intro h k hk; cases hk; exact of_decide_eq_true h
theorem brk (c : Nat) (opnd : BitVec 16) : Statement (.brk c opnd) := by
  intro h k hk; cases hk; exact of_decide_eq_true h
theorem gate (c : Nat) (opnd : BitVec 16) : Statement (.gate c opnd) := by
  intro h k hk; cases hk; exact of_decide_eq_true h
theorem enter (c : Nat) (opnd : BitVec 16) : Statement (.enter c opnd) := by
  intro h k hk; cases hk; exact of_decide_eq_true h
theorem exit (c : Nat) (opnd : BitVec 16) : Statement (.exit c opnd) := by
  intro h k hk; cases hk; exact of_decide_eq_true h
theorem pflush (c : Nat) (opnd : BitVec 16) : Statement (.pflush c opnd) := by
  intro h k hk; cases hk; exact of_decide_eq_true h
theorem pbar (c : Nat) (opnd : BitVec 16) : Statement (.pbar c opnd) := by
  intro h k hk; cases hk; exact of_decide_eq_true h
theorem pmrd (c : Nat) (opnd : BitVec 16) : Statement (.pmrd c opnd) := by
  intro h k hk; cases hk; exact of_decide_eq_true h
theorem pmstop (c : Nat) (opnd : BitVec 16) : Statement (.pmstop c opnd) := by
  intro h k hk; cases hk; exact of_decide_eq_true h
theorem pmgo (c : Nat) (opnd : BitVec 16) : Statement (.pmgo c opnd) := by
  intro h k hk; cases hk; exact of_decide_eq_true h
theorem tlbiv (c : Nat) (opnd : BitVec 16) : Statement (.tlbiv c opnd) := by
  intro h k hk; cases hk; exact of_decide_eq_true h
theorem tlbiall (c : Nat) (opnd : BitVec 16) : Statement (.tlbiall c opnd) := by
  intro h k hk; cases hk; exact of_decide_eq_true h
theorem tlbivb (c : Nat) (opnd : BitVec 16) : Statement (.tlbivb c opnd) := by
  intro h k hk; cases hk; exact of_decide_eq_true h
theorem tlbiallb (c : Nat) (opnd : BitVec 16) : Statement (.tlbiallb c opnd) := by
  intro h k hk; cases hk; exact of_decide_eq_true h
theorem tlbitid (c : Nat) (opnd : BitVec 16) : Statement (.tlbitid c opnd) := by
  intro h k hk; cases hk; exact of_decide_eq_true h
theorem cwb (c : Nat) (opnd : BitVec 16) : Statement (.cwb c opnd) := by
  intro h k hk; cases hk; exact of_decide_eq_true h
theorem cflush (c : Nat) (opnd : BitVec 16) : Statement (.cflush c opnd) := by
  intro h k hk; cases hk; exact of_decide_eq_true h
theorem cinv (c : Nat) (opnd : BitVec 16) : Statement (.cinv c opnd) := by
  intro h k hk; cases hk; exact of_decide_eq_true h
theorem czero (c : Nat) (opnd : BitVec 16) : Statement (.czero c opnd) := by
  intro h k hk; cases hk; exact of_decide_eq_true h
theorem cpf (c : Nat) (opnd : BitVec 16) : Statement (.cpf c opnd) := by
  intro h k hk; cases hk; exact of_decide_eq_true h
theorem cwbset (c : Nat) (opnd : BitVec 16) : Statement (.cwbset c opnd) := by
  intro h k hk; cases hk; exact of_decide_eq_true h
theorem cflushset (c : Nat) (opnd : BitVec 16) : Statement (.cflushset c opnd) := by
  intro h k hk; cases hk; exact of_decide_eq_true h
theorem cinvset (c : Nat) (opnd : BitVec 16) : Statement (.cinvset c opnd) := by
  intro h k hk; cases hk; exact of_decide_eq_true h
theorem tswitch (c : Nat) (opnd : BitVec 16) : Statement (.tswitch c opnd) := by
  intro h k hk; cases hk; exact of_decide_eq_true h
theorem iclr (c : Nat) (opnd : BitVec 16) : Statement (.iclr c opnd) := by
  intro h k hk; cases hk; exact of_decide_eq_true h
theorem vinj (c : Nat) (opnd : BitVec 16) : Statement (.vinj c opnd) := by
  intro h k hk; cases hk; exact of_decide_eq_true h
theorem interruptEntry (c : Nat) : Statement (.interruptEntry c) := by
  intro _ k hk; cases hk
theorem wfiWake (c : Nat) : Statement (.wfiWake c) := by
  intro _ k hk; cases hk
theorem brMispred (c : Nat) (indirect : Bool) : Statement (.brMispred c indirect) := by
  intro _ k hk; cases hk
theorem storeDrain (c : Nat) : Statement (.storeDrain c) := by
  intro _ k hk; cases hk
theorem hazePromote (c : Nat) (line : Nat) : Statement (.hazePromote c line) := by
  intro _ k hk; cases hk
theorem pageWalk (c : Nat) (va : Word) (acc : Access) : Statement (.pageWalk c va acc) := by
  intro _ k hk; cases hk
theorem tlbiAckTimeout (c : Nat) (issuer : Nat) : Statement (.tlbiAckTimeout c issuer) := by
  intro _ k hk; cases hk
theorem l2Evict (c : Nat) (line : Nat) : Statement (.l2Evict c line) := by
  intro _ k hk; cases hk
theorem orderGrantObserved (lostAt : Option Nat) : Statement (.orderGrantObserved lostAt) := by
  intro _ k hk; cases hk
theorem homeSnoopTimeout (line : Nat) (holder : Nat) : Statement (.homeSnoopTimeout line holder) := by
  intro _ k hk; cases hk
theorem homeWaitExpired (line : Nat) : Statement (.homeWaitExpired line) := by
  intro _ k hk; cases hk
theorem flitHop (die : Nat) (flit : Nat) (words : List WordErr) (routeOk : Bool) : Statement (.flitHop die flit words routeOk) := by
  intro _ k hk; cases hk
theorem initiatorTimeout (node : Nat) (tag : Nat) (wrLine : Option Nat) : Statement (.initiatorTimeout node tag wrLine) := by
  intro _ k hk; cases hk
theorem retryReissue (node : Nat) (tag : Nat) (wrLine : Option Nat) : Statement (.retryReissue node tag wrLine) := by
  intro _ k hk; cases hk
theorem tagReserveExpiry (node : Nat) (tag : Nat) : Statement (.tagReserveExpiry node tag) := by
  intro _ k hk; cases hk
theorem ringReplayTimeout (src : Nat) (dst : Nat) : Statement (.ringReplayTimeout src dst) := by
  intro _ k hk; cases hk
theorem ringIdleDue (src : Nat) (dst : Nat) : Statement (.ringIdleDue src dst) := by
  intro _ k hk; cases hk
theorem drainLimitExpiry (d : Nat) : Statement (.drainLimitExpiry d) := by
  intro _ k hk; cases hk
theorem timeBaseUpdate (periods : Nat) : Statement (.timeBaseUpdate periods) := by
  intro _ k hk; cases hk
theorem timerCompare (c : Nat) : Statement (.timerCompare c) := by
  intro _ k hk; cases hk
theorem htimerCompare (c : Nat) : Statement (.htimerCompare c) := by
  intro _ k hk; cases hk
theorem quiesceCmdGo (tid : BitVec 12) : Statement (.quiesceCmdGo tid) := by
  intro _ k hk; cases hk
theorem quiesceDrainExpired : Statement .quiesceDrainExpired := by
  intro _ k hk; cases hk
theorem teCtlWrite (tid : BitVec 12) (value : Word) : Statement (.teCtlWrite tid value) := by
  intro _ k hk; cases hk
theorem governorInterval (milliamps : List Nat) : Statement (.governorInterval milliamps) := by
  intro _ k hk; cases hk
theorem dramTokenWaitEnd (line : Nat) : Statement (.dramTokenWaitEnd line) := by
  intro _ k hk; cases hk
theorem dieBudgetReport (cls : Nat) (die : Nat) (watts : Nat) (temps : List Nat) : Statement (.dieBudgetReport cls die watts temps) := by
  intro _ k hk; cases hk
theorem wardenCreate (req : Nat) : Statement (.wardenCreate req) := by
  intro _ k hk; cases hk
theorem addPage (req : Nat) : Statement (.addPage req) := by
  intro _ k hk; cases hk
theorem addEntry (req : Nat) : Statement (.addEntry req) := by
  intro _ k hk; cases hk
theorem sealRow (req : Nat) : Statement (.sealRow req) := by
  intro _ k hk; cases hk
theorem attest (req : Nat) : Statement (.attest req) := by
  intro _ k hk; cases hk
theorem wardenDestroy (req : Nat) : Statement (.wardenDestroy req) := by
  intro _ k hk; cases hk
theorem wardenRestart : Statement .wardenRestart := by
  intro _ k hk; cases hk
theorem entropyFailure : Statement .entropyFailure := by
  intro _ k hk; cases hk
theorem seedTripleRefill (c : Nat) (l1i core l2 : BitVec 16) : Statement (.seedTripleRefill c l1i core l2) := by
  intro _ k hk; cases hk
theorem cutHold (domain : Nat) (cut : Nat) : Statement (.cutHold domain cut) := by
  intro _ k hk; cases hk
theorem enclaveGraceExpiry (domain : Nat) : Statement (.enclaveGraceExpiry domain) := by
  intro _ k hk; cases hk
theorem forcedExit (c : Nat) : Statement (.forcedExit c) := by
  intro _ k hk; cases hk
theorem qpCreate (e : Nat) (v : Word) : Statement (.qpCreate e v) := by
  intro _ k hk; cases hk
theorem qpDestroy (e : Nat) (v : Word) : Statement (.qpDestroy e v) := by
  intro _ k hk; cases hk
theorem qpRearm (e : Nat) (v : Word) : Statement (.qpRearm e v) := by
  intro _ k hk; cases hk
theorem qpQuery (e : Nat) (v : Word) : Statement (.qpQuery e v) := by
  intro _ k hk; cases hk
theorem doorbell (e : Nat) (tid : BitVec 12) (idx : Nat) (v : Word) : Statement (.doorbell e tid idx v) := by
  intro _ k hk; cases hk
theorem frameReceive (p : Nat) (link : Nat) (fcsOk : Bool) (bytes : List Byte) : Statement (.frameReceive p link fcsOk bytes) := by
  intro _ k hk; cases hk
theorem frameTransmitted (p : Nat) (link : Nat) : Statement (.frameTransmitted p link) := by
  intro _ k hk; cases hk
theorem rcAckTimeout (qpn : Nat) : Statement (.rcAckTimeout qpn) := by
  intro _ k hk; cases hk
theorem cnpRateRecovery (qpn : Nat) : Statement (.cnpRateRecovery qpn) := by
  intro _ k hk; cases hk
theorem linkStateChange (p : Nat) (link : Nat) (up : Bool) : Statement (.linkStateChange p link up) := by
  intro _ k hk; cases hk
theorem mgmtFrameReceive (bytes : List Byte) : Statement (.mgmtFrameReceive bytes) := by
  intro _ k hk; cases hk
theorem smbusQuickCommand (addr : BitVec 7) (write : Bool) : Statement (.smbusQuickCommand addr write) := by
  intro _ k hk; cases hk
theorem smbusReadByte (addr : BitVec 7) (code : Byte) : Statement (.smbusReadByte addr code) := by
  intro _ k hk; cases hk
theorem dtlRd (h : DtlHdr) : Statement (.dtlRd h) := by
  intro _ k hk; cases hk
theorem dtlWr (h : DtlHdr) (d : Line) : Statement (.dtlWr h d) := by
  intro _ k hk; cases hk
theorem dtlWrp (h : DtlHdr) (d : Line) : Statement (.dtlWrp h d) := by
  intro _ k hk; cases hk
theorem dtlRddata (h : DtlHdr) (d : Line) : Statement (.dtlRddata h d) := by
  intro _ k hk; cases hk
theorem dtlWrack (h : DtlHdr) : Statement (.dtlWrack h) := by
  intro _ k hk; cases hk
theorem dtlMsg (h : DtlHdr) : Statement (.dtlMsg h) := by
  intro _ k hk; cases hk
theorem dtlBudget (h : DtlHdr) (d : Line) : Statement (.dtlBudget h d) := by
  intro _ k hk; cases hk
theorem dtlNak (h : DtlHdr) : Statement (.dtlNak h) := by
  intro _ k hk; cases hk
theorem guestBucketReady (stream : Nat) : Statement (.guestBucketReady stream) := by
  intro _ k hk; cases hk
theorem guestFenceComplete : Statement .guestFenceComplete := by
  intro _ k hk; cases hk
theorem guestLinkLoss : Statement .guestLinkLoss := by
  intro _ k hk; cases hk
theorem guestBudgetTimeout : Statement .guestBudgetTimeout := by
  intro _ k hk; cases hk
theorem guestSleepTimeout : Statement .guestSleepTimeout := by
  intro _ k hk; cases hk
theorem fwCtlWrite (v : Word) : Statement (.fwCtlWrite v) := by
  intro _ k hk; cases hk
theorem jobGo (l : Nat) (v : Word) : Statement (.jobGo l v) := by
  intro _ k hk; cases hk
theorem jobAbort (l : Nat) (v : Word) : Statement (.jobAbort l v) := by
  intro _ k hk; cases hk
theorem laneRearm (l : Nat) (v : Word) : Statement (.laneRearm l v) := by
  intro _ k hk; cases hk
theorem compressorBlock (l : Nat) : Statement (.compressorBlock l) := by
  intro _ k hk; cases hk
theorem scrubGo (k : Nat) (v : Word) : Statement (.scrubGo k v) := by
  intro _ k hk; cases hk
theorem scrubAbort (k : Nat) (v : Word) : Statement (.scrubAbort k v) := by
  intro _ k hk; cases hk
theorem scrubStep (k : Nat) : Statement (.scrubStep k) := by
  intro _ k hk; cases hk
theorem remapWrite (k : Nat) (n : Nat) (v : Word) : Statement (.remapWrite k n v) := by
  intro _ k hk; cases hk
theorem remapCopyStep (k : Nat) : Statement (.remapCopyStep k) := by
  intro _ k hk; cases hk
theorem sliceRemapWrite (h : Nat) (n : Nat) (v : Word) : Statement (.sliceRemapWrite h n v) := by
  intro _ k hk; cases hk
theorem flipArm (slice : Bool) (n : Nat) (v : Word) : Statement (.flipArm slice n v) := by
  intro _ k hk; cases hk
theorem mcErrClear (k : Nat) (v : Word) : Statement (.mcErrClear k v) := by
  intro _ k hk; cases hk
theorem clrErr (h : Nat) (v : Word) : Statement (.clrErr h v) := by
  intro _ k hk; cases hk
theorem sliceLfsrWrite (h : Nat) (v : Word) : Statement (.sliceLfsrWrite h v) := by
  intro _ k hk; cases hk
theorem violationClear (block : Nat) (v : Word) : Statement (.violationClear block v) := by
  intro _ k hk; cases hk
theorem statClear (r : Nat) (v : Word) : Statement (.statClear r v) := by
  intro _ k hk; cases hk
theorem pvClear (u : Nat) (v : Word) : Statement (.pvClear u v) := by
  intro _ k hk; cases hk
theorem registerWrite (node : Nat) (tid : BitVec 12) (pa : Nat) (wide : Bool) (v : Word) : Statement (.registerWrite node tid pa wide v) := by
  intro _ k hk; cases hk
theorem mtAdd (v : Word) : Statement (.mtAdd v) := by
  intro _ k hk; cases hk
theorem mtRemove (v : Word) : Statement (.mtRemove v) := by
  intro _ k hk; cases hk
theorem mtRearm (v : Word) : Statement (.mtRearm v) := by
  intro _ k hk; cases hk
theorem helloTimer : Statement .helloTimer := by
  intro _ k hk; cases hk
theorem heartbeatTimer : Statement .heartbeatTimer := by
  intro _ k hk; cases hk
theorem helloFrame (f : CFrame) : Statement (.helloFrame f) := by
  intro _ k hk; cases hk
theorem heartbeatFrame (f : CFrame) : Statement (.heartbeatFrame f) := by
  intro _ k hk; cases hk
theorem joinFrame (f : CFrame) : Statement (.joinFrame f) := by
  intro _ k hk; cases hk
theorem joinOkFrame (f : CFrame) : Statement (.joinOkFrame f) := by
  intro _ k hk; cases hk
theorem joinTimeout : Statement .joinTimeout := by
  intro _ k hk; cases hk
theorem contrailDrop (f : CFrame) : Statement (.contrailDrop f) := by
  intro _ k hk; cases hk
theorem stateFrame (f : CFrame) : Statement (.stateFrame f) := by
  intro _ k hk; cases hk
theorem linesFrame (f : CFrame) : Statement (.linesFrame f) := by
  intro _ k hk; cases hk
theorem outputFrame (f : CFrame) : Statement (.outputFrame f) := by
  intro _ k hk; cases hk
theorem endFrame (f : CFrame) : Statement (.endFrame f) := by
  intro _ k hk; cases hk
theorem ackFrame (f : CFrame) : Statement (.ackFrame f) := by
  intro _ k hk; cases hk
theorem intentFrame (f : CFrame) : Statement (.intentFrame f) := by
  intro _ k hk; cases hk
theorem grantFrame (f : CFrame) : Statement (.grantFrame f) := by
  intro _ k hk; cases hk
theorem sentFrame (f : CFrame) : Statement (.sentFrame f) := by
  intro _ k hk; cases hk
theorem nakFrame (f : CFrame) : Statement (.nakFrame f) := by
  intro _ k hk; cases hk
theorem resendFrame (f : CFrame) : Statement (.resendFrame f) := by
  intro _ k hk; cases hk
theorem resendGapTimeout : Statement .resendGapTimeout := by
  intro _ k hk; cases hk
theorem epochBoundaryStart (m : Nat) : Statement (.epochBoundaryStart m) := by
  intro _ k hk; cases hk
theorem boundaryAbandon (m : Nat) : Statement (.boundaryAbandon m) := by
  intro _ k hk; cases hk
theorem boundaryRetry (m : Nat) : Statement (.boundaryRetry m) := by
  intro _ k hk; cases hk
theorem captureRead (m : Nat) : Statement (.captureRead m) := by
  intro _ k hk; cases hk
theorem epochApply (m : Nat) : Statement (.epochApply m) := by
  intro _ k hk; cases hk
theorem partnerLoss : Statement .partnerLoss := by
  intro _ k hk; cases hk
theorem mirrorLeaveExpiry : Statement .mirrorLeaveExpiry := by
  intro _ k hk; cases hk
theorem pkgCmdHold : Statement .pkgCmdHold := by
  intro _ k hk; cases hk
theorem pkgCmdOff : Statement .pkgCmdOff := by
  intro _ k hk; cases hk
theorem domReqRun (d : Nat) : Statement (.domReqRun d) := by
  intro _ k hk; cases hk
theorem domReqRetain (d : Nat) : Statement (.domReqRetain d) := by
  intro _ k hk; cases hk
theorem domReqOff (d : Nat) : Statement (.domReqOff d) := by
  intro _ k hk; cases hk
theorem doorAnswer (d : Nat) (a : Arrival) : Statement (.doorAnswer d a) := by
  intro _ k hk; cases hk
theorem domainCloseComplete (d : Nat) : Statement (.domainCloseComplete d) := by
  intro _ k hk; cases hk
theorem domainWakeComplete (d : Nat) : Statement (.domainWakeComplete d) := by
  intro _ k hk; cases hk
theorem wakeTimer : Statement .wakeTimer := by
  intro _ k hk; cases hk
theorem avsResponse (master : Nat) (good : Bool) : Statement (.avsResponse master good) := by
  intro _ k hk; cases hk
theorem avsStatusRead (master : Nat) (vdone : Bool) : Statement (.avsStatusRead master vdone) := by
  intro _ k hk; cases hk
theorem avsRequestFail (master : Nat) : Statement (.avsRequestFail master) := by
  intro _ k hk; cases hk
theorem tbStep (v : Word) : Statement (.tbStep v) := by
  intro _ k hk; cases hk
theorem tbSlew (v : Word) : Statement (.tbSlew v) := by
  intro _ k hk; cases hk
theorem powerCeilWrite (v : Word) : Statement (.powerCeilWrite v) := by
  intro _ k hk; cases hk
theorem fenceComplete (u : Nat) : Statement (.fenceComplete u) := by
  intro _ k hk; cases hk
theorem fcAckedWrite (v : Word) : Statement (.fcAckedWrite v) := by
  intro _ k hk; cases hk
theorem acknowledgeStarvation (agent : BitVec 16) (starving : BitVec 16) : Statement (.acknowledgeStarvation agent starving) := by
  intro _ k hk; cases hk
theorem referenceClockLost (island : Nat) : Statement (.referenceClockLost island) := by
  intro _ k hk; cases hk
theorem referenceClockReturn (island : Nat) : Statement (.referenceClockReturn island) := by
  intro _ k hk; cases hk
theorem resetCmdFull (index : BitVec 10) : Statement (.resetCmdFull index) := by
  intro _ k hk; cases hk
theorem resetCmdComputeDie (index : BitVec 10) : Statement (.resetCmdComputeDie index) := by
  intro _ k hk; cases hk
theorem resetCmdCore (index : BitVec 10) : Statement (.resetCmdCore index) := by
  intro _ k hk; cases hk
theorem coldRstNAssert : Statement .coldRstNAssert := by
  intro _ k hk; cases hk
theorem vaonPowerUp : Statement .vaonPowerUp := by
  intro _ k hk; cases hk
theorem vaonLoss : Statement .vaonLoss := by
  intro _ k hk; cases hk
theorem coldResetEnd (mgmtId : BitVec 16) (smbAddr : BitVec 3) (testMode : Bool) : Statement (.coldResetEnd mgmtId smbAddr testMode) := by
  intro _ k hk; cases hk
theorem thermalTrip (die : Nat) (temp : Nat) : Statement (.thermalTrip die temp) := by
  intro _ k hk; cases hk
theorem jtagTapReset : Statement .jtagTapReset := by
  intro _ k hk; cases hk
theorem jtagBypass (tdi : List Bool) : Statement (.jtagBypass tdi) := by
  intro _ k hk; cases hk
theorem jtagIdcode : Statement .jtagIdcode := by
  intro _ k hk; cases hk
theorem jtagSamplePreload (lands : BitVec 41) (preload : BitVec 41) : Statement (.jtagSamplePreload lands preload) := by
  intro _ k hk; cases hk
theorem jtagExtest (lands : BitVec 41) (shiftIn : BitVec 41) : Statement (.jtagExtest lands shiftIn) := by
  intro _ k hk; cases hk
theorem jtagClamp (tdi : List Bool) : Statement (.jtagClamp tdi) := by
  intro _ k hk; cases hk
theorem jtagHighz (tdi : List Bool) : Statement (.jtagHighz tdi) := by
  intro _ k hk; cases hk
theorem rowNop : Statement .rowNop := by
  intro _ k hk; cases hk
theorem rowWriteReg : Statement .rowWriteReg := by
  intro _ k hk; cases hk
theorem loadSection : Statement .loadSection := by
  intro _ k hk; cases hk
theorem powerOn : Statement .powerOn := by
  intro _ k hk; cases hk
theorem powerOff : Statement .powerOff := by
  intro _ k hk; cases hk
theorem retain : Statement .retain := by
  intro _ k hk; cases hk
theorem restore : Statement .restore := by
  intro _ k hk; cases hk
theorem resetAssert : Statement .resetAssert := by
  intro _ k hk; cases hk
theorem rowResetRelease : Statement .rowResetRelease := by
  intro _ k hk; cases hk
theorem drain : Statement .drain := by
  intro _ k hk; cases hk
theorem rowFence : Statement .rowFence := by
  intro _ k hk; cases hk
theorem unfence : Statement .unfence := by
  intro _ k hk; cases hk
theorem avsSet : Statement .avsSet := by
  intro _ k hk; cases hk
theorem linkTrain (modules : BitVec 4) : Statement (.linkTrain modules) := by
  intro _ k hk; cases hk
theorem bist (pass : Bool) : Statement (.bist pass) := by
  intro _ k hk; cases hk
theorem selfRefreshEnter : Statement .selfRefreshEnter := by
  intro _ k hk; cases hk
theorem selfRefreshExit : Statement .selfRefreshExit := by
  intro _ k hk; cases hk
theorem signal : Statement .signal := by
  intro _ k hk; cases hk
theorem rowCall : Statement .rowCall := by
  intro _ k hk; cases hk
theorem skipIf : Statement .skipIf := by
  intro _ k hk; cases hk
theorem rowEnd : Statement .rowEnd := by
  intro _ k hk; cases hk
theorem rowWaitMet : Statement .rowWaitMet := by
  intro _ k hk; cases hk
theorem rowWaitFailed : Statement .rowWaitFailed := by
  intro _ k hk; cases hk
theorem getResult : Statement .getResult := by
  intro _ k hk; cases hk
theorem getStatus : Statement .getStatus := by
  intro _ k hk; cases hk
theorem readReg : Statement .readReg := by
  intro _ k hk; cases hk
theorem readPlog : Statement .readPlog := by
  intro _ k hk; cases hk
theorem getAttestKey : Statement .getAttestKey := by
  intro _ k hk; cases hk
theorem imageStart : Statement .imageStart := by
  intro _ k hk; cases hk
theorem imageData : Statement .imageData := by
  intro _ k hk; cases hk
theorem imageCommit : Statement .imageCommit := by
  intro _ k hk; cases hk
theorem runTable : Statement .runTable := by
  intro _ k hk; cases hk
theorem setPkgState : Statement .setPkgState := by
  intro _ k hk; cases hk
theorem resetFull : Statement .resetFull := by
  intro _ k hk; cases hk
theorem resetComputeDie : Statement .resetComputeDie := by
  intro _ k hk; cases hk
theorem resetCore : Statement .resetCore := by
  intro _ k hk; cases hk
theorem resetCold : Statement .resetCold := by
  intro _ k hk; cases hk
theorem writeReg : Statement .writeReg := by
  intro _ k hk; cases hk
theorem provisionKey : Statement .provisionKey := by
  intro _ k hk; cases hk
theorem raiseFloor : Statement .raiseFloor := by
  intro _ k hk; cases hk
theorem setPairing : Statement .setPairing := by
  intro _ k hk; cases hk
theorem plogAck : Statement .plogAck := by
  intro _ k hk; cases hk
theorem setMkey : Statement .setMkey := by
  intro _ k hk; cases hk
theorem subscribe : Statement .subscribe := by
  intro _ k hk; cases hk
theorem setNet : Statement .setNet := by
  intro _ k hk; cases hk
theorem contrailBreak (f : CFrame) : Statement (.contrailBreak f) := by
  intro _ k hk; cases hk
theorem contrailFrameInvalid (f : CFrame) (badCheck : Bool) : Statement (.contrailFrameInvalid f badCheck) := by
  intro _ k hk; cases hk
theorem dtlReservedMessage (ty : Byte) (h : DtlHdr) : Statement (.dtlReservedMessage ty h) := by
  intro _ k hk; cases hk
theorem wardenRestartComplete : Statement .wardenRestartComplete := by
  intro _ k hk; cases hk
theorem entropyHealthRestored : Statement .entropyHealthRestored := by
  intro _ k hk; cases hk
theorem coldRstNRelease : Statement .coldRstNRelease := by
  intro _ k hk; cases hk

end Sys2Proof.Laws.CoreBound
end

