-- ==== Sys2Proof/Tests/Slice0.lean ====
section
/-! SUPPORT. Tests: witnesses for the statements (a state and operands that meet the hypotheses, and what the command answers
there), one ill-formed command for each check of WellFormed, and words of Gliwin instructions written out from their tables. -/

namespace Sys2Proof.Machine

set_option Elab.async false

/-! ### Helpers -/

/-- The next state satisfies a test. -/
def nextIs (o : Out) (p : State → Bool) : Bool :=
  match o with
  | .next t => p t
  | _ => false

/-- The command answers this very state. -/
def gives (i : Instr) (s t : State) : Bool := nextIs (exec i s) fun u => decide (u = t)

/-- The command faults as ill-formed. -/
def illFormed (i : Instr) : Bool :=
  match exec i State.reset with
  | .fault .illFormed => true
  | _ => false

/-- A small image: base die 0, compute die 0, port 0 a mirror port, port 1 an Ethernet port, features 0 to 5, one table. -/
def testImage : Image :=
  { len := 0x600,
    bytes := [(128, 1), (137, 4), (144, 8), (153, 5), (160, 11), (169, 6), (176, 10), (185, 7),
      (0x400, 1), (0x404, 1), (0x409, 1), (0x508, 2), (0x50C, 1), (0x600, 0x3F), (0x630, 2), (0x700, 1), (0x702, 3), (0x708, 0x10), (0x70C, 3),
      (0x750, 0x14)] }

/-- A core that runs at 0x10000, its caches off: the instruction at P is proven, and the lines that it reads uncached, its own
and those of slots 0 to 31 at F = 0, have come from their home as zeros. -/
def runCore : Core := { Core.initial with
  run := .running, proven := true, cur := [1024, 0, 1, 2, 3].map fun l => (l, ⟨0, false⟩) }
/-- The same, line 0, where slots 0 to 7 lie, having come as `d`. -/
def Core.slots (c : Core) (d : Line) : Core := { c with cur := (0, ⟨d, false⟩) :: c.cur }

def runDom : Dom := { Dom.initial with st := .run, inReset := false }

/-- The test package in RUN with its image active. -/
def baseState : State :=
  { State.reset with
    seq := { State.reset.seq with active := some testImage },
    power := { State.reset.power with
      pkg := 0,
      doms := [(0, runDom), (1, runDom), (576, runDom), (577, runDom), (672, runDom), (684, runDom), (685, runDom),
        (686, runDom), (696, runDom), (697, runDom), (704, runDom), (708, runDom), (709, runDom), (710, runDom),
        (711, runDom), (712, runDom), (716, runDom)] },
    cores := [(0, runCore)] }

/-- The test package with core 0 changed. -/
def coreState (f : Core → Core) : State := { baseState with cores := [(0, f runCore)] }

/-- What the next instruction of core 0 sees, and the state after its fetch. -/
def ctxOf (s : State) : Ctx := (s.core 0).ctx 0
def okOf {α : Type} (r : EStateM.Result Stop State α) : Bool :=
  match r with
  | .ok _ _ => true
  | .error _ _ => false
def afterOf {α : Type} (r : EStateM.Result Stop State α) : State :=
  match r with
  | .ok _ s => s
  | .error _ s => s
def fetched (s : State) : State := afterOf (fetch (ctxOf s) s)
def fetchOk (s : State) : Bool :=
  s.canExec 0 && !(s.core 0).tlbMark && (s.boundary 0).isNone && okOf (fetch (ctxOf s) s)

theorem ok_eq (r : EStateM.Result Stop State Unit) (h : okOf r = true) : r = .ok () (afterOf r) := by
  cases r with
  | ok a s => rfl
  | error e s => cases h

theorem fetches_of (s : State) (h : fetchOk s = true) : Fetches 0 s (ctxOf s) (fetched s) := by
  simp only [fetchOk, Bool.and_eq_true, Bool.not_eq_true', Option.isNone_iff_eq_none] at h
  exact ⟨h.1.1.1, h.1.1.2, h.1.2, rfl, ok_eq _ h.2⟩

/-- Slots can be read and then others written. -/
def slotsOk (s : State) (rs : List Nat) (ws : List (Nat × Word)) : Bool :=
  okOf (slotsRead (ctxOf s) rs (fetched s)) && okOf (slotsWrite (ctxOf s) ws (afterOf (slotsRead (ctxOf s) rs (fetched s))))

/-- The instructions complete: P moves past them. -/
def runs (s : State) (is : List Instr) : Bool := is.all fun i => nextIs (exec i s) fun t => (t.core 0).p == (s.core 0).p + 4
/-- The instructions raise the exception of a code at H: P is the handler's address and ECAUSE names it. -/
def raises (s : State) (code : Nat) (is : List Instr) : Bool :=
  is.all fun i => nextIs (exec i s) fun t => fld ((t.core 0).reg 0xE) 0 10 == code && (t.core 0).p == vecOffset code

def hState : State := coreState fun c => { c with sw := 2 }
/-- The same without features. -/
def plainState : State := { hState with seq := { hState.seq with active := some ⟨0x600, [(128, 1), (137, 4), (0x400, 1), (0x404, 1)]⟩ } }
/-- The core at U. -/
def uState : State := coreState fun c => { c with sw := 0 }

theorem test_fetch : fetchOk hState = true ∧ fetchOk plainState = true ∧ fetchOk uState = true := by decide +kernel
theorem witness_fetches : ∃ x s1, Fetches 0 hState x s1 := ⟨_, _, fetches_of _ test_fetch.1⟩

/-! ### Instructions of a core: witnesses, and that they complete -/

theorem witness_slots : slotsOk hState [1, 2] [(3, 5)] = true ∧ slotsOk hState [31] [(0, 5), (1, 6), (2, 7), (3, 8)] = true := by decide +kernel
theorem test_integer : runs hState [.add 0 3 1 2, .sub 0 3 1 2, .andT 0 3 1 2, .orT 0 3 1 2, .xor 0 3 1 2, .shl 0 3 1 2,
    .shr 0 3 1 2, .sar 0 3 1 2, .ror 0 3 1 2, .min 0 3 1 2, .max 0 3 1 2, .minu 0 3 1 2, .maxu 0 3 1 2, .slt 0 3 1 2,
    .sltu 0 3 1 2, .mul 0 3 1 2, .mulh 0 3 1 2, .mulhu 0 31 31 0] = true := by decide +kernel
theorem test_unary : runs hState [.movs 0 3 1 0, .clz 0 3 1 0, .ctz 0 3 1 0, .popc 0 3 1 0, .bswap 0 3 1 0, .fsqrt 0 3 1 0,
    .fcvti 0 3 1 0, .fcvtf 0 3 1 0] = true ∧ raises hState 1 [.movs 0 3 1 1, .clz 0 3 1 31] = true := by decide +kernel
theorem test_features : raises plainState 1 [.mulh 0 3 1 2, .mulhu 0 3 1 2, .crc32cb 0 3 1 2, .sha256w 0 3 1 2,
    .vadd 0 3 0 4 0] = true ∧ hState.caps = 63 ∧ plainState.caps = 0 := by decide +kernel
theorem test_divide_by_zero : raises hState 3 [.div 0 3 1 2, .divu 0 3 1 2, .rem 0 3 1 2, .remu 0 3 1 2] = true := by decide +kernel
theorem test_float : runs hState [.fadd 0 3 1 2, .fsub 0 3 1 2, .fmul 0 3 1 2, .fdiv 0 3 1 2, .fmin 0 3 1 2, .fmax 0 3 1 2,
    .flt 0 3 1 2, .feq 0 3 1 2, .fma 0 3 1 2] = true := by decide +kernel
theorem test_crypto : runs hState [.sha256w 0 3 1 2, .sha512w 0 3 1 2, .crc32cb 0 3 1 2, .crc32ch 0 3 1 2, .crc32cw 0 3 1 2,
    .crc32cd 0 3 1 2, .aessub 0 3 1 0] = true := by decide +kernel
theorem test_aes : runs hState [.aese 0 2 4 6, .aesel 0 2 4 30, .aesd 0 2 4 6, .aesdl 0 2 4 6] = true := by decide +kernel
set_option maxRecDepth 10000 in
theorem test_sha : runs hState [.sha256r 0 4 1 0, .sha512r 0 24 1 0] = true := by decide +kernel
theorem test_vector : runs hState [.vadd 0 0 0 4 0, .vsub 0 1 0 28 0, .vmul 0 2 0 4 0, .vand 0 3 0 4 0, .vor 0 0 0 4 0,
    .vxor 0 0 0 4 0, .vmin 0 0 0 4 0, .vmax 0 0 0 4 0, .vminu 0 0 0 4 0, .vmaxu 0 0 0 4 0, .vshl 0 0 0 4 0, .vshr 0 0 0 4 0,
    .vsar 0 0 0 4 0, .vcmpeq 0 0 0 4 0, .vcmplt 0 0 0 4 0, .vcmpltu 0 0 0 4 0] = true ∧
    raises hState 1 [.vadd 0 3 1 4 0, .vsub 0 3 0 5 0] = true := by decide +kernel
theorem test_vector_moves : runs hState [.vfma 0 5 0 4 8, .vlds 0 3 0 28 0, .vsts 0 3 28 0 0, .vbcast 0 0 0 31 0,
    .vext 0 0 3 0 31, .vins 0 0 0 1 31, .vradd 0 0 3 0 0, .vrmin 0 0 3 0 0, .vrmax 0 0 3 0 0] = true := by decide +kernel
theorem test_immediate : runs hState [.li 0 5, .addi 0 0xFFFFFF, .shi 0 5, .andi 0 5, .lix 0 5, .addx 0 5, .liy 0 5, .addy 0 5,
    .addf 0 5, .ori 0 5, .xori 0 5, .shifti 0 0xFF, .mov 0 0x54] = true ∧
    raises hState 1 [.shifti 0 0x100, .mov 0 0x100] = true := by decide +kernel
theorem test_memory : runs hState [.ld 0 0 3 5, .lds 0 0 2 5, .ldx 0 0 3 5, .ldy 0 0 3 5, .addMem 0 0 0 5, .subMem 0 0 3 5,
    .andMem 0 0 3 5, .orMem 0 0 3 5, .xorMem 0 0 3 5, .mulMem 0 0 3 5, .lea 0 3 3 5, .vld 0 0 3 5, .st 0 0 3 5, .stx 0 0 0 5,
    .sty 0 0 3 5, .vst 0 0 3 5] = true := by decide +kernel
theorem test_transfers : nextIs (exec (.bCond 0 0 3 2) hState) (fun t => (t.core 0).p == 0x10008 || (t.core 0).p == 0x10004) = true ∧
    nextIs (exec (.jmp 0 3) hState) (fun t => (t.core 0).p == 0x1000C) = true ∧
    nextIs (exec (.call 0 0x3FFFFFF) hState) (fun t => (t.core 0).p == 0xFFFC && (t.core 0).l == 0x10004) = true ∧
    nextIs (exec (.ret 0 0) hState) (fun t => (t.core 0).p == 0) = true ∧
    nextIs (exec (.calla 0 0) (coreState fun c => { c with sw := 2, a := 8 })) (fun t => (t.core 0).p == 8) = true ∧
    raises (coreState fun c => { c with sw := 2, a := 2 }) 4 [.ja 0 0, .calla 0 0] = true := by decide +kernel

theorem test_atomics : ([.afadd 0 0 0 false 0 1 2, .aswap 0 0 1 false 0 1 2, .acas 0 0 2 false 0 1 2, .amin 0 0 3 false 0 1 2,
    .amax 0 0 0 false 0 1 2, .aminu 0 0 0 false 0 1 2, .amaxu 0 0 0 false 0 1 2, .aand 0 0 0 false 0 1 2,
    .aor 0 0 0 false 0 1 2, .axor 0 0 0 false 0 1 31] : List Instr).all (fun i => nextIs (exec i hState) fun t =>
      (match (t.core 0).stall with | .atomic _ 0 _ => true | _ => false) && t.inflight.length == 1 + hState.inflight.length) = true := by
  decide +kernel

/-- Slot 1, at F + 8, holds 4; slot 2 holds an address of device space. -/
def atomState : State := coreState fun c => { c.slots (4 <<< 64 ||| 0x0F <<< 176) with sw := 2 }
theorem test_atomic_align : raises atomState 5 [.afadd 0 0 0 false 0 1 3, .aswap 0 0 0 false 0 1 3, .axor 0 0 3 false 0 1 3] = true ∧
    raises atomState 6 [.afadd 0 0 0 false 0 2 3, .acas 0 0 0 false 0 2 3] = true := by decide +kernel

/-! ### System instructions -/

theorem test_system_registers : runs hState [.mfsr 0 0xC05, .mtsr 0 0xC70, .mfsw 0 31, .pmrd 0 0xC0F] = true ∧
    nextIs (exec (.mtsw 0 3) hState) (fun t => (t.core 0).p == 0x10004 && swPl (t.core 0).sw == 0) = true := by decide +kernel
/-- A register with distance 32 and its window, which the writer's own boundary brings to the 31 instructions that follow. -/
theorem test_effect_distance : let t := hState.srWrite 0 0x70 7 32
    ((t.core 0).reg 0x70, (t.core 0).win) = (7, [⟨0x70, 0, 32⟩]) ∧ ((t.tick 0).core 0).win = [⟨0x70, 0, 31⟩] ∧
      ((hState.srWrite 0 0x70 7 2).core 0).win = [⟨0x70, 0, 2⟩] := by decide
theorem test_barriers : runs hState [.sync 0 0, .ifence 0 0, .fence 0 0, .pflush 0 0, .pbar 0 0, .gate 0 0xFFFF] = true ∧
    runs uState [.gate 0 0] = true := by decide +kernel
/-- With a store buffered the barriers wait. -/
def storeState : State := coreState fun c => { c with sw := 2, sb := [⟨64, 0, 0xFF, false, false, 0, none, 64, 0⟩] }
theorem test_barriers_wait : fetchOk storeState = true ∧ ([.sync 0 0, .ifence 0 0, .fence 0 0] : List Instr).all
    (fun i => nextIs (exec i storeState) fun t => (t.core 0).p == 0x10000) = true := by decide +kernel
/-- At U: TRAP, SVC and BREAK go to S, where EPC is the next instruction. -/
theorem test_calls : ([(.trap 0 5, 0x09), (.svc 0 5, 0x0A), (.brk 0 5, 0x0B), (.hvc 0 5, 0x02)] : List (Instr × Nat)).all (fun p =>
    nextIs (exec p.1 uState) fun t => fld ((t.core 0).reg 6) 0 10 == p.2 && swPl (t.core 0).sw == 1 &&
      (t.core 0).reg 4 == (if p.2 = 2 then 0x10000 else 0x10004)) = true ∧
    raises hState 0x60 [.hvc 0 7] = true := by decide +kernel
/-- H returns to 0x2000 at U with F taken from EFRAME. -/
def eretState : State := coreState fun c => { c with sw := 2, sr := [(0xC, 0x2000), (0xD, 0x28), (0x11, 0x408)] }
theorem test_eret : nextIs (exec (.eret 0 0) eretState) (fun t => (t.core 0).p == 0x2000 && (t.core 0).sw == 0x28 &&
    (t.core 0).f == 0x408 && (t.core 0).win == []) = true := by decide +kernel
/-- At S a saved level H raises PRIVILEGE. -/
def sState : State := coreState fun c => { c with sw := 1, sr := [(5, 2)] }
theorem test_eret_privilege : fetchOk sState = true ∧ nextIs (exec (.eret 0 0) sState)
    (fun t => fld ((t.core 0).reg 6) 0 10 == 2 && swPl (t.core 0).sw == 1) = true := by decide +kernel

/-- WFI at H with nothing pending, and a core in WFI with IPI pending for it. -/
def wfiState : State := coreState fun c => { c with run := .wfi, ipi := true, sw := 2 }
theorem test_wfi : nextIs (exec (.wfi 0 0) hState) (fun t => (t.core 0).run == .wfi && (t.core 0).p == 0x10004) = true ∧
    wfiState.coreRuns 0 = true ∧ ((wfiState.core 0).pendingInts 0).isEmpty = false ∧
    gives (.wfiWake 0) wfiState (wfiState.setCore 0 { wfiState.core 0 with run := .running }) = true := by decide +kernel
/-- TIMER_CMP_S of 0 has been reached. -/
def timerState : State := coreState fun c => { c with run := .wfi, sw := 1, sr := [(0x83, 3), (0x95, 0), (0x96, 0)] }
theorem test_timers : ([.timerCompare 0, .htimerCompare 0] : List Instr).all (fun i =>
    gives i timerState (timerState.setCore 0 { timerState.core 0 with run := .running })) = true := by decide +kernel
/-- At U an IPI is taken at S, with EPC the instruction not yet started. -/
theorem test_interrupt_taken : nextIs (exec (.interruptEntry 0) (coreState fun c => { c with sw := 0, ipi := true })) (fun t =>
    (t.core 0).reg 4 == 0x10000 && fld ((t.core 0).reg 6) 0 10 == 0x73 && (t.core 0).p == 0x100) = true := by decide +kernel
theorem test_interrupt_entry : hState.atBoundary 0 = true ∧ hState.intDue 0 = none ∧
    gives (.interruptEntry 0) hState hState = true := by decide +kernel
theorem test_counter_instructions : runs hState [.pmstop 0 0, .pmgo 0 0, .iclr 0 3, .vinj 0 0x7C00] = true ∧
    nextIs (exec (.vinj 0 0x400) hState) (fun t => t.inflight == [.routerMessage 0 0]) = true ∧
    ([.pmstop 0 0, .pmgo 0 0] : List Instr).all (fun i => nextIs (exec i uState) fun t => fld ((t.core 0).reg 6) 0 10 == 2) = true := by
  decide +kernel
theorem test_tswitch : nextIs (exec (.tswitch 0 0x0400) (coreState fun c => { c.slots (4 <<< 64) with sw := 2 })) (fun t =>
    (t.core 0).tid == 4 && (match (t.core 0).stall with | .tswitch 0 4 [] => true | _ => false) &&
      t.inflight == [.residencyUpdate 0 4 true]) = true ∧
    nextIs (exec (.tswitch 0 0x0400) (coreState fun c => { c.slots (4 <<< 64) with sw := 2, sr := [(0x84, 5)] })) (fun t =>
      (match (t.core 0).stall with | .tpush 0 4 => true | _ => false) && (t.core 0).reg 0x84 == 0 && t.inflight == [] &&
        (t.core 0).sb.map (fun e => (e.data, e.mask)) == [(0x010001, 5)]) = true := by decide +kernel
def tswitchState : State := coreState fun c => { c with sw := 2, stall := .tswitch 0 4 [], sr := [(srTid, 4)] }
theorem test_residency_answer : nextIs (exec (.residencyAnswer 0 5 0) tswitchState) (fun t =>
    (t.core 0).stall == .none && (t.core 0).p == 0x10004 && (t.core 0).reg srQos == 5) = true := by decide +kernel

/-! ### Invalidation and cache instructions -/

/-- The issuer waits for every enabled core that runs; core 1, at another tenant with no store buffered, acknowledges. -/
theorem test_tlbi : runs hState [.tlbiall 0 0, .tlbiv 0 0x400] = true ∧ ([.tlbiallb 0 0, .tlbivb 0 0x400, .tlbitid 0 0x7C00] : List Instr).all
    (fun i => nextIs (exec i hState) fun t => (t.core 0).stall == .bcast [0, 1]) = true := by decide +kernel
def bcastState : State := { hState with cores := [(0, { runCore with sw := 2, stall := .bcast [1] }),
  (1, { runCore with sw := 2, bcasts := [⟨0, 5, none, 0, none⟩] })] }
theorem test_broadcast_take : (bcastState.core 1).tid ≠ 5 ∧ nextIs (exec (.tlbiBroadcastTake 1 0) bcastState) (fun t =>
    (t.core 1).bcasts == [] && (t.core 0).p == 0x10004) = true := by decide +kernel
theorem test_broadcast_timeout : nextIs (exec (.tlbiAckTimeout 1 0) bcastState) (fun t =>
    (t.core 1).tlbMark && (t.core 0).p == 0x10004 && t.inflight == [.faultMessage (bcastState.coreSrc 1) 0x07 none 0]) = true := by
  decide +kernel

/-- CACHE_EN 7, and the L2 holds line 1 as `st`, the line that P is in, and line 0 as `d`. -/
def cacheStateOf (d : Line) (st : L2St) (f : Core → Core) : State := coreState fun c => f { c with
  sw := 2, sr := [(srCacheEn, 7)],
  l2 := [(0, ⟨1024, .s, 0, false, false, .none⟩), (1, ⟨0, .s, d, false, false, .none⟩), (16, ⟨1, st, 5, false, false, .none⟩)] }
def cacheState (st : L2St) (f : Core → Core) : State := cacheStateOf 0 st f
/-- Slot 1 (physical line 0) holds the address 64, slot 2 the address 128. -/
def lineState (st : L2St) : State := cacheStateOf (64 <<< 64 ||| 128 <<< 128) st id
theorem witness_line : fetchOk (lineState .e) = true ∧ ((lineState .e).core 0).owns 1 = true ∧ ((lineState .s).core 0).owns 1 = false ∧
    ((lineState .s).core 0).l1dOn = true ∧ (((lineState .s).core 0).inL2 1).isSome = true := by decide +kernel
theorem test_line_maintenance : ([.cwb 0 0x400, .cflush 0 0x400, .cinv 0 0x400] : List Instr).all (fun i => nextIs (exec i (lineState .e)) fun t =>
      (match (t.core 0).stall with | .maint 64 [_] => true | _ => false)) = true ∧
    nextIs (exec (.cinv 0 0x400) (lineState .s)) (fun t => ((t.core 0).inL2 1).isNone) = true := by decide +kernel
theorem test_czero : nextIs (exec (.czero 0 0x400) (lineState .e)) (fun t => (t.core 0).p == 0x10004 &&
    ((t.core 0).inL1d 1).any fun e => e.2.bytes == 0) = true := by decide +kernel
theorem test_set_maintenance : runs hState [.cwbset 0 0, .cflushset 0 0, .cinvset 0 0] = true ∧
    ((hState.core 0).setLines 0).isEmpty = true ∧ ([.cwbset 0 0, .cflushset 0 0, .cinvset 0 0] : List Instr).all
      (fun i => nextIs (exec i uState) fun t => fld ((t.core 0).reg 6) 0 10 == 2) = true := by decide +kernel
/-- Slot 2 holds 128, a line the L2 lacks; slot 1 holds 64. -/
theorem test_prefetch : nextIs (exec (.cpf 0 0x800) (lineState .s)) (fun t => (t.core 0).p == 0x10004 &&
      (t.core 0).txns.any fun x => x.line == 2 && x.want == 1 && x.prefetch) = true ∧
    nextIs (exec (.cpf 0 0x400) (lineState .s)) (fun t => ((t.core 0).inL1d 1).isSome) = true := by decide +kernel

/-! ### What a core does besides instructions -/

/-- The head of the store buffer goes to line 1. -/
def drainState (st : L2St) (pa : Nat) : State := cacheState st fun c => { c with sb := [⟨pa, 0xAB, 0xFF, false, false, 0, none, 64, 0⟩] }
theorem test_store_drain : hState.mayDrain 0 = true ∧ gives (.storeDrain 0) hState hState = true ∧
    nextIs (exec (.storeDrain 0) (drainState .m 64)) (fun t => (t.core 0).sb == [] && ((t.core 0).inL1d 1).any fun e => e.2.bytes == 0xAB && e.2.dirty) = true ∧
    nextIs (exec (.storeDrain 0) (drainState .m 128)) (fun t => (t.core 0).txns == [⟨0, 2, 2, none, false, false, .data⟩] &&
      (t.core 0).sb.length == 1) = true := by decide +kernel
def hazeState : State := cacheState .s fun c => { c with haze := [⟨1, none, false, false⟩, ⟨2, none, false, false⟩] }
theorem test_haze : hazeState.canExec 0 = true ∧ ((hazeState.core 0).l2Line 1).isSome = true ∧ nextIs (exec (.hazePromote 0 1) hazeState)
      (fun t => (t.core 0).haze == [⟨2, none, false, false⟩]) = true ∧
    ((hazeState.core 0).l2Line 2).isNone = true ∧ nextIs (exec (.hazePromote 0 2) hazeState)
      (fun t => (t.core 0).txns == [⟨0, 2, 1, none, false, false, .data⟩]) = true := by decide +kernel
theorem test_l2_evict : ([(.m, 0), (.e, 1), (.s, 1)] : List (L2St × Nat)).all (fun p => nextIs (exec (.l2Evict 0 1) (cacheState p.1 id)) fun t =>
    ((t.core 0).inL2 1).isNone && (t.core 0).evict.length == 1 && t.inflight.length == 1) = true := by decide +kernel
/-- At S with stage 1 on, and the line of the root, of which one entry names the root again. -/
def walkState (cur : List (Nat × LineData)) : State := coreState fun c => { c with sw := 1, sr := [(0x70, 0x1000), (0x71, 1)], cur := cur }
theorem test_walk : (walkState []).canExec 0 = true ∧
    okOf (translateRaw (ctxOf (walkState [])) .load 8 (walkState [(64, ⟨0x103B, false⟩)])) = true ∧
    nextIs (exec (.pageWalk 0 8 .load) (walkState [(64, ⟨0x103B, false⟩)])) (fun t =>
      (t.core 0).dtlb.map (fun e => (e.2.vbase, e.2.bits, e.2.pbase)) == [(0, 12, 0x1000)] && (t.core 0).wcache.length == 3) = true ∧
    nextIs (exec (.pageWalk 0 8 .load) (walkState [])) (fun t => t.inflight == [.rdcur ⟨0, 0, 0, 0, 0⟩ 64]) = true ∧
    gives (.pageWalk 0 8 .load) (walkState [(64, ⟨0, false⟩)]) (walkState [(64, ⟨0, false⟩)]) = true := by decide +kernel
theorem test_cache_section : gives (.cacheSectionArrival true 0) hState hState = true ∧ nextIs (exec (.cacheSectionArrival true 0)
    { coreState (fun c => { c with run := .waitSection }) with seq := { hState.seq with sections := [cacheKey true 0] } })
      (fun t => (t.core 0).run == .running) = true := by decide +kernel

/-! ### Enclaves on a core -/

/-- Enclave 1 is READY with one entry at 0x40 and owns the first 2 MiB. -/
def enclaveOf (run : EntryRun) : Enclave := ⟨.ready, [(0, 0x200000)], [(0, ⟨0x5A, 0x40, 0, 0, run⟩)], 0⟩
def enclaveState (run : EntryRun) (f : Core → Core) : State :=
  { coreState f with sec := { State.reset.sec with enclaves := [(1, enclaveOf run)], baseRanges := [(1, 0, 0x200000)], coreRanges := [(1, 0, 0x200000)] } }
theorem test_enter_refused : raises { enclaveState .idle (fun c => { c with sw := 2 }) with
      sec := { State.reset.sec with enclaves := [(0, { enclaveOf .idle with st := .evicted })] } } 0x52 [.enter 0 2] = true := by decide +kernel
theorem test_exit_outside : raises hState 0x54 [.exit 0 0] = true := by decide +kernel
def gateState : State := enclaveState .idle fun c => { c with sw := 0, stall := .gate 1 0x40 0x5A 0x40 }
theorem test_gate_check : gateState.ownerOf 0x40 = some 1 ∧ nextIs (exec (.gateCheck 0 1 0x40 0x5A) gateState) (fun t =>
    (t.core 0).p == 0x44 && swEm (t.core 0).sw && (t.enclave 1).entries.any fun e => e.2.run == .running 0) = true := by decide +kernel
/-- The core is in enclave mode in entry 0 of enclave 1. -/
def insideState : State := enclaveState (.running 0) fun c => { c with
  sw := 4, a := 7, x := 7, l := 7, entry := 0, forced := true, sr := [(0x100, 1), (0x101, 0x300)] }
theorem test_forced_exit : nextIs (exec (.forcedExit 0) insideState) (fun t => (t.core 0).a == 0 && (t.core 0).l == 0 &&
    (t.core 0).p == 0x300 && !swEm (t.core 0).sw && !(t.core 0).forced) = true := by decide +kernel
theorem test_save_area : nextIs (exec (.saveAreaAcked 0) (enclaveState (.running 0) fun c => { c with sw := 0 })) (fun t =>
    (t.enclave 1).entries.all fun e => e.2.run == .interrupted) = true := by decide +kernel
theorem test_seed_refill : nextIs (exec (.seedTripleRefill 0 1 2 0xFFFF) hState) (fun t => (t.core 0).reservoir == [(1, 2, 0xFFFF)]) = true ∧
    nextIs (exec (.seedTripleRefill 0 1 2 3) (coreState fun c => { c with reservoir := [(1, 1, 1), (1, 1, 1), (1, 1, 1)] })) (fun t =>
      (t.core 0).reservoir.length == 4) = true := by decide +kernel
/-- A core outside at U with slot 0 holding 0x200040 and slot 1 EID 1, and the gate word of entry 0 there. -/
def enterState : State :=
  { coreState fun c => { c with
      sw := 0, cur := [(1024, ⟨0, false⟩), (0, ⟨0x200040 ||| 1 <<< 64, false⟩), (0x8001, ⟨0xFD00005A, false⟩)], reservoir := [(1, 2, 3)] } with
    sec := { State.reset.sec with
      enclaves := [(1, ⟨.ready, [(0x200000, 0x200000)], [(0, ⟨0x5A, 0x200040, 0, 0, .idle⟩)], 0⟩)],
      coreRanges := [(1, 0x200000, 0x200000)] } }
theorem test_enter : fetchOk enterState = true ∧ nextIs (exec (.enter 0 0) enterState) (fun t =>
    (match (t.core 0).stall with | .gate 1 0x200040 0x5A 0x200040 => true | _ => false) &&
      t.inflight == [.gateCheck 0 1 0x200040 0x5A]) = true := by decide +kernel
/-- The core is in enclave mode, P in the enclave's range. -/
def exitState : State := { insideState with cores := [(0, { insideState.core 0 with forced := false })] }
theorem test_exit : fetchOk exitState = true ∧ nextIs (exec (.exit 0 0) exitState) (fun t =>
    (t.core 0).p == 0x300 && !swEm (t.core 0).sw && (t.core 0).a == 7) = true := by decide +kernel

/-! ### Coherence -/

/-- A request of core 0 and of core 1. -/
def req0 : Hdr := ⟨0, 3, 0, 0, 5⟩
def req1 : Hdr := ⟨1, 3, 0, 0, 5⟩
/-- A request of port 0, and a late header of core 0. -/
def portReq : Hdr := ⟨0x3CC, 3, 0, 0, 5⟩
def lateHdr : Hdr := ⟨0, 3, 1, 0, 5⟩
def part0 : Part := ⟨7, 0xFF, 0, false⟩
def add1 : AtomOp := ⟨0, true, 0, 8, 0, false, false⟩
/-- Line 0 lies at home 0 of base die 0; what its slice holds and its directory entry. -/
def homeState (lines : Table SLine) (dirs : Table (Nat × Dir)) : State :=
  { baseState with hier := { baseState.hier with slices := [(0, { baseState.slice 0 with lines := lines })], dirs := dirs } }
def place0 : Place := ⟨0, 0, 0, 0⟩
/-- Clean, poisoned, and nothing there. -/
def sliceHolds : State := homeState [(0, ⟨0, 9, 0, false, 0, 0⟩)] []
def slicePoisoned : State := homeState [(0, ⟨0, 9, poisonMark, false, 0, 0⟩)] []
def sliceEmpty : State := homeState [] []
/-- Core 1 holds line 0 exclusively. -/
def heldBy1 : State := homeState [] [(0, (0, .x 1))]

theorem witness_home : hdrOk req0 = true ∧ lineOk 0 = true ∧ ([sliceHolds, slicePoisoned, sliceEmpty, heldBy1] : List State).all (fun s =>
    s.locate 0 == some place0 && !s.isFenced 1400 && decide (s.bases.length < 2) && (s.txnAt 0).isNone && s.hier.queues.isEmpty && !s.recalling 0 && s.runs 712 && decide (s.dirTaken 0 0 < 16) && (s.slice 0).lines.all (·.2.tag == 0) &&
    s.txnCount 0 == 0 && (tfind? s.hier.wq 0).isNone && (rangeOwner s.sec.baseRanges 0).isNone && s.mirror.slots.isEmpty &&
    s.sliceUp 0 && (lowest (fun w => (tfind? s.hier.dirs w).isNone) 16).isSome && !s.denied 0 0) = true ∧
    sliceHolds.dirFind 0 0 = none ∧ sliceFind (sliceHolds.slice 0) 0 = some (0, ⟨0, 9, 0, false, 0, 0⟩) ∧
    sliceFind (sliceEmpty.slice 0) 0 = none ∧ heldBy1.dirFind 0 0 = some (0, .x 1) ∧ (sliceHolds.slice 0).armed = false := by
  decide +kernel
theorem test_home_reads : ([(.rds req0 0 true none, .datas req0 0 ⟨9, false⟩), (.rds req0 0 false none, .datae req0 0 ⟨9, false⟩),
    (.rdx req0 0 none, .datam req0 0 ⟨9, false⟩), (.upg req0 0, .datam req0 0 ⟨9, false⟩), (.rdcur req0 0, .curdata req0 0 ⟨9, false⟩),
    (.hazerd req0 0, .hazedata req0 0 ⟨9, false⟩), (.claim req0 0, .go req0 0)] : List (Instr × Instr)).all (fun p =>
      nextIs (exec p.1 sliceHolds) fun t => t.inflight == [p.2]) = true := by decide +kernel
theorem test_home_writes : ([(.wrline req0 0 ⟨4, false⟩, .mwr 0), (.wrpart req0 0 part0, .mmerge 0 part0), (.cwbreq req0 0, .cmp req0 0),
    (.cflreq req0 0, .cmp req0 0), (.hazerd req0 0, .hazeno req0 0), (.wbreq req0 0, .wbcancel req0 0), (.offer req0 0, .decline req0 0),
    (.drop req0 0, .cmp req0 0)] : List (Instr × Instr)).all (fun p =>
      nextIs (exec p.1 sliceEmpty) fun t => t.inflight == [p.2]) = true := by decide +kernel
theorem test_home_snoops : ([(.rds req0 0 true none, .snps req0 1 0), (.rdx req0 0 none, .snpx req0 1 0), (.upg req0 0, .snpx req0 1 0),
    (.claim req0 0, .snpinv req0 1 0), (.rdcur req0 0, .snpcur req0 1 0), (.wrline req0 0 ⟨4, false⟩, .snpinv req0 1 0),
    (.wrpart req0 0 part0, .snpflush req0 1 0), (.atom req0 8 add1, .snpflush req0 1 0), (.cwbreq req0 0, .snpclean req0 1 0),
    (.cflreq req0 0, .snpflush req0 1 0)] : List (Instr × Instr)).all (fun p =>
      nextIs (exec p.1 heldBy1) fun t => t.inflight == [p.2]) = true := by decide +kernel
theorem test_home_atom : nextIs (exec (.atom req0 0 add1) sliceHolds) (fun t => t.inflight == [.atomdata req0 0 9 false] &&
      (t.slice 0).lines == [(0, ⟨0, 17, 0, true, 0, 0⟩)]) = true ∧
    nextIs (exec (.atom req0 0 add1) slicePoisoned) (fun t => t.inflight == [.atomdata req0 0 9 true]) = true := by decide +kernel
theorem test_home_refuses : nextIs (exec (.upg req0 0) { sliceHolds with fenced := [1400] }) (fun t => t.inflight == [.err req0 0 6]) = true ∧
    nextIs (exec (.upg portReq 0) { sliceHolds with sec := { sliceHolds.sec with baseRanges := [(1, 0, 64)] } }) (fun t =>
      t.inflight == [.err portReq 0 9]) = true := by decide +kernel
/-- A token of station 0 waits and the turn is its own. -/
def tokenState : State := { sliceHolds with hier := { sliceHolds.hier with order := ⟨[(0, [⟨0, false, 0, 3, 0, 0⟩])], 0, [], [], [], 0⟩ } }
theorem test_order_grant : gives (.orderGrantObserved none) sliceHolds sliceHolds = true ∧
    tget tokenState.hier.order.posted 0 [] = [⟨0, false, 0, 3, 0, 0⟩] ∧ nextIs (exec (.orderGrantObserved none) tokenState) (fun t =>
      t.hier.order.turn == 1 && tget t.hier.order.posted 0 [] == []) = true := by decide +kernel

/-- Core 0 holds line 1 in a state; the core is switched on or not. -/
def holder (st : L2St) : State := cacheState st id
def domState (st : DomSt) : State :=
  { hState with power := { hState.power with doms := tput hState.power.doms 0 { runDom with st := st } } }
theorem witness_holder : (holder .m).unitFenced 0 = false ∧ (holder .m).coreEnabled 0 = true ∧ ((holder .m).dom 0).st = .run ∧
    ((holder .m).dom 672).st = .run ∧ ((holder .m).core 0).l2On = true ∧ (((holder .m).core 0).inL2 1).isSome = true ∧
    (((holder .m).core 0).mergeOn 1).inL2 1 = some (16, ⟨1, .m, 5, false, false, .none⟩) ∧ (hState.core 0).inL2 1 = none ∧
    (hState.core 0).evict = [] ∧ (hState.core 0).setLost 1 = false ∧ ((domState .retained).dom 0).st = .retained := by decide +kernel
theorem test_snoops : ([(.snps req1 0 1, .snpdata 0 1 ⟨5, false⟩ .o, 3), (.snpinv req1 0 1, .acki 0 1, 2),
    (.snpflush req1 0 1, .snpdata 0 1 ⟨5, false⟩ .m, 2)] : List (Instr × Instr × Nat)).all (fun p =>
      nextIs (exec p.1 (holder .m)) fun t => (t.core 0).l2.length == p.2.2 && t.inflight.length ≥ 1) = true ∧
    ([.snps req1 0 9, .snpx req1 0 9, .snpcur req1 0 9, .snpclean req1 0 9] : List Instr).all (fun i =>
      nextIs (exec i (holder .m)) fun t => t.inflight == [.notpresent 0 9] && (t.core 0).l2.length == 3) = true := by decide +kernel
theorem test_snoop_at_door : nextIs (exec (.snpx req1 0 1) (domState .off)) (fun t => t.inflight == [.notpresent 0 1]) = true ∧
    nextIs (exec (.snpx req1 0 1) (domState .retained)) (fun t => (t.dom 0).held == [.snpx req1 0 1] && (t.dom 0).st == .waking) = true := by
  decide +kernel

/-- The home runs a read of core 0 for line 0 and waits as given. -/
def txnState (owed : List (Nat × Nat)) (plan : List Act) (dirs : Table (Nat × Dir)) : State :=
  { baseState with hier := { baseState.hier with
      txns := [(0, ⟨.rds req0 0 true none, plan, owed, some ⟨9, false⟩, false, false, .i, false, false, none, false, 0⟩)], dirs := dirs } }
theorem witness_answers : (txnState [(1, 1)] [.await 0] []).locate 0 = some place0 ∧ ((txnState [(1, 1)] [.await 0] []).txnAt 0).isSome = true ∧
    (txnState [(1, 3), (2, 3)] [.await 0] [(0, (0, .s (.ptr [1, 2])))]).dirFind 0 0 = some (0, .s (.ptr [1, 2])) ∧
    (txnState [] [.await 1] []).runsFor req0 0 = true ∧ (txnState [] [.await 1] []).runsFor req1 0 = false := by decide +kernel
theorem test_snoop_answers : ([.acki 1 0, .acks 1 0, .acke 1 0, .acko 1 0, .snpdata 1 0 ⟨3, false⟩ .m] : List Instr).all (fun i =>
      nextIs (exec i (txnState [(1, 1), (2, 1)] [.await 0] [])) (fun t => ((t.txnAt 0).map (·.owed)) == some [(2, 1)]) &&
      nextIs (exec i (txnState [(1, 1)] [.await 0] [])) fun t => (t.txnAt 0).isNone) = true ∧
    nextIs (exec (.notpresent 1 0) (txnState [(1, 3), (2, 3)] [.await 0] [(0, (0, .s (.ptr [1, 2])))])) (fun t =>
      t.dirOf 0 == some (.s (.ptr [2])) && ((t.txnAt 0).map (·.owed)) == some [(2, 3)]) = true := by decide +kernel
theorem test_home_timeouts : nextIs (exec (.homeSnoopTimeout 0 1) (txnState [(1, 1), (2, 1)] [.await 0] [(0, (0, .x 1))])) (fun t =>
      ((t.txnAt 0).map (·.poison)) == some true && (t.slice 0).snoopTimeouts == 1 && t.inflight.length == 1) = true ∧
    ([1, 2, 3] : List Nat).all (fun w => nextIs (exec (.homeWaitExpired 0) (txnState [] [.await w] [])) fun t =>
      (t.txnAt 0).isNone && t.inflight.length == 1) = true := by decide +kernel
theorem test_transaction_ends : ([(.cmpack req0 0, 1), (.wbdata req0 0 ⟨3, false⟩, 2), (.offerdata req0 0 ⟨3, false⟩, 2), (.mdata 0 ⟨3, false⟩, 3)] :
    List (Instr × Nat)).all (fun p => nextIs (exec p.1 (txnState [] [.await p.2] [])) fun t => (t.txnAt 0).isNone) = true ∧
    nextIs (exec (.cmpack req1 0) (txnState [] [.await 1] [])) (fun t => (t.txnAt 0).isSome) = true := by decide +kernel

/-- Core 0 waits for the grant of line 1, as wanted; the tag is in use with generation 0. -/
def wantState (t : CoreTxn) (f : Core → Core) : State :=
  let s := coreState fun c => f { c with sw := 2, sr := [(srCacheEn, 7)], txns := [t] }
  s.setTag 0 3 { s.tag 0 3 with req := some (.rdx req0 1 none) }
def want (n : Nat) (d : Option LineData) (go : Bool) : CoreTxn := ⟨3, 1, n, d, go, false, .none⟩
theorem witness_grant : (wantState (want 1 none false) id).isLate req0 = false ∧ (wantState (want 1 none false) id).current req0 = true ∧
    hState.isLate lateHdr = true ∧ ((wantState (want 1 none false) id).core 0).txn 3 = some (want 1 none false) ∧
    lowest (fun w => (tfind? ((wantState (want 1 none false) id).core 0).l2 (16 + w)).isNone) 16 = some 0 := by decide +kernel
theorem test_grants : ([(.datas req0 1 ⟨9, false⟩, .s), (.datae req0 1 ⟨9, false⟩, .e), (.datam req0 1 ⟨9, false⟩, .m),
    (.fwds req0 1 ⟨9, false⟩, .s)] : List (Instr × L2St)).all (fun p => nextIs (exec p.1 (wantState (want 1 none false) id)) fun t =>
      t.inflight == [.cmpack req0 1] && (t.core 0).l2 == [(16, ⟨1, p.2, 9, false, false, .none⟩)] && (t.core 0).txns == []) = true := by decide +kernel
theorem test_forwarded : nextIs (exec (.fwdm req0 1 ⟨9, false⟩) (wantState (want 2 none false) id)) (fun t =>
      t.inflight == [] && (t.core 0).txns == [want 2 (some ⟨9, false⟩) false]) = true ∧
    nextIs (exec (.fwdm req0 1 ⟨9, false⟩) (wantState (want 2 none true) id)) (fun t => t.inflight == [.cmpack req0 1]) = true ∧
    nextIs (exec (.go req0 1) (wantState (want 2 (some ⟨9, false⟩) false) id)) (fun t => (t.core 0).l2 == [(16, ⟨1, .m, 9, false, false, .none⟩)]) = true ∧
    nextIs (exec (.go req0 1) (wantState (want 3 none false) fun c => { c with l2 := [(16, ⟨1, .s, 5, false, false, .none⟩)] })) (fun t =>
      (t.core 0).l2 == [(16, ⟨1, .m, 5, false, false, .none⟩)]) = true ∧
    nextIs (exec (.go req0 1) (wantState (want 4 none false) id)) (fun t => t.inflight == [.cmpack req0 1]) = true ∧
    nextIs (exec (.datas lateHdr 1 ⟨9, false⟩) hState) (fun t => t.inflight.contains (.cmpack lateHdr 1)) = true := by decide +kernel

/-- Core 0 evicts line 1. -/
def evictState : State := let s := coreState fun c => { c with evict := [⟨1, .m, 5, false, 3⟩] }
  s.setTag 0 3 { s.tag 0 3 with req := some (.wbreq req0 1) }
theorem test_eviction_answers : evictState.isLate req0 = false ∧ evictState.current req0 = true ∧
    nextIs (exec (.wbgo req0 1) evictState) (fun t => t.inflight == [.wbdata req0 1 ⟨5, false⟩]) = true ∧
    nextIs (exec (.accept req0 1) evictState) (fun t => t.inflight == [.offerdata req0 1 ⟨5, false⟩] && (t.core 0).evict == []) = true ∧
    ([.wbcancel req0 1, .decline req0 1, .acceptheld req0 1, .cmp req0 1] : List Instr).all (fun i =>
      nextIs (exec i evictState) fun t => t.inflight == [] && (t.core 0).evict == []) = true := by decide +kernel

/-- The store at the head of core 0's buffer waits for its answer. -/
def storeWaits : State := let s := coreState fun c => { c with
    sb := [⟨64, 0xAB, 0xFF, false, false, 0, none, 64, 0⟩], txns := [want 7 none false] }
  s.setTag 0 3 { s.tag 0 3 with req := some (.wrpart req0 1 ⟨0xAB, 0xFF, 0, false⟩) }
theorem test_store_answers : nextIs (exec (.cmp req0 1) storeWaits) (fun t => (t.core 0).sb == [] && (t.core 0).txns == [] &&
      (t.tag 0 3).req.isNone) = true ∧
    nextIs (exec (.err req0 64 9) storeWaits) (fun t => (t.core 0).sb == [] && (t.tag 0 3).req.isNone) = true := by decide +kernel
def atomicWaits : State := let s := coreState fun c => { c with sw := 2, stall := .atomic 3 64 [] }
  s.setTag 0 3 { s.tag 0 3 with req := some (.atom req0 64 add1) }
theorem test_atomic_answers : atomicWaits.current req0 = true ∧
    nextIs (exec (.atomdata req0 64 9 false) atomicWaits) (fun t => (t.core 0).stall == .none && (t.core 0).p == 0x10004) = true ∧
    nextIs (exec (.atomdata req0 64 9 true) atomicWaits) (fun t => (t.core 0).stall == .none && fld ((t.core 0).reg 0xE) 0 10 == 0x41) = true := by
  decide +kernel
def hazeWaits : State := let s := coreState fun c => { c with haze := [⟨1, none, false, false⟩] }
  s.setTag 0 3 { s.tag 0 3 with req := some (.hazerd req0 1) }
theorem test_haze_answers : hazeWaits.current req0 = true ∧
    nextIs (exec (.hazedata req0 1 ⟨9, false⟩) hazeWaits) (fun t => (t.core 0).haze == [⟨1, some ⟨9, false⟩, false, false⟩]) = true ∧
    nextIs (exec (.hazeno req0 1) hazeWaits) (fun t => (t.core 0).haze == [⟨1, none, true, false⟩]) = true := by decide +kernel

/-- An engine's node reads bytes of one line, the last of its chunks, with tag 3. -/
def readingState (s : State) (node : Nat) (why : ReadFor) (pa n : Nat) : State :=
  let s : State := { s with readers := [⟨node, 0, 0, why, [(pa, n)], [], some 3⟩] }
  s.setTag node 3 { s.tag node 3 with req := some (.rdcur ⟨node, 3, 0, 0, 5⟩ (pa / 64)) }
/-- The line comes, or comes poisoned. -/
def lineCome (node line : Nat) (d : Line) : Instr := .curdata ⟨node, 3, 0, 0, 5⟩ line ⟨d, false⟩
def lineBad (node line : Nat) : Instr := .curdata ⟨node, 3, 0, 0, 5⟩ line ⟨0, true⟩
/-- Bytes at their places in a line. -/
def lineOf (l : List (Nat × Nat)) : Line := BitVec.ofNat 512 (l.foldl (fun a b => a + b.2 * 2 ^ (8 * b.1)) 0)
/-- Port 0 reads 4 bytes of line 1 for a guest. -/
def readerState : State := readingState baseState 0x3CC (.guest 5) 66 4
theorem witness_reader : readerState.current portReq = true ∧
    ([(false, true), (true, false)] : List (Bool × Bool)).all (fun p =>
      match (((readerState.arrive (.curdata portReq 1 ⟨0, p.1⟩)).countRead 0x3CC).finish portReq).readerData 0x3CC 3 ⟨0, p.1⟩ with
      | (.done _, _) => p.2
      | (.bad _ _ _, _) => !p.2
      | _ => false) = true := by decide +kernel

/-- The uncore of base die 0 off, and held stopped by a row. -/
def uncoreState (x : Dom) : State := { sliceEmpty with power := { sliceEmpty.power with doms := tput sliceEmpty.power.doms 712 x } }
theorem test_home_stopped : nextIs (exec (.upg req0 0) (uncoreState { runDom with st := .off })) (fun t => t.inflight == [.err req0 0 3]) = true ∧
    nextIs (exec (.upg req0 0) (uncoreState { runDom with stopped := true })) (fun t => t.inflight == [] && (t.dom 712).held == [.upg req0 0]) = true := by
  decide +kernel
theorem test_order_credits : tget tokenState.hier.order.used 0 0 < tokenState.creditShare ∧ tokenState.baseEn 0 = true ∧
    nextIs (exec (.orderGrantObserved (some 0)) tokenState) (fun t => t.hier.order.lost == [0] &&
      t.inflight == [.faultMessage (srcCode 1 0 0x63) 0x26 none 0] && tget t.hier.order.used 0 0 == 1) = true := by decide +kernel
/-- A set is lost to a tag error: of the L1D under a line that the L2 holds, of the L2 where no tag matches. -/
theorem test_snoop_lost_set : ((cacheState .m fun c => { c with lostD := [1] }).core 0).setLost 1 = true ∧
    nextIs (exec (.snpx req1 0 1) (cacheState .m fun c => { c with lostD := [1] })) (fun t => t.inflight.contains (.snpdata 0 1 ⟨0, true⟩ .i) &&
      ((t.core 0).inL2 1).isNone) = true ∧
    nextIs (exec (.snpx req1 0 9) (cacheState .m fun c => { c with lost2 := [9] })) (fun t => t.inflight.contains (.snpdata 0 9 ⟨0, true⟩ .i)) = true := by
  decide +kernel
theorem test_snoop_elsewhere : (hState.core 0).l2On = false ∧ nextIs (exec (.snpx req1 0 1) hState) (fun t => t.inflight == [.notpresent 0 1]) = true ∧
    ({ holder .m with fenced := [0] } : State).unitFenced 0 = true ∧
    nextIs (exec (.snpx req1 0 1) { holder .m with fenced := [0] }) (fun t => t.inflight == [.notpresent 0 1]) = true := by decide +kernel
/-- A home transaction whose wait began later than now, and a snoop and a layer-1 request given up. -/
def youngTxn : State := { txnState [(1, 1), (2, 1)] [.await 0] [(0, (0, .x 1))] with
  hier := { (txnState [] [] []).hier with
    txns := [(0, ⟨.rds req0 0 true none, [.await 0], [(1, 1), (2, 1)], none, false, false, .i, false, false, none, false, 5⟩)],
    dirs := [(0, (0, .x 1))], lateSnoops := [(1, 0)], l1Late := [0] } }
theorem test_home_not_due : youngTxn.homeDue 5 = false ∧ gives (.homeSnoopTimeout 0 1) youngTxn youngTxn = true ∧
    nextIs (exec (.acki 1 0) youngTxn) (fun t => t.hier.lateSnoops == [] && ((t.txnAt 0).map (·.owed)) == some [(1, 1), (2, 1)]) = true ∧
    nextIs (exec (.mdata 0 ⟨3, false⟩) youngTxn) (fun t => t.hier.l1Late == [] && (t.txnAt 0).isSome) = true ∧
    youngTxn.runsFor req0 0 = true ∧ nextIs (exec (.cmpack req0 0) youngTxn) (fun t => ((t.txnAt 0).map (·.acked)) == some true) = true := by
  decide +kernel
/-- Tag 3 of core 0 stays reserved after a timeout. -/
def lateState (go : Bool) (d : Option LineData) : State :=
  cacheState .s id |>.setTag 0 3 { (hState.tag 0 3) with gen := 1, reserved := true, lateGo := go, lateData := d }
theorem test_late_grants : (lateState false none).isLate req0 = true ∧
    nextIs (exec (.fwdm req0 2 ⟨9, false⟩) (lateState false none)) (fun t => (t.tag 0 3).lateData == some ⟨9, false⟩ && t.inflight == []) = true ∧
    nextIs (exec (.go req0 2) (lateState false (some ⟨9, false⟩))) (fun t => t.inflight.contains (.cmpack req0 2)) = true ∧
    nextIs (exec (.fwdm req0 2 ⟨9, false⟩) (lateState true none)) (fun t => t.inflight.contains (.cmpack req0 2)) = true := by decide +kernel
theorem test_late_evictions : nextIs (exec (.wbgo lateHdr 1) evictState) (fun t => (t.core 0).evict == (evictState.core 0).evict && t.inflight == []) = true ∧
    evictState.isLate lateHdr = true ∧ ((evictState.core 0).evict.find? fun b => b.line == 1 && b.tag == 3).isSome = true := by decide +kernel
/-- An uncached read of core 0 waits for line 1. -/
def curWaits : State := let s := coreState fun c => { c with txns := [want 5 none false] }
  s.setTag 0 3 { s.tag 0 3 with req := some (.rdcur req0 1) }
theorem test_uncached_answer : curWaits.current req0 = true ∧ nextIs (exec (.curdata req0 1 ⟨9, false⟩) curWaits) (fun t =>
    (t.core 0).cur.contains (1, ⟨9, false⟩) && (t.core 0).txns == [] && (t.tag 0 3).req.isNone) = true := by decide +kernel
/-! ### Memory -/

def wqState : State := { baseState with hier := { baseState.hier with wq := [(0, ⟨6, false⟩)], mcs := [(0, { baseState.mc 0 with queue := [0] })] } }
theorem witness_stack : baseState.unitFenced 684 = false ∧ (baseState.dom 684).st = .run ∧ (baseState.dom 684).inReset = false ∧
    memWf hState.hier.dram = true ∧ (baseState.mc 0).armed = false ∧ rangeOwner (baseState.mc 0).ranges 0 = none ∧
    ({ baseState with fenced := [684] } : State).unitFenced 684 = true := by decide +kernel
theorem test_layer1 : nextIs (exec (.mrd 0) baseState) (fun t => t.inflight == [.mdata 0 ⟨0, false⟩]) = true ∧
    nextIs (exec (.mwr 0) baseState) (fun t => t.inflight == [.mwrgo 0] && (t.mc 0).queue == [0]) = true ∧
    nextIs (exec (.mmerge 0 part0) baseState) (fun t => t.hier.dram == [(0, 7)] && t.inflight.length == 1) = true ∧
    nextIs (exec (.matom req0 0 add1) baseState) (fun t => t.hier.dram == [(0, 8)] && t.inflight.length == 2) = true ∧
    ([.mrd 0, .mwr 0] : List Instr).all (fun i => nextIs (exec i { baseState with fenced := [684] }) fun t => t.inflight == [.err (baseState.homeHdr place0 0) 0 6]) = true := by
  decide +kernel
theorem test_line_writes : nextIs (exec (.mwrgo 0) wqState) (fun t => t.inflight == [.mwrdata 0 ⟨6, false⟩]) = true ∧
    nextIs (exec (.mwrdata 0 ⟨6, false⟩) wqState) (fun t => t.hier.dram == [(0, 6)] && (t.mc 0).queue == []) = true ∧
    nextIs (exec (.mwrdata 0 ⟨6, false⟩) baseState) (fun t => t.hier.dram == []) = true ∧
    nextIs (exec (.dramTokenWaitEnd 0) { txnState [] [.await 5] [] with qos := { baseState.qos with waiting := [0] } }) (fun t =>
      (t.txnAt 0).isNone && t.qos.waiting == []) = true := by decide +kernel
/-- Writing what an unlisted byte reads as removes the entry. -/
theorem test_memory_form : memWf (memWrite [(3, 1), (9, 2)] 3 0) = true ∧ memWrite [(3, 1), (9, 2)] 3 0 = [(9, 2)] ∧
    memWrite [(3, 1), (9, 2)] 5 4 = [(3, 1), (5, 4), (9, 2)] := by decide +kernel

def scrubState (base len : Word) (pass : Option Scrub) : State :=
  baseState.setMc 0 { baseState.mc 0 with scrubBase := base, scrubLen := len, pass := pass }
theorem test_scrub_go : baseState.runs 684 = true ∧
    gives (.scrubGo 0 0x8000000000000000) (scrubState 0 64 (some ⟨0, 1, false, 0, 0, 0⟩)) ((scrubState 0 64 (some ⟨0, 1, false, 0, 0, 0⟩)).violate (mcBlock 0)) = true ∧
    ([(2, 0, 0, 3), (0, 0, 0, 2), (0, 1, 64, 3), (0, 0, 65, 3), (0, 0x6000000000, 64, 3), (0, 0x5FFFFFFFC0, 64, 1)] :
      List (Word × Word × Word × BitVec 4)).all (fun p =>
        nextIs (exec (.scrubGo 0 (0x8000000000000000 + p.1)) (scrubState p.2.1 p.2.2.1 none)) fun t => (t.mc 0).res.status == p.2.2.2 || p.2.2.2 == 1 && (t.mc 0).pass.isSome) = true := by
  decide +kernel
theorem test_scrub_step : nextIs (exec (.scrubStep 0) (scrubState 0 64 (some ⟨0, 1, false, 0, 4, 0⟩))) (fun t =>
      (t.mc 0).pass == none && (t.mc 0).res.value == 5) = true ∧
    nextIs (exec (.scrubStep 0) (scrubState 0 128 (some ⟨0, 2, false, 0, 4, 0⟩))) (fun t => (t.mc 0).pass == some ⟨1, 2, false, 0, 5, 0⟩) = true ∧
    gives (.scrubStep 0) (scrubState 0 64 (some ⟨0, 1, false, 0, 4, 1⟩)) (scrubState 0 64 (some ⟨0, 1, false, 0, 4, 1⟩)) = true ∧
    (baseState.send (.mrd 0)).layer1Waits 0 = true ∧ baseState.layer1Waits 0 = false ∧
    nextIs (exec (.scrubAbort 0 0x4000000000000000) (scrubState 0 64 (some ⟨0, 1, false, 0, 4, 0⟩))) (fun t => (t.mc 0).pass == none) = true ∧
    (baseState.dramLook place0).2 = .clean := by decide +kernel
def copyState (i : Nat) : State := baseState.setMc 0 { baseState.mc 0 with copying := [(15, 1, i)] }
theorem test_remap : nextIs (exec (.remapWrite 0 15 0x8000000000000001) baseState) (fun t => tget (t.mc 0).remap 15 0 == 0x8000000000000001) = true ∧
    nextIs (exec (.remapWrite 0 0 0xC000000000000001) baseState) (fun t => tget (t.mc 0).remap 0 0 == 1 && (t.mc 0).copying == [(0, 1, 0)]) = true ∧
    gives (.remapCopyStep 0) baseState baseState = true ∧
    nextIs (exec (.remapCopyStep 0) (copyState 0)) (fun t => (t.mc 0).copying == [(15, 1, 1)]) = true ∧
    nextIs (exec (.remapCopyStep 0) (copyState 511)) (fun t => (t.mc 0).copying == [] && remapV (tget (t.mc 0).remap 15 0)) = true := by decide +kernel
theorem test_control_registers : nextIs (exec (.flipArm false 0 0x103AA) baseState) (fun t => (t.mc 0).armed && (t.mc 0).flipWin == 3 && (t.mc 0).flipHi == 0xAA) = true ∧
    nextIs (exec (.flipArm true 383 0x10001) baseState) (fun t => (t.slice 383).armed) = true ∧
    gives (.mcErrClear 0 0) baseState baseState = true ∧
    nextIs (exec (.mcErrClear 0 0x8000000000000000) (baseState.setMc 0 { baseState.mc 0 with ue := 2, ce := 3 })) (fun t => (t.mc 0).ue + (t.mc 0).ce == 0) = true ∧
    nextIs (exec (.clrErr 0 0x105) (baseState.setSlice 0 { baseState.slice 0 with ue := 2 })) (fun t => (t.slice 0).ue == 0 && (t.slice 0).ctl == 5) = true ∧
    nextIs (exec (.sliceLfsrWrite 95 7) baseState) (fun t => (t.slice 95).lfsr == 7 && (t.slice 95).seed == 7) = true ∧
    gives (.sliceRemapWrite 0 3 0x8000) baseState (baseState.violate (l3Block 0)) = true ∧
    nextIs (exec (.sliceRemapWrite 0 3 5) sliceEmpty) (fun t => tget (t.slice 0).remap 3 0 == 5) = true := by decide +kernel
/-- The stack's domain as given, with stack 0 in it. -/
def stackState (x : Dom) : State := { baseState with power := { baseState.power with doms := tput baseState.power.doms 684 x } }
theorem test_stack_door : ([({ runDom with st := .off }, DoorAns.off, 3), ({ runDom with st := .waking }, .retry, 4),
    ({ runDom with inReset := true }, .off, 3)] : List (Dom × DoorAns × BitVec 16)).all (fun p =>
      ((stackState p.1).door 684 true).1 == p.2.1 && nextIs (exec (.mrd 0) (stackState p.1)) fun t =>
        t.inflight == [.err (baseState.homeHdr place0 0) 0 p.2.2]) = true := by decide +kernel

/-! ### The fabric -/

/-- Core 1 forwards line 0 to core 0 on the same die: the flit passes its own tile's router, then that of core 0's tile. -/
def fwdMsg : Instr := .fwds req0 0 ⟨9, false⟩
def flitState : State := { baseState with
  inflight := [fwdMsg],
  hier := { baseState.hier with
    txns := [(0, ⟨.rds req0 0 true none, [.await 1], [], none, false, false, .i, false, false, some 1, false, 0⟩)] } }
def words (h p a : WordErr) : List WordErr := [h, p, .clean, .clean, .clean, .clean, .clean, .clean, a]
/-- The places where the flit of message 0 is still to pass. -/
def flitPath (t : State) : List (List Spot) := t.hier.flights.map fun f => f.path.map (·.1)
theorem test_flits : (flitState.flitOf fwdMsg).map (fun f => (f.src, f.dst, f.addressed)) = some (1, 0, false) ∧
    nextIs (exec (.flitHop 5 0 (words .corrected .clean .clean) true) flitState) (fun t => t.inflight == [fwdMsg] &&
      flitPath t == [[.tile 0 0 2]] && (t.fabBlock 5).meshCe == 1) = true ∧
    gives (.flitHop 6 0 (words .clean .clean .clean) true) flitState flitState = true ∧
    nextIs (exec (.flitHop 5 0 (words .clean .uncorrectable .clean) true) flitState) (fun t =>
      t.inflight == [.fwds req0 0 ⟨9, true⟩] && (t.fabBlock 5).meshUe == 1) = true := by decide +kernel
theorem test_flit_lost : ([(words .uncorrectable .clean .clean, true), (words .clean .clean .clean, false)] : List (List WordErr × Bool)).all
    (fun p => nextIs (exec (.flitHop 5 0 p.1 p.2) flitState) fun t =>
      t.inflight == [.faultMessage (fabSrc 5) 0x20 none 0] && (t.fabBlock 5).meshUe == 1) = true := by decide +kernel
/-- A state at a time in ns. -/
def atNs (n : Nat) (s : State) : State := { s with time := ⟨n * 10000000000, 0⟩ }
def tagState (f : TagInfo → TagInfo) : State := hState.setTag 0 3 (f { hState.tag 0 3 with req := some (.rds req0 1 true none) })
theorem test_tags : nextIs (exec (.tagReserveExpiry 0 3) (atNs 5 (tagState fun t => { t with reserved := true, since := 5 }))) (fun t => !(t.tag 0 3).reserved) = true ∧
    nextIs (exec (.tagReserveExpiry 0 3) (atNs 4 (tagState fun t => { t with reserved := true, since := 5 }))) (fun t => (t.tag 0 3).reserved) = true ∧
    gives (.tagReserveExpiry 0 3) (tagState id) (tagState id) = true ∧
    nextIs (exec (.retryReissue 0 3 none) (tagState fun t => { t with retry := true })) (fun t => t.inflight == [.rds req0 1 true none]) = true ∧
    gives (.retryReissue 0 3 none) (tagState id) (tagState id) = true ∧
    nextIs (exec (.initiatorTimeout 0 3 none) (atNs 5 (tagState fun t => { t with since := 5 }))) (fun t => (t.tag 0 3).reserved && (t.tag 0 3).gen == 1 && (t.tag 0 3).req.isNone) = true ∧
    gives (.initiatorTimeout 0 3 none) (tagState fun t => { t with since := 5 }) (tagState fun t => { t with since := 5 }) = true := by
  decide +kernel
def wrLineState : State := { hState with hier := { hState.hier with wrLines := [(0, 1, 0)] } }
theorem test_wrline_timeout : wrLineState.hasWrLine 0 1 = true ∧ nextIs (exec (.initiatorTimeout 0 3 (some 1)) wrLineState) (fun t =>
    t.hier.wrBlocked == [(0, 1)] && t.hier.wrLines == [] && t.inflight.length == 1) = true := by decide +kernel
def ringState (p : Pair → Pair) : State := baseState.setPair 0 4 (p { Pair.initial with active := [7] })
theorem test_ring : (baseState.pair 0 4).active.contains 1023 = false ∧ ((ringState id).pair 0 4).active.contains 7 = true ∧
    gives (.ringFrameReceive 0 4 1023 0) baseState baseState = true ∧ gives (.ringIdleDue 4 0) (ringState id) (ringState id) = true ∧
    nextIs (exec (.ringIdleDue 0 4) ((ringState id).setPair 4 0 { Pair.initial with owesAck := true })) (fun t => !(t.pair 4 0).owesAck && t.inflight.length == 1) = true ∧
    gives (.ringReplayTimeout 0 4) (ringState id) (ringState id) = true ∧
    nextIs (exec (.ringReplayTimeout 0 4) (ringState fun p => { p with unacked := [(0, 0, .mrd 0)] })) (fun t => (t.pair 0 4).replays == 1) = true := by
  decide +kernel
/-- Ten wrong symbols are more than the code corrects. -/
def badFrame : BitVec 768 := 0x0102030405060708090A
theorem test_ring_bad_frame : rsCorrect ((toBytes badFrame 96).map (·.toNat)) = none ∧
    nextIs (exec (.ringFrameReceive 0 4 7 badFrame) (ringState id)) (fun t => (t.fabBlock 0).crcFail == 1 && (t.pair 0 4).got == 0x7F) = true := by decide +kernel

/-! ### Delivery, quiesce, tenants -/

theorem test_delivery : (hState.core 0).pick hState.free srTid = none ∧ (hState.core 0).tid = 0 ∧
    nextIs (exec (.interruptDelivery 0 0 511) hState) (fun t => (t.core 0).reg 0x8B == 0x8000000000000000) = true ∧
    nextIs (exec (.interruptDelivery 0 1 0) hState) (fun t => (t.core 0).reg 0x84 == 0 && t.router.returned == 1) = true ∧
    nextIs (exec (.interruptDelivery 0 0 0) (domState .off)) (fun t => t.router.returned == 1) = true ∧
    nextIs (exec (.interruptDelivery 0 0 0) (domState .retained)) (fun t => (t.dom 0).held == [.interruptDelivery 0 0 0]) = true := by
  decide +kernel

def quiesceState (q : Option Quiesce) : State := { baseState with router := { baseState.router with quiesce := q } }
theorem test_quiesce_go : (baseState.residentCore 9) = none ∧ (baseState.tenant 9).quiescing = false ∧
    gives (.quiesceCmdGo 9) (quiesceState (some ⟨8, 1, [8], 0, 0⟩)) ({ quiesceState (some ⟨8, 1, [8], 0, 0⟩) with
      router := { (quiesceState (some ⟨8, 1, [8], 0, 0⟩)).router with qtid := 9 } }.violate routerBlock) = true ∧
    nextIs (exec (.quiesceCmdGo 9) (baseState.setTenant 9 { baseState.tenant 9 with quiescing := true })) (fun t =>
      t.router.qres.status == 3 && t.router.quiesce.isNone) = true ∧
    nextIs (exec (.quiesceCmdGo 9) { baseState with router := { baseState.router with resident := [(3, 9)] } }) (fun t =>
      t.router.quiesce.isNone && t.router.qres.status == 3) = true ∧
    nextIs (exec (.quiesceCmdGo 9) baseState) (fun t => t.router.quiesce.any (fun q => q.phase == 1 && q.owing == blockUnits) &&
      (t.tenant 9).quiescing && t.inflight.length == 16) = true := by decide +kernel
theorem test_quiesce_notices :
    nextIs (exec (.drainedNotice 8 9 2) (quiesceState (some ⟨9, 1, [8], 1, 0⟩))) (fun t => t.router.quiesce.any fun q => q.phase != 1 && q.aborted == 3) = true ∧
    nextIs (exec (.drainedNotice 8 9 2) (quiesceState (some ⟨9, 1, [8, 0x17], 1, 0⟩))) (fun t =>
      t.router.quiesce == some ⟨9, 1, [0x17], 3, 0⟩) = true ∧
    nextIs (exec (.scrubbedNotice 0x17 9) (quiesceState (some ⟨9, 3, [0x17], 3, 0⟩))) (fun t => t.router.quiesce.isNone &&
      (t.tenant 9).quiesced && t.router.qres.value == 3) = true ∧
    nextIs (exec (.scrubbedNotice 8 9) (quiesceState (some ⟨9, 3, [8, 0x17], 3, 0⟩))) (fun t => t.router.quiesce == some ⟨9, 3, [0x17], 3, 0⟩) = true ∧
    nextIs (exec (.blockNotice 8 9) (quiesceState (some ⟨9, 1, [8], 0, 0⟩))) (fun t => t.inflight == [.drainedNotice 8 9 0]) = true ∧
    ((quiesceState none).dom (unitDomain 8)).st = .run ∧ (quiesceState none).unitIdle 8 9 = true := by decide +kernel
theorem test_quiesce_expires : gives .quiesceDrainExpired baseState baseState = true ∧
    nextIs (exec .quiesceDrainExpired { quiesceState (some ⟨9, 1, [8], 0, 0⟩) with time := ⟨2 ^ 80, 0⟩ }) (fun t => t.router.quiesce.isNone &&
      t.inflight.length == 1 && t.router.qres.status == 3) = true := by decide +kernel
theorem test_tenant_entry : nextIs (exec (.teCtlWrite 9 0x9000050003FF0000) (baseState.setTenant 9 { baseState.tenant 9 with lost := true, quiesced := true }))
    (fun t => (t.tenant 9).en && (t.tenant 9).cls == 5 && (t.tenant 9).doorbell == 1023 && !(t.tenant 9).lost && !(t.tenant 9).quiesced) = true ∧
    baseState.qps = [] := by decide +kernel
/-- Tenant 9 is enabled; vectors 0 to 63 go to core 0, which has it resident. -/
def routeState (f : Router → Router) : State :=
  let s := baseState.setTenant 9 { baseState.tenant 9 with en := true, cls := 5, target0 := 0x8000 }
  { s with router := f { s.router with resident := [(0, 9)] } }
theorem test_router_messages : (routeState id).residentOf 0 = 9 ∧ ((routeState id).tenant 9).group 0 = (true, 0) ∧ (routeState id).pitEn = false ∧
    nextIs (exec (.routerMessage 9 5) (routeState id)) (fun t => t.inflight == [.interruptDelivery 0 9 5] && t.router.direct == 1) = true ∧
    nextIs (exec (.routerMessage 9 5) (routeState fun r => { r with paused := [9] })) (fun t => t.router.held == [(9, 5)] && t.inflight == []) = true ∧
    nextIs (exec (.routerMessage 8 5) baseState) (fun t => t.router.discarded == (if (baseState.tenant 8).en then 0 else 1)) = true ∧
    nextIs (exec (.routerMessage 9 64) (routeState id)) (fun t => (t.tenant 9).lost && t.inflight == [.faultMessage routerSrc 0x43 (some 9) (512 * 9 + 64)]) = true ∧
    nextIs (exec (.routerMessage 9 64) (routeState fun r => { r with pitBase := 1 })) (fun t =>
      t.router.posts == [⟨9, 64, 73, 0⟩] && t.inflight == [.wrpart ⟨routerNode, 0, 0, 9, 5⟩ 73 ⟨1, 1, 0, false⟩]) = true := by decide +kernel
theorem test_residency : nextIs (exec (.residencyUpdate 3 9 false) (routeState id)) (fun t => t.residentOf 3 == 9 && t.residentOf 0 == 9 && t.inflight == []) = true ∧
    nextIs (exec (.residencyUpdate 0 9 true) (routeState id)) (fun t => t.inflight == [.residencyAnswer 0 5 1]) = true ∧
    nextIs (exec (.residencyUpdate 0 9 true) (routeState fun r => { r with posts := [⟨9, 64, 73, 0⟩] })) (fun t =>
      t.inflight == [] && t.router.switching == [(0, 9)]) = true := by decide +kernel
theorem test_delivery_kept : nextIs (exec (.interruptDelivery 0 7 5) tswitchState) (fun t => (t.core 0).heldDel == [(7, 5)]) = true ∧
    nextIs (exec (.interruptDelivery 0 0 0) (domState .closing)) (fun t => (t.dom 0).held.length == 1 && (t.dom 0).st == .closing) = true ∧
    nextIs (exec (.interruptDelivery 0 0 0) { hState with fenced := [0] }) (fun t => t.router.returned == 1) = true := by decide +kernel
/-- The unit of a notice off, retained, or fenced; and a notice for a tenant that no quiesce runs for. -/
def unitState (x : Dom) : State := { quiesceState (some ⟨9, 1, [8], 0, 0⟩) with
  power := { baseState.power with doms := tput baseState.power.doms (unitDomain 8) x } }
theorem test_block_notices : nextIs (exec (.blockNotice 8 9) (unitState { runDom with st := .off })) (fun t => t.inflight == [.drainedNotice 8 9 0]) = true ∧
    nextIs (exec (.blockNotice 8 9) (unitState { runDom with st := .waking })) (fun t => t.inflight == [] && (t.dom (unitDomain 8)).held == [.blockNotice 8 9]) = true ∧
    nextIs (exec (.blockNotice 8 9) (quiesceState none)) (fun t => t.inflight == []) = true := by decide +kernel
/-- Tenant 9 has mirror slot 2, and the mirror engine alone still owes its drained notice. -/
def finalState : State := { (quiesceState (some ⟨9, 1, [8, 0x16], 0, 0⟩)) with
  mirror := { baseState.mirror with slots := [(2, { Slot.initial with tid := 9, st := .guarded })] } }
theorem test_final_boundary : finalState.slotOf 9 = some (2, { Slot.initial with tid := 9, st := .guarded }) ∧
    nextIs (exec (.drainedNotice 8 9 0) finalState) (fun t => (t.slot 2).final != 0 && t.router.quiesce == some ⟨9, 1, [0x16], 0, 0⟩) = true := by decide +kernel

/-! ### Time, the governor, domains -/

theorem test_time : nextIs (exec (.timeBaseUpdate 5) baseState) (fun t => t.now == baseState.now + 32) = true ∧
    baseState.board.clocks = [] ∧ nextIs (exec (.tbStep 0x1FFFFFFFF) baseState) (fun t => t.now == baseState.now + 0xFFFFFFFF) = true ∧
    nextIs (exec (.tbSlew 0xFFFF0000) baseState) (fun t => t.time.slew.toInt == -65536) = true ∧
    nextIs (exec (.tbSlew 0x80000000) baseState) (fun t => t.time.slew.toInt == -200000) = true := by decide +kernel
theorem test_governor : gives (.governorInterval []) State.reset State.reset = true ∧
    nextIs (exec (.governorInterval []) { baseState with qos := { baseState.qos with used := [(0, 5)] } }) (fun t =>
      t.qos.intervals == 1 && t.qos.used == []) = true ∧
    nextIs (exec (.dieBudgetReport 1 3 0 [70, 71, 72]) baseState) (fun t => tfind? t.power.age 19 == some 0 &&
      tfind? t.power.sensor 9 == some 70 && tfind? t.power.sensor 11 == some 72) = true ∧
    nextIs (exec (.powerCeilWrite 2000) State.reset) (fun t => t.power.ceil == 2000) = true ∧
    nextIs (exec (.powerCeilWrite 1199) baseState) (fun t => t.power.ceil == 1200) = true := by decide +kernel
def domOf (d : Nat) (x : Dom) : State := { baseState with power := { baseState.power with doms := tput baseState.power.doms d x } }
theorem test_drains : gives (.unitDrained 696) baseState baseState = true ∧ gives (.drainLimitExpiry 696) baseState baseState = true ∧
    nextIs (exec (.unitDrained 696) (domOf 696 { runDom with drainSince := some 0, st := .closing })) (fun t => (t.dom 696).drainSince.isNone) = true ∧
    nextIs (exec (.drainLimitExpiry 696) { domOf 696 { runDom with drainSince := some 0, st := .closing } with time := ⟨2 ^ 80, 0⟩ }) (fun t =>
      (t.dom 696).drainSince.isNone) = true ∧
    nextIs (exec (.domainCloseComplete 576) (domOf 576 { runDom with st := .closing, retain := true })) (fun t => (t.dom 576).st == .retained) = true ∧
    nextIs (exec (.domainCloseComplete 711) (domOf 711 { runDom with st := .closing })) (fun t => (t.dom 711).st == .off) = true ∧
    nextIs (exec (.domainWakeComplete 710) (domOf 710 { runDom with st := .waking, held := [.mrd 0] })) (fun t => (t.dom 710).st == .run &&
      t.inflight == [.mrd 0]) = true ∧ gives (.domainWakeComplete 710) baseState baseState = true := by decide +kernel
theorem test_domain_requests : gives (.domReqOff 575) baseState baseState = true ∧ baseState.domEnabled 696 = true ∧
    baseState.reqForbidden 697 3 = false ∧ baseState.underPause 697 = false ∧ baseState.inEnclaveUse 697 = false ∧
    nextIs (exec (.domReqOff 697) baseState) (fun t => (t.dom 697).st == .closing || (t.dom 697).drainSince.isSome) = true ∧
    nextIs (exec (.domReqRun 697) (domOf 697 { runDom with st := .closing })) (fun t => (t.dom 697).req == 1) = true ∧
    nextIs (exec (.domReqRun 697) (domOf 697 { runDom with st := .retained })) (fun t => (t.dom 697).st == .waking) = true ∧
    gives (.domReqRetain 697) { baseState with power := { baseState.power with pkg := 2 } }
      ({ baseState with power := { baseState.power with pkg := 2 } }.violate powerBlock) = true ∧
    (coreState fun c => { c with sw := 4 }).inEnclaveUse 0 = true ∧
    nextIs (exec (.domReqOff 0) (coreState fun c => { c with sw := 4 })) (fun t => t.sec.cuts == [(0, 3, 0)]) = true := by decide +kernel
def sleepState (x : Dom) : State := { domOf 697 x with power := { (domOf 697 x).power with sleep := some ⟨1, [], [697]⟩ } }
theorem test_doors : gives (.doorAnswer 697 (.delivery 0 0)) baseState baseState = true ∧ (domState .off).unitFenced 0 = false ∧
    nextIs (exec (.doorAnswer 0 (.delivery 0 0)) (domState .off)) (fun t => t.router.returned == 1) = true ∧
    nextIs (exec (.doorAnswer 0 (.snoop 1 req1 1)) (domState .off)) (fun t => t.inflight == [.notpresent 0 1]) = true ∧
    nextIs (exec (.sleepRequest 697) (sleepState { runDom with st := .retained })) (fun t => t.inflight == [.sleepAnswer 697 true]) = true ∧
    nextIs (exec (.sleepAnswer 697 true) (sleepState runDom)) (fun t => t.power.sleep == some ⟨1, [697], []⟩) = true ∧
    gives (.sleepAnswer 697 false) baseState baseState = true := by decide +kernel
def avsState (x : AvsReq) (now : Nat) : State := { baseState.setAvs 3 [x] with time := ⟨now, 0⟩ }
theorem test_avs : (avsState ⟨5, 800, false, false, 10, false⟩ 0).avsQueue 3 = [⟨5, 800, false, false, 10, false⟩] ∧
    nextIs (exec (.avsResponse 3 true) (avsState ⟨5, 800, false, false, 10, false⟩ 0)) (fun t => t.out.length == 1 && (t.avsQueue 3).all (·.polling)) = true ∧
    nextIs (exec (.avsResponse 3 false) (avsState ⟨5, 800, false, false, 10, false⟩ 0)) (fun t => (t.avsQueue 3).all (·.second)) = true ∧
    nextIs (exec (.avsResponse 3 false) (avsState ⟨5, 800, true, false, 10, false⟩ 0)) (fun t => (t.rail 5).fails == 1) = true ∧
    nextIs (exec (.avsStatusRead 3 true) (avsState ⟨5, 800, false, true, 10, false⟩ 0)) (fun t => (t.rail 5).nowMv == 800 && t.avsQueue 3 == []) = true ∧
    nextIs (exec (.avsStatusRead 3 false) (avsState ⟨5, 800, false, true, 10, false⟩ 0)) (fun t => t.out.length == 1) = true ∧
    gives (.avsRequestFail 3) (avsState ⟨5, 800, false, true, 10, false⟩ 0) (avsState ⟨5, 800, false, true, 10, false⟩ 0) = true ∧
    nextIs (exec (.avsRequestFail 3) (avsState ⟨5, 800, false, true, 10, false⟩ (2 ^ 80))) (fun t => (t.rail 5).fails == 1 && t.inflight.length == 1) = true := by
  decide +kernel
def holdState : State := { baseState with power := { baseState.power with pkg := 2, wakeTime := 0 } }
theorem test_package_wakes : holdState.runningPurpose = 0 ∧ holdState.smbAddress = 0x30 ∧ holdState.board.cold = false ∧
    nextIs (exec .wakeTimer holdState) (fun t => t.power.wakeTimer && t.power.timerFired && t.seq.head.length + t.seq.queue.length ≥ 1) = true ∧
    gives .wakeTimer { baseState with power := { baseState.power with wakeTime := 5 } } { baseState with power := { baseState.power with wakeTime := 5 } } = true ∧
    nextIs (exec (.smbusQuickCommand 0x30 true) holdState) (fun t => t.power.wakeSmbus) = true ∧
    gives (.smbusQuickCommand 0x31 true) holdState holdState = true ∧
    nextIs (exec (.smbusReadByte 0x30 2) holdState) (fun t => t.out == [.smbus (some 0x48)]) = true ∧
    nextIs (exec (.smbusReadByte 0x30 255) holdState) (fun t => t.out == [.smbus none]) = true := by
  decide +kernel
/-- Core 0 closes with a store still buffered. -/
def drainingState : State := { storeState with power := { storeState.power with
  doms := tput storeState.power.doms 0 { runDom with st := .closing, drainSince := some 0 } } }
theorem test_drain_waits : (drainingState.push 0 (drainingState.dom 0).loses).drained 0 (drainingState.dom 0).loses = false ∧
    nextIs (exec (.unitDrained 0) drainingState) (fun t => (t.dom 0).drainSince == some 0) = true ∧
    nextIs (exec (.domReqRun 697) State.reset) (fun t => t == State.reset.violate powerBlock) = true := by decide +kernel

/-! ### Faults, fences, resets -/

theorem test_fault_records : nextIs (exec (.faultMessage 0x2000 0x20 none 7) State.reset) (fun t => t.fc.last == 1 && t.fc.log.length == 1 && t.cores == []) = true ∧
    baseState.severity 0x2000 0x20 < 2 ∧ nextIs (exec (.faultMessage 0x2000 0x20 none 7) baseState) (fun t => t.fc.last == 1 && t.fenced == []) = true ∧
    ((nextIs (exec (.faultMessage 0x2000 0x20 none 7) baseState) fun t => nextIs (exec (.faultMessage 0x2000 0x20 none 7) t) fun u => u.fc.last == 2) : Bool) = true := by
  decide +kernel
theorem test_fences : gives (.fenceComplete 0) baseState baseState = true ∧
    nextIs (exec (.fenceComplete 575) { baseState with fenced := [575] }) (fun t => t.fc.done == [575]) = true ∧
    baseState.hubOn = true ∧ nextIs (exec (.fcAckedWrite 5) baseState) (fun t => t.fc.acked == 5) = true ∧
    gives (.fcAckedWrite 4) { baseState with fc := { baseState.fc with acked := 5 } } ({ baseState with fc := { baseState.fc with acked := 5 } }.violate collectorBlock) = true ∧
    gives (.fcAckedWrite 4) State.reset State.reset = true ∧
    nextIs (exec (.acknowledgeStarvation 0x0010 0x2001) baseState) (fun t => t.inflight == [.faultMessage 0x0010 0x27 none 0x2001]) = true ∧
    nextIs (exec (.acknowledgeStarvation 0x0010 (srcCode 1 3 0x60)) baseState) (fun t => t.inflight.length == 1) = true ∧
    nextIs (exec (.referenceClockLost 3) baseState) (fun t => t.board.clocks == [3] && t.inflight.length == 1) = true ∧
    nextIs (exec (.referenceClockReturn 3) { baseState with board := { baseState.board with clocks := [3] } }) (fun t => t.board.clocks == []) = true := by
  decide +kernel
theorem test_reset_requests : baseState.fc.rres.status ≠ 1 ∧ baseState.coreEnabled 0 = true ∧ baseState.computeEn 0 = true ∧ baseState.pkgBusy = false ∧
    ([.resetCmdFull 0, .resetCmdComputeDie 0, .resetCmdCore 0] : List Instr).all (fun i => gives i State.reset State.reset) = true ∧
    nextIs (exec (.resetCmdFull 0) baseState) (fun t => t.inflight == [.fullReset 1]) = true ∧
    nextIs (exec (.resetCmdComputeDie 11) baseState) (fun t => t.fc.rres.status == 3) = true ∧
    nextIs (exec (.resetCmdComputeDie 0) baseState) (fun t => t.fc.rres.status == 1) = true ∧
    nextIs (exec (.resetCmdCore 48) baseState) (fun t => t.fc.rres.status == 3) = true ∧
    nextIs (exec (.resetCmdCore 0) baseState) (fun t => t.fc.rres.status == 1 && t.fc.rclass == 3) = true ∧
    nextIs (exec .pkgCmdHold baseState) (fun t => t.power.res.status == 1) = true ∧
    nextIs (exec .pkgCmdOff State.reset) (fun t => t.power.res.status == 3) = true ∧
    nextIs (exec (.fullReset 0) baseState) (fun t => t.seq.head == [⟨purposeFullReset, 0, 0⟩]) = true ∧
    nextIs (exec (.fullReset 0) State.reset) (fun t => t.seq.head == []) = true := by decide +kernel
def vaonState (cold : Bool) : State := { baseState with board := { baseState.board with vaon := true, rstLow := false, cold := cold } }
theorem test_cold_reset : ([.coldRstNAssert, .vaonLoss, .thermalTrip 3 115] : List Instr).all (fun i =>
      nextIs (exec i (vaonState false)) fun t => t.board.cold && t.cores == [] && t.seq.active.isNone && t.fc.plog.length == 1) = true ∧
    nextIs (exec .vaonPowerUp { baseState with board := { baseState.board with vaon := false } }) (fun t => t.board.cold && t.board.vaon) = true ∧
    nextIs (exec (.thermalTrip 0 114) (vaonState false)) (fun t => !t.board.cold && !t.board.trip) = true ∧
    gives .vaonLoss { baseState with board := { baseState.board with vaon := false } } { baseState with board := { baseState.board with vaon := false } } = true ∧
    nextIs (exec .coldRstNRelease { vaonState true with board := { (vaonState true).board with rstLow := true } }) (fun t => t.board.released == some 0) = true := by
  decide +kernel
/-- The last cause has gone at 0, and 20 ms have passed. -/
def releasedState (ns : Nat) : State :=
  { vaonState true with board := { (vaonState true).board with released := some 0 }, time := ⟨ns * 10000000000, 0⟩ }
theorem test_cold_reset_end : (releasedState 20000000).now = 20000000 ∧ (releasedState 20000000).board.held = false ∧
    nextIs (exec (.coldResetEnd 0x1234 5 false) (releasedState 20000000)) (fun t => !t.board.cold && t.board.smbAddr == 5 && t.board.mgmtId == 0x1234) = true ∧
    nextIs (exec (.coldResetEnd 0x1234 5 false) (releasedState 19999999)) (fun t => t.board.cold) = true ∧
    nextIs (exec (.coldResetEnd 0x1234 5 true) (releasedState 20000000)) (fun t => t.board.cold && t.board.testMode) = true := by decide +kernel
theorem test_cold_silence : gives (.mgmtFrameReceive [1, 2, 3]) (vaonState true) (vaonState true) = true ∧
    nextIs (exec (.brixmenRequest 0 0 [1]) (vaonState true)) (fun t => t.out == []) = true ∧
    gives (.smbusQuickCommand 0x30 true) (vaonState true) (vaonState true) = true ∧
    nextIs (exec .jtagIdcode (vaonState true)) (fun t => t.out == [.tdo (bitList idcode)]) = true ∧
    nextIs (exec (.jtagBypass [true, false]) (vaonState true)) (fun t => t.out == [.tdo [false, true]]) = true ∧
    nextIs (exec (.jtagHighz [true]) (vaonState true)) (fun t => t.board.driven == some none) = true ∧
    nextIs (exec (.jtagClamp [true]) (vaonState true)) (fun t => t.board.driven == some (some 0)) = true ∧
    nextIs (exec (.jtagExtest 1 2) (vaonState true)) (fun t => t.board.boundary == 2 && t.board.driven == some (some 2)) = true ∧
    nextIs (exec (.jtagSamplePreload 1 2) (vaonState true)) (fun t => t.board.boundary == 2 && t.out.length == 1) = true ∧
    nextIs (exec .jtagTapReset (vaonState true)) (fun t => t.board.jtag == 1) = true := by decide +kernel

/-! ### The security block -/

/-- The Warden is up and enclave 1 stands as given. -/
def wardenState (st : EncState) : State :=
  { baseState with sec := { baseState.sec with
      up := true, healthy := true, enclaves := if st = .free then [] else [(1, ⟨st, [(0x200000, 0x200000)], [], 0⟩)] } }
/-- Its command runs, and it reads the request record in line 0. -/
def wardenReads (st : EncState) (why : ReadFor) (n : Nat) : State :=
  let s := wardenState st
  readingState { s with sec := { s.sec with res := s.sec.res.accept } } secNode why 0 n
/-- The record of an operation for EID 1. -/
def wardenRecord (op : Nat) (rest : List (Nat × Nat)) : Instr := lineCome secNode 0 (lineOf ([(0, op), (4, 1)] ++ rest))
theorem test_warden_go : ([.wardenCreate 0, .addPage 0, .addEntry 0, .sealRow 0, .attest 0, .wardenDestroy 0] : List Instr).all (fun i =>
      nextIs (exec i (wardenState .build)) (fun t => t.inflight == [.rdcur ⟨secNode, 0, 0, 0, 0⟩ 0] && t.sec.res.status == 1) &&
      nextIs (exec i { wardenState .build with sec := Sec.initial }) (fun t => t.sec.res.status == 3) &&
      nextIs (exec i { wardenState .build with sec := { Sec.initial with res := ⟨1, 1, 0, 0⟩ } }) fun t =>
        t.sec.res.status == 1 && t.viol.length == 1) = true := by decide +kernel
theorem test_warden_refusals : ([(1, .build), (2, .ready), (3, .free), (4, .ready), (5, .build), (6, .free)] : List (Nat × EncState)).all (fun p =>
      nextIs (exec (wardenRecord p.1 []) (wardenReads p.2 .wardenReq 64)) fun t => t.sec.res.status == 3) = true := by decide +kernel
/-- CREATE of one range of 2 MiB at 2 MiB, listed at address 64. -/
theorem test_warden_create : nextIs (exec (wardenRecord 1 [(8, 1), (16, 64)]) (wardenReads .free .wardenReq 64)) (fun t =>
      t.readers.map (fun r => (r.why, r.todo)) == [(.wardenRanges 1, [(64, 16)])]) = true ∧
    nextIs (exec (lineCome secNode 0 (lineOf [(2, 0x20), (10, 0x20)])) (wardenReads .free (.wardenRanges 1) 16)) (fun t =>
      t.sec.running.any (fun r => r.install && r.ranges == [(0x200000, 0x200000)] && r.step == 1) && t.sec.res.status == 1) = true ∧
    nextIs (exec (lineCome secNode 0 (lineOf [(0, 1), (10, 0x20)])) (wardenReads .free (.wardenRanges 1) 16)) (fun t =>
      t.sec.running.isNone && t.sec.res.status == 3) = true := by decide +kernel
theorem test_warden_page : nextIs (exec (wardenRecord 2 [(9, 0x10), (18, 0x20)]) (wardenReads .build .wardenReq 64)) (fun t =>
      t.readers.map (·.why) == [.wardenPage 1 0x200000 false]) = true ∧
    nextIs (exec (lineCome secNode 0 7) (wardenReads .build (.wardenPage 1 0x200000 false) 64)) (fun t => t.writers.length == 1) = true := by decide +kernel
theorem test_warden_entry : nextIs (exec (wardenRecord 3 [(8, 15), (10, 5), (16, 8), (34, 0x20)]) (wardenReads .build .wardenReq 64)) (fun t =>
      (t.enclave 1).entries.map (·.1) == [15] && t.sec.res.value == 15 && t.sec.res.status == 2) = true := by decide +kernel
theorem test_warden_ready : nextIs (exec (wardenRecord 4 []) (wardenReads .build .wardenReq 64)) (fun t => (t.enclave 1).st == .ready && t.sec.res.status == 2) = true ∧
    nextIs (exec (wardenRecord 5 [(9, 0x10), (17, 0x20)]) (wardenReads .ready .wardenReq 64)) (fun t =>
      t.readers.map (·.why) == [.wardenReport 1 0x2000]) = true ∧
    nextIs (exec (wardenRecord 6 []) (wardenReads .ready .wardenReq 64)) (fun t => t.sec.running.any fun r => !r.install && r.step == 1) = true := by
  decide +kernel
def stepState (install : Bool) (step : Nat) (ranges : List (Nat × Nat)) : State :=
  { wardenState (if install then .free else .ready) with sec := { (wardenState (if install then .free else .ready)).sec with
      running := some ⟨install, 1, ranges, step, 7, false, false⟩ } }
theorem test_range_steps : gives .rangeStepAck baseState baseState = true ∧
    nextIs (exec .rangeStepAck (stepState true 2 [(0x200000, 0x200000)])) (fun t => t.sec.running.any (·.step == 3)) = true ∧
    nextIs (exec .rangeStepAck (stepState true 5 [])) (fun t => (t.enclave 1).st == .build && t.sec.running.isNone) = true ∧
    nextIs (exec .rangeStepAck (stepState false 5 [])) (fun t => (t.enclave 1).st == .free && t.sec.running.isNone) = true ∧
    nextIs (exec (.keyUpdate 11) (stepState true 4 [(0x200000, 0x200000)])) (fun t => tfind? (t.mc 11).keys 1 == some 7 &&
      (t.mc 11).ranges == [(1, 0x200000, 0x200000)]) = true ∧
    nextIs (exec (.keyUpdate 11) ((stepState false 2 []).setMc 11 { baseState.mc 11 with keys := [(1, 7)], ranges := [(1, 0, 64)] })) (fun t =>
      (t.mc 11).keys == [] && (t.mc 11).ranges == []) = true := by decide +kernel
theorem test_security_health : nextIs (exec .wardenRestart (wardenState .build)) (fun t => !t.sec.up && (t.enclave 1).st == .broken && t.inflight.length == 1) = true ∧
    nextIs (exec .wardenRestartComplete baseState) (fun t => t.sec.up) = true ∧
    nextIs (exec .entropyFailure baseState) (fun t => !t.sec.healthy && t.inflight.length == 1) = true ∧
    nextIs (exec .entropyHealthRestored baseState) (fun t => t.sec.healthy) = true ∧ baseState.inEnclaveUse 697 = false ∧
    nextIs (exec (.cutHold 0 3) insideState) (fun t => t.sec.cuts == [(0, 3, 0)]) = true ∧
    nextIs (exec (.cutHold 697 3) baseState) (fun t => t.sec.cuts == []) = true ∧
    gives (.enclaveGraceExpiry 0) baseState baseState = true := by decide +kernel
theorem test_grace : gives (.enclaveGraceExpiry 0) { baseState with sec := { baseState.sec with cuts := [(0, 3, 5)] } }
      { baseState with sec := { baseState.sec with cuts := [(0, 3, 5)] } } = true ∧
    nextIs (exec (.enclaveGraceExpiry 0) { insideState with
      sec := { insideState.sec with cuts := [(0, 3, 0)] },
      power := { insideState.power with doms := tput insideState.power.doms 0 { runDom with st := .closing } } }) (fun t =>
    (t.core 0).run == .stopped && (t.core 0).a == 0 && (t.enclave 1).st == .evicted && t.sec.cuts == []) = true := by decide +kernel

/-! ### Queue pairs and ports -/

def testQp (sSt : Nat) (rc : Option Rc) : Qp :=
  { isRc := rc.isSome, port := 1, link := 0, tid := 9, vector := 0, rxTs := false, rxCsum := false, sq := 0, rq := 0, cq := 0, sqLog := 6,
    rqLog := 6, cqLog := 6, violLimit := 0, destQpn := 0, ackTimeout := 1, retry := 3, vlan := 0, peerIp := [], localIp := [],
    peerMac := [], windows := [], sHead := 4, sTail := 4, rHead := 2, rTail := 2, prod := 0, cHead := 0, sSt := sSt, rSt := 0,
    cqHalt := false, sDesc := none, rDesc := none, work := none, rxq := [], rxHeld := none, blocked := false, paused := false, dying := false,
    aborted := 6, rc := rc }
def qpState (n : Nat) (q : Qp) : State :=
  { baseState.setTenant 9 { baseState.tenant 9 with en := true } with qps := [(n, q)] }
theorem witness_qp : baseState.runs 709 = true ∧ (qpState 32769 (testQp 1 none)).qp? 32769 = some (testQp 1 none) ∧
    ((qpState 32769 (testQp 1 none)).tenant 9).en = true ∧ (baseState.eng 1).running = none ∧
    (qpState 32769 (testQp 0 none)).qpIdle 32769 (testQp 0 none) = true := by decide +kernel
theorem test_qp_commands : nextIs (exec (.qpDestroy 1 0xA000000000008001) (qpState 32769 (testQp 0 none))) (fun t => t.qps == [] && (t.eng 1).res.value == 6) = true ∧
    nextIs (exec (.qpQuery 1 0xC000000000008001) (qpState 32769 (testQp 1 none))) (fun t => (t.eng 1).res.value == 1 && (t.eng 1).running.isNone) = true ∧
    nextIs (exec (.qpRearm 1 0xB000000000008001) (qpState 32769 (testQp 0 none))) (fun t => (t.eng 1).res.status == 3) = true ∧
    nextIs (exec (.qpRearm 1 0xB000000000008001) (qpState 32769 { testQp 1 none with port := 7 })) (fun t => (t.eng 1).res.value == 4 &&
      ((t.qp? 32769).map (·.sSt)) == some 0) = true ∧
    nextIs (exec (.qpCreate 1 0x9000000000008001) baseState) (fun t => (t.eng 1).running == some (1, 32769) && t.readers.length == 1) = true ∧
    ([.qpDestroy 1 0xA000000000008001, .qpRearm 1 0xB000000000008001, .qpQuery 1 0xC000000000008001] : List Instr).all (fun i =>
      nextIs (exec i baseState) (fun t => (t.eng 1).res.status == 3) &&
      nextIs (exec i (baseState.setEng 1 { baseState.eng 1 with running := some (1, 0) })) fun t => t.viol.length == 1) = true := by decide +kernel
/-- Port 1, link 0, ready; a frame of the shortest length. -/
def linkState (txq : List TxFrame) : State := baseState.setPort 1 { baseState.port 1 with ready := 1, txq := txq }
theorem test_frames : (linkState []).linkRuns 1 0 = true ∧ baseState.linkRuns 1 0 = false ∧ baseState.portRole 1 = 1 ∧
    gives (.frameReceive 1 0 true []) baseState baseState = true ∧ gives (.frameTransmitted 1 0) (linkState []) (linkState []) = true ∧
    nextIs (exec (.frameReceive 1 0 true (List.replicate 59 0)) (linkState [])) (fun t => (t.port 1).bad == 1) = true ∧
    nextIs (exec (.frameReceive 1 0 false (List.replicate 60 0)) (linkState [])) (fun t => (t.port 1).bad == 1) = true ∧
    nextIs (exec (.frameReceive 1 0 true (List.replicate 12 0 ++ [0x88, 0x08, 0, 1] ++ List.replicate 44 0)) (linkState [])) (fun t => (t.port 1).pause == 1) = true ∧
    nextIs (exec (.frameTransmitted 1 0) (linkState [⟨none, 0, 0, List.replicate 60 1, true, false⟩])) (fun t => t.out.length == 1 && (t.port 1).tx == 1) = true ∧
    nextIs (exec (.linkStateChange 1 0 true) baseState) (fun t => (t.port 1).partner == 1) = true := by decide +kernel
/-- An untagged frame to address 0 is steered to queue pair 1, which has no RECV descriptor. -/
theorem test_frame_without_buffer : let s := { (qpState 1 { testQp 0 none with rHead := 2, rTail := 2 }) with
      ports := (baseState.setPort 1 { baseState.port 1 with ready := 1, steer := [(0, 0x8000000000000000)], steerQp := [(0, 1)] }).ports }
    (s.port 1).steered 0 (ethOf (List.replicate 60 0)) = some 1 ∧
    nextIs (exec (.frameReceive 1 0 true (List.replicate 60 0)) s) (fun t => (t.port 1).noBuf == 1 && (t.port 1).rx == 1) = true := by decide +kernel
def rcOf (retries : Nat) (unacked : List RcPkt) : Rc := ⟨0, 0, 0, unacked, retries, some 0, none, none, none, 0, none, some 0, 0, false, false⟩
theorem test_connections : gives (.rcAckTimeout 65535) baseState baseState = true ∧ gives (.cnpRateRecovery 65535) baseState baseState = true ∧
    gives (.heldFrameCopy 65535) baseState baseState = true ∧
    gives (.rcAckTimeout 1) (atNs 8191 (qpState 1 (testQp 0 (some (rcOf 2 [⟨0, [], none⟩]))))) (atNs 8191 (qpState 1 (testQp 0 (some (rcOf 2 [⟨0, [], none⟩]))))) = true ∧
    nextIs (exec (.rcAckTimeout 1) (atNs 8192 (qpState 1 (testQp 0 (some (rcOf 2 [⟨0, [], none⟩])))))) (fun t => ((t.qp? 1).bind (·.rc)).map (·.retries) == some 1) = true ∧
    nextIs (exec (.rcAckTimeout 1) (atNs 8192 (qpState 1 (testQp 0 (some (rcOf 0 [⟨0, [], none⟩])))))) (fun t => ((t.qp? 1).map (·.sSt)) == some 2) = true ∧
    nextIs (exec (.cnpRateRecovery 1) (atNs 50000 (qpState 1 (testQp 0 (some (rcOf 0 [])))))) (fun t => ((t.qp? 1).bind (·.rc)).map (·.rate) == some 100000) = true ∧
    nextIs (exec (.cnpRateRecovery 1) (atNs 49999 (qpState 1 (testQp 0 (some (rcOf 0 [])))))) (fun t => t.qp? 1 == some (testQp 0 (some (rcOf 0 [])))) = true ∧
    (qpState 1 (testQp 0 (some (rcOf 2 [])))).qpRuns 1 (testQp 0 none) = true := by decide +kernel
theorem test_management_port : baseState.steward = true ∧ nextIs (exec (.mgmtFrameReceive [2, 3]) baseState) (fun t => t.mgmt.dropped == 1) = true ∧
    gives (.mgmtFrameReceive [2]) { baseState with board := { baseState.board with clocks := [3] } } { baseState with board := { baseState.board with clocks := [3] } } = true ∧
    nextIs (exec (.brixmenRequest 0 0 [1, 2, 3, 4, 5, 6, 7]) baseState) (fun t => t.mgmt.malformed == 1 && t.out == []) = true := by decide +kernel
theorem test_doorbell : let s := qpState 32769 (testQp 0 none)
    nextIs (exec (.doorbell 1 9 1 5) s) (fun t => ((t.qp? 32769).map (·.sTail)) == some 5 && t.readers.length == 1) = true ∧
    nextIs (exec (.doorbell 1 9 1 0x10003) s) (fun t => ((t.qp? 32769).map (·.rTail)) == some 3 && t.viol == []) = true ∧
    nextIs (exec (.doorbell 1 9 1 0x20000) s) (fun t => ((t.qp? 32769).map (·.cHead)) == some 0 && t.viol == []) = true ∧
    ([.doorbell 1 9 1 256, .doorbell 1 8 1 5, .doorbell 1 9 2 5, .doorbell 1 9 1 0x30000] : List Instr).all (fun i =>
      gives i s (s.violate (engineBlock 1))) = true ∧
    gives (.doorbell 1 9 1 5) (qpState 32769 { testQp 0 none with blocked := true }) (qpState 32769 { testQp 0 none with blocked := true }) = true := by
  decide +kernel
/-- A frame to the port's own address with an IPv4 payload, and a request whose length field is wrong. -/
theorem test_management_requests : let b : List Byte := [0x42, 0x58, 1, 1, 3, 0, 9, 0, 0]
    baseState.requestBad b = 1 ∧ nextIs (exec (.brixmenRequest 0 0 b) baseState) (fun t => t.mgmt.malformed == 1 && t.out.length == 1) = true := by
  decide +kernel

/-! ### The guest port -/

/-- The port is up behind no fence; stream 3 may read and write in window 15. -/
def guestState (f : Guest → Guest) : State :=
  { baseState with guest := f { Guest.initial with
      fence := false, up := true, present := true, wins := [(15, 0xE000000000000000, 0xFFFFFFF000, 8)],
      streams := [(3, { Stream.initial with cfg := 0x80000000000F0009, rate := 1 })] } }
def guestHdr (st tag : Nat) : DtlHdr := ⟨BitVec.ofNat 8 st, BitVec.ofNat 16 tag, 0, 0x1000⟩
theorem witness_guest : (guestState id).guestLive = true ∧ baseState.guestLive = false ∧ (guestHdr 3 5).bad = false ∧ (guestHdr 3 4096).bad = true ∧
    ((guestState id).stream (guestHdr 3 5).stream).takes 0 = true ∧ ((guestState id).stream (guestHdr 4 5).stream).takes 0 = false ∧
    (guestState id).guest.windowOk 3 0x1000 61 = true := by decide +kernel
theorem test_guest_requests : ([.dtlRd (guestHdr 3 5), .dtlWr (guestHdr 3 5) 0, .dtlWrp (guestHdr 3 5) 0, .dtlMsg (guestHdr 3 5), .dtlBudget (guestHdr 3 5) 0,
    .dtlRddata (guestHdr 3 5) 0, .dtlWrack (guestHdr 3 5), .dtlNak (guestHdr 3 5), .dtlReservedMessage 10 (guestHdr 3 5)] : List Instr).all
      (fun i => gives i baseState baseState) = true ∧
    ([.dtlRd (guestHdr 3 4096), .dtlWr (guestHdr 3 4096) 0, .dtlMsg (guestHdr 3 4096), .dtlNak (guestHdr 3 4096), .dtlReservedMessage 0 (guestHdr 3 5)] : List Instr).all
      (fun i => nextIs (exec i (guestState id)) fun t => t.out.length == 1) = true ∧
    nextIs (exec (.dtlRd (guestHdr 4 5)) (guestState id)) (fun t => t.out.length == 1 && t.guest.open_ == []) = true ∧
    nextIs (exec (.dtlRd (guestHdr 3 5)) (guestState fun g => { g with fence := true })) (fun t => t.out.length == 1) = true ∧
    nextIs (exec (.dtlMsg (guestHdr 3 5)) (guestState id)) (fun t => t.inflight.length == 1) = true ∧
    gives (.dtlNak (guestHdr 3 5)) (guestState id) (guestState id) = true := by decide +kernel
theorem test_guest_read : nextIs (exec (.dtlRd (guestHdr 3 5)) (guestState id)) (fun t => t.guest.open_ == [(5, 3)] && t.inflight.length == 1) = true := by decide +kernel
theorem test_guest_window : nextIs (exec (.guestWindowAccess portReq 64 .rd) baseState) (fun t => t.inflight == [.err portReq 0xF100000000040 1]) = true ∧
    nextIs (exec (.guestWindowAccess portReq 64 .rd) (guestState fun g => { g with fence := true })) (fun t => t.inflight == [.err portReq 0xF100000000040 6]) = true ∧
    nextIs (exec (.guestWindowAccess portReq 64 .rd) (guestState id)) (fun t => t.guest.host == [(0, portReq, 0xF100000000040, true)] && t.out.length == 1) = true := by decide +kernel
/-- A read or write of an engine or a core waits for the guest's answer. -/
def hostState (r : Hdr) (read : Bool) : State := guestState fun g => { g with host := [(5, r, 0xF100000000040, read)] }
theorem test_guest_answers : nextIs (exec (.dtlRddata (guestHdr 3 5) 7) (hostState portReq true)) (fun t =>
      t.guest.host == [] && t.inflight == [.curdata portReq 0x3C4000000001 ⟨7, false⟩]) = true ∧
    nextIs (exec (.dtlRddata (guestHdr 3 5) 7) (hostState req0 true)) (fun t => t.guest.host == [] && t.guest.answers == [(0, 0xF100000000040, 0, 7)]) = true ∧
    nextIs (exec (.dtlRddata ⟨3, 5, 1, 0⟩ 7) (hostState portReq true)) (fun t => t.inflight == [.err portReq 0xF100000000040 8]) = true ∧
    nextIs (exec (.dtlWrack (guestHdr 3 5)) (hostState portReq false)) (fun t => t.inflight == [.cmp portReq 0x3C4000000001]) = true ∧
    nextIs (exec (.dtlWrack (guestHdr 3 5)) (hostState req0 false)) (fun t => t.guest.answers == [(0, 0xF100000000040, 0, 0)]) = true ∧
    nextIs (exec (.dtlWrack (guestHdr 3 5)) (guestState id)) (fun t => t.out.length == 1 && t.guest.pv.total == 1) = true := by decide +kernel
/-- All 128 tags of the port are in use. -/
theorem test_guest_busy : nextIs (exec (.guestWindowAccess portReq 64 .rd) (guestState fun g => { g with
    host := (List.range 128).map fun i => (BitVec.ofNat 12 i, req0, 0, true) })) (fun t => t.inflight == [.err portReq 0xF100000000040 7]) = true := by
  decide +kernel
/-- The stream has no tokens, or a request of it waits already. -/
def dryState (f : Guest → Guest) : State := guestState fun g => f { g with streams := [(3, { Stream.initial with cfg := 0x80000000000F0009, rate := 0 })] }
def waitingReq : GuestReq := ⟨1, guestHdr 3 5, 0⟩
theorem test_guest_waits : nextIs (exec (.dtlRd (guestHdr 3 6)) (dryState id)) (fun t => t.guest.waiting == [⟨1, guestHdr 3 6, 0⟩] && t.inflight == []) = true ∧
    nextIs (exec (.dtlRd (guestHdr 3 6)) (guestState fun g => { g with waiting := [waitingReq] })) (fun t =>
      t.guest.waiting == [waitingReq, ⟨1, guestHdr 3 6, 0⟩] && t.inflight == []) = true ∧
    gives (.guestBucketReady 3) (dryState fun g => { g with waiting := [waitingReq] }) (dryState fun g => { g with waiting := [waitingReq] }) = true ∧
    nextIs (exec (.guestBucketReady 3) (guestState fun g => { g with waiting := [waitingReq] })) (fun t => t.guest.waiting == [] && t.inflight.length == 1) = true := by
  decide +kernel
theorem test_guest_fence : nextIs (exec (.dtlBudget (guestHdr 3 5) 40) (guestState id)) (fun t => t.guest.budgetAt == some 0 && t.inflight == []) = true ∧
    nextIs (exec .guestBudgetTimeout (guestState id)) (fun t => t.power.grant == 0 && t.inflight.length == 1) = true ∧
    gives .guestSleepTimeout (guestState id) (guestState id) = true ∧
    gives .guestSleepTimeout (guestState fun g => { g with sleepAt := some 0 }) (guestState fun g => { g with sleepAt := some 0 }) = true ∧
    gives .guestBudgetTimeout (guestState fun g => { g with budgetAt := some 0 }) (guestState fun g => { g with budgetAt := some 0 }) = true ∧
    nextIs (exec .guestSleepTimeout (atNs 1000000 (guestState fun g => { g with sleepAt := some 0 }))) (fun t => t.guest.sleepAt.isNone && t.inflight.length == 1) = true ∧
    gives (.guestBucketReady 15) (guestState id) (guestState id) = true ∧ gives .guestFenceComplete (guestState id) (guestState id) = true ∧
    nextIs (exec .guestFenceComplete baseState) (fun t => t.guest.fenced) = true ∧
    nextIs (exec .guestLinkLoss (guestState id)) (fun t => !t.guest.up && t.guest.fence && t.guest.auto_) = true ∧
    nextIs (exec (.fwCtlWrite 1) (guestState id)) (fun t => t.guest.fence) = true ∧
    nextIs (exec (.fwCtlWrite 2) baseState) (fun t => !t.guest.fence) = true := by decide +kernel

/-! ### The compressor and the registers -/

def laneState (f : Lane → Lane) : State := baseState.setLane 0 (f (baseState.lane 0))
def testJob (ready : Option (List Byte)) : Job :=
  { compress := false, mode := 1, tid := 0, vector := 0, int := false, count := 4, inBase := 0, outBase := 0x200000, slotLen := 1024,
    mapBase := 0, bitmap := 0, index := 0, ready := ready, map := [], marks := [], written := 0, used := 0, aborting := false,
    ending := false, failure := none }
theorem test_lanes : baseState.laneOn 0 = true ∧ nextIs (exec (.jobGo 0 0x8000000000001000) baseState) (fun t => (t.lane 0).busy && t.readers.length == 1) = true ∧
    nextIs (exec (.jobGo 0 0x8000000000001000) (laneState fun x => { x with halted := true })) (fun t => (t.lane 0).res.status == 3) = true ∧
    nextIs (exec (.jobGo 0 0x8000000000001000) (laneState fun x => { x with busy := true })) (fun t => t.viol.length == 1) = true ∧
    nextIs (exec (.jobAbort 0 0x4000000000000000) (laneState fun x => { x with busy := true, job := some (testJob none) })) (fun t =>
      ((t.lane 0).job.map (·.aborting)) == some true) = true ∧
    nextIs (exec (.laneRearm 0 1) (laneState fun x => { x with halted := true })) (fun t => !(t.lane 0).halted) = true ∧
    gives (.laneRearm 0 0) baseState baseState = true ∧ gives (.compressorBlock 0) baseState baseState = true := by decide +kernel
theorem test_decompress : decodeSlot [] = none ∧
    nextIs (exec (.compressorBlock 0) (laneState fun x => { x with busy := true, job := some (testJob (some [])) })) (fun t =>
      ((t.lane 0).job.map (·.marks)) == some [0]) = true := by decide +kernel
theorem witness_slot_round_trip : (List.replicate 4096 (0 : Byte)).length = 4096 ∧
    (codeSlot (tokensOf 0 (List.replicate 4096 0)) (List.replicate 4096 0) 1024).isSome = true := by decide +kernel
theorem test_registers : nextIs (exec (.registerWrite 0 0 0 true 0) baseState) (fun t => t.inflight == [.err ⟨0, 256, 0, 0, 0⟩ 0 1]) = true ∧ blkOf 0 = none ∧
    (blkOf 0xF000000000008).isSome = true ∧
    nextIs (exec (.registerWrite 0 0 0xF000000000008 false 0) baseState) (fun t => t.viol.length == 1 && t.inflight == [.err ⟨0, 256, 0, 0, 0⟩ 0xF000000000008 2]) = true ∧
    nextIs (exec (.violationClear 0xF000000000008 0x8000000000000000) { baseState with viol := [(0xF000000000000, 4)] }) (fun t => tget t.viol 0xF000000000000 9 == 0) = true ∧
    statOk 1056 = true ∧ gives (.statClear 1056 0) baseState baseState = true ∧
    nextIs (exec (.statClear 1056 3) baseState) (fun t => (tget t.hier.stats 1056 Stat.initial).freeze) = true ∧
    nextIs (exec (.pvClear 7 0x8000000000000000) (baseState.setPort 7 { baseState.port 7 with pv := ⟨3, 3, []⟩ })) (fun t => (t.port 7).pv.total == 0) = true := by
  decide +kernel
/-- A write to VIOLATION of block 0 with a reserved bit set, and one to a register of a block that is off. -/
theorem test_register_answers : (blkOf 0xF000000000008).map (fun b => (baseState.blkErr b).1) = some 0 ∧
    nextIs (exec (.registerWrite 0 0 0xF000000000018 true 1) baseState) (fun t => t.viol.length ≤ 1) = true ∧
    nextIs (exec (.registerWrite 0 0 0xF000000000009 true 0) baseState) (fun t => t.inflight == [.err ⟨0, 256, 0, 0, 0⟩ 0xF000000000009 2]) = true := by
  decide +kernel

/-! ### The mirror engine -/

/-- A mirror engine of domain 4, paired or not with domain 5, with the given slots; port 0 is its port. -/
def mirrorState (st : Nat) (slots : Table Slot) (f : Mirror → Mirror) : State :=
  { baseState.setPort 0 { baseState.port 0 with ready := 1 } with mirror := f { Mirror.initial with
      mac := [(0, 0x77)], st := st, did := 4, partner := 5, gen := 1, logLen := 0x100000, slots := slots } }
/-- A frame of tenant 9 from the partner. -/
def frameOf (epoch seq : Nat) (pay : List Byte) : CFrame := ⟨0, 0x77, 1, 5, 4, 1, 9, BitVec.ofNat 32 epoch, BitVec.ofNat 64 seq, pay⟩
def activeSlot (st : SlotSt) : Slot :=
  { Slot.initial with
      st := st, tid := 9, active := true, ranges := [(0, 0x200000, 0)], epochMs := 1, stageLen := 0x4000000, epoch := 3,
      ended := 2, acked := 2, committed := 2 }
def standbySlot : Slot :=
  { Slot.initial with st := .standby, tid := 9, ranges := [(0, 0x200000, 0)], epochMs := 1, stageLen := 0x4000000, ended := 2, applied := 2 }
def active (st : SlotSt) : State := mirrorState 2 [(0, activeSlot st)] id
def standby : State := mirrorState 2 [(0, standbySlot)] id
theorem witness_mirror : standby.mirrorRuns = true ∧ standby.mirrorLink 0 = true ∧ standby.idOk (frameOf 3 1 []) = true ∧ standby.slotOf 9 = some (0, standbySlot) ∧
    standby.slot 0 = standbySlot ∧ standbySlot.openEpoch = 3 ∧ (frameOf 3 1 []).seq.toNat = standby.mirror.expect ∧
    standby.mirror.viols.length < standby.mirror.limit.toNat := by decide +kernel
theorem test_mirror_commands :
    nextIs (exec (.mtRemove 0xA000000000000240) standby) (fun t => t.mirror.slots.all (fun e => e.2.st == .free) && t.mirror.res.status == 2) = true ∧
    nextIs (exec (.mtRemove 0xA000000000000280) standby) (fun t => t.mirror.res.status == 3) = true ∧
    nextIs (exec (.mtRearm 0xB000000000000280) standby) (fun t => t.mirror.res.status == 3) = true ∧
    nextIs (exec (.mtRearm 0xB000000000000240) (active .unguarded)) (fun t => t.mirror.joining == some (0, 0, false) && t.mirror.res.status == 1) = true ∧
    nextIs (exec (.mtAdd 0x9000000000000000) standby) (fun t => t.mirror.res.status == 1 && t.readers.length == 1 && t.inflight.length == 1) = true := by
  decide +kernel
/-- A command is under way. -/
def mirrorBusy : State := mirrorState 2 [] fun g => { g with res := g.res.accept }
theorem test_mirror_busy : mirrorBusy.mirror.res.status = 1 ∧
    ([.mtAdd 0x9000000000000000, .mtRemove 0xA000000000000240, .mtRearm 0xB000000000000240] : List Instr).all (fun i =>
      nextIs (exec i mirrorBusy) fun t => t.viol.length == 1 && t.mirror.res.status == 1) = true := by decide +kernel
/-- A standby's record that keeps Table 15-2; a record of zeros does not. -/
def goodRecord : List Byte :=
  [9, 0, 1, 1, 1, 0, 0, 0, 0, 0, 0x20, 0, 0, 0, 0, 0, 0, 0, 0, 4, 0, 0, 0, 0, 0, 0, 0x10, 0, 0, 0, 0, 0] ++ List.replicate 32 0 ++
    [0, 0, 0, 0x10, 0, 0, 0, 0, 0, 0, 0x20, 0, 0, 0, 0, 0, 0, 0, 0, 0x20, 0, 0, 0, 0] ++ List.replicate 360 0
theorem witness_record : goodRecord.length = 448 ∧ addFields goodRecord = true ∧ addFields (List.replicate 448 0) = false ∧
    (slotOfRecord goodRecord).active = false ∧ (slotOfRecord goodRecord).tid = 9 := by decide +kernel
/-- The last line of an ADD's record is being read. -/
def addState (s : State) (rec : List Byte) : State :=
  let s : State := readingState (s.modMirror fun g => { g with res := g.res.accept }) mirrorNode .mtRecord 384 64
  { s with readers := s.readers.map fun r => { r with got := rec.take 384 } }
def addEnds (s : State) (rec : List Byte) : Out := exec (lineCome mirrorNode 6 (ofBytes 512 (rec.drop 384))) (addState s rec)
/-- The record with its staging area just past the last address, with a misplaced range, of an active member. -/
def recordPast : List Byte := goodRecord.take 8 ++ leBytes 8 (2 ^ 52 - 2 ^ 26 + 2 ^ 21) ++ goodRecord.drop 16
def recordOff : List Byte := goodRecord.take 64 ++ leBytes 8 (2 ^ 51) ++ goodRecord.drop 72
def recordActive : List Byte := [9, 0, 0, 1, 1, 0, 0, 0] ++ List.replicate 56 0 ++ goodRecord.drop 64
theorem test_mirror_add : nextIs (addEnds (mirrorState 2 [] id) goodRecord) (fun t =>
      (t.slot 0).st == .standby && (t.slot 0).catchUp && t.mirror.res.status == 2) = true ∧
    nextIs (addEnds (mirrorState 2 [] id) (List.replicate 448 0)) (fun t => t.mirror.res.status == 3) = true ∧
    nextIs (addEnds (mirrorState 1 [] id) goodRecord) (fun t => t.mirror.res.status == 3) = true ∧
    nextIs (addEnds standby goodRecord) (fun t => t.mirror.res.status == 3) = true ∧
    nextIs (exec (lineBad mirrorNode 6) (addState (mirrorState 2 [] id) goodRecord)) (fun t => t.mirror.res.status == 3) = true ∧
    stagePastEnd (slotOfRecord recordPast) = true ∧ addFields recordPast = true ∧ addFields recordOff = true ∧
    nextIs (addEnds (mirrorState 2 [] id) recordPast) (fun t => t.mirror.res == Chan.none.accept.fail codeLengthRange 0) = true ∧
    nextIs (addEnds (mirrorState 2 [] id) recordOff) (fun t => t.mirror.res == Chan.none.accept.fail codeMirrorRange 0) = true ∧
    addFields recordActive = true ∧
    nextIs (addEnds (mirrorState 2 [] id) recordActive) (fun t => t.mirror.joining == some (0, 0, true)) = true := by
  decide +kernel
theorem test_mirror_timers : gives .joinTimeout standby standby = true ∧
    nextIs (exec .joinTimeout { mirrorState 2 [(0, activeSlot .unguarded)] (fun g => { g with joining := some (0, 0, true) }) with time := ⟨10000000 * 10000000000, 0⟩ })
      (fun t => t.mirror.joining.isNone && t.mirror.res.status == 3) = true ∧
    nextIs (exec .joinTimeout { mirrorState 2 [] (fun g => { g with joining := some (0, 0, true) }) with time := ⟨9999999 * 10000000000, 0⟩ })
      (fun t => t.mirror.joining.isSome) = true ∧
    nextIs (exec .helloTimer (mirrorState 1 [] id)) (fun t => t.out.length ≥ 1) = true ∧ nextIs (exec .heartbeatTimer standby) (fun t => t.out.length ≥ 1) = true ∧
    gives .helloTimer standby standby = true ∧ gives .resendGapTimeout standby standby = true ∧
    nextIs (exec .resendGapTimeout { mirrorState 2 [] (fun g => { g with gapSince := some 0, ahead := [(7, 0x20, frameOf 3 7 [])] }) with time := ⟨50000 * 10000000000, 0⟩ })
      (fun t => t.out.length ≥ 1 && t.mirror.gapSince == some 50000) = true ∧
    gives .partnerLoss (mirrorState 1 [] id) (mirrorState 1 [] id) = true ∧
    nextIs (exec .partnerLoss (mirrorState 2 [] id)) (fun t => t.mirror.st == 3 && t.inflight.length == 1) = true ∧
    nextIs (exec .mirrorLeave (mirrorState 1 [] id)) (fun t => t.mirror.left && t.inflight == [.seqTableRequest purposeFullReset 0]) = true ∧
    nextIs (exec .mirrorLeaveExpiry { mirrorState 2 [] (fun g => { g with leaving := some 0 }) with time := ⟨1000000 * 10000000000, 0⟩ }) (fun t => t.mirror.left) = true := by
  decide +kernel
/-- Eight of the numbered frames, with a payload of a right length. -/
theorem test_frame_order : let numbered := fun epoch seq => ([.joinFrame (frameOf epoch seq (List.replicate 144 0)),
      .joinOkFrame (frameOf epoch seq []), .contrailDrop (frameOf epoch seq []), .stateFrame (frameOf epoch seq (List.replicate 512 0)),
      .linesFrame (frameOf epoch seq (List.replicate 72 0)), .outputFrame (frameOf epoch seq (List.replicate 17 0)),
      .endFrame (frameOf epoch seq (List.replicate 13 0)), .ackFrame (frameOf epoch seq [])] : List Instr)
    (numbered 3 1).all (fun i => gives i (mirrorState 3 [] id) (mirrorState 3 [] id)) = true ∧
    (numbered 3 0).all (fun i => nextIs (exec i standby) fun t => t.mirror.slots == standby.mirror.slots && t.mirror.expect == 1 && t.mirror.heard == [(0, 0)]) = true ∧
    (numbered 3 2).all (fun i => nextIs (exec i standby) fun t => t.mirror.ahead.length == 1 && t.mirror.gapSince == some 0) = true ∧
    nextIs (exec (.ackFrame (frameOf 3 1 [0])) standby) (fun t => t.mirror.viols.length == 1) = true ∧
    nextIs (exec (.ackFrame { frameOf 3 1 [] with gen := 2 }) standby) (fun t => t.mirror.viols.length == 1) = true ∧
    (numbered 3 1).all (fun i => nextIs (exec i (mirrorState 2 [] id)) fun t => t.mirror.expect == 2) = true := by decide +kernel
theorem test_plain_frames : nextIs (exec (.helloFrame (frameOf 0 0 (List.replicate 8 0))) (mirrorState 1 [] id)) (fun t => t.mirror.st == 2 && tfind? t.mirror.mac 0 == some 0x77) = true ∧
    nextIs (exec (.heartbeatFrame (frameOf 0 0 (List.replicate 8 0))) standby) (fun t => t.mirror.heard == [(0, 0)]) = true ∧
    nextIs (exec (.resendFrame (frameOf 0 0 (leBytes 8 4 ++ leBytes 8 4))) (mirrorState 2 [] fun g => { g with log := [(4, 0, 9, [1, 2])] })) (fun t => t.out.length == 1) = true ∧
    nextIs (exec (.resendFrame (frameOf 0 0 (leBytes 8 4 ++ leBytes 8 4))) standby) (fun t => t.out == []) = true ∧
    nextIs (exec (.contrailBreak (frameOf 0 0 [0])) (mirrorState 2 [] id)) (fun t => t.mirror.st == 3 && !t.mirror.byLoss) = true ∧
    lenOk 0x3F [0] = true ∧ lenOk 0x31 (List.replicate 16 0) = true ∧ lenOk 0x27 (List.replicate 8 0) = true ∧
    nextIs (exec (.contrailFrameInvalid (frameOf 0 0 []) true) standby) (fun t => t.mirror.pv.total == 1) = true := by decide +kernel
def joinPay : List Byte := [1, 0, 0, 0, 0, 0, 0, 0] ++ leBytes 8 0x200000 ++ List.replicate 128 0
def heldOne (st epoch : Nat) : Held := ⟨7, epoch, 1, 0, [1, 2, 3], st⟩
theorem test_standby_frames : nextIs (exec (.joinFrame (frameOf 0 1 joinPay)) standby) (fun t => (t.slot 0).catchUp && (t.slot 0).ended == 0 && t.out.length == 1) = true ∧
    nextIs (exec (.contrailDrop (frameOf 0 1 [])) standby) (fun t => (t.slot 0).st == .free) = true ∧
    nextIs (exec (.stateFrame (frameOf 3 1 (List.replicate 512 0))) standby) (fun t => (t.slot 0).nState == 1 && (t.slot 0).staged == 512) = true ∧
    nextIs (exec (.linesFrame (frameOf 3 1 (List.replicate 72 0))) standby) (fun t => (t.slot 0).nLines == 1) = true ∧
    nextIs (exec (.outputFrame (frameOf 3 1 (List.replicate 17 0))) standby) (fun t => (t.slot 0).nOut == 1 && (t.slot 0).held.length == 1) = true ∧
    nextIs (exec (.stateFrame (frameOf 4 1 (List.replicate 512 0))) standby) (fun t => t.mirror.viols.length == 1 && (t.slot 0).nState == 0) = true ∧
    nextIs (exec (.endFrame (frameOf 3 1 (List.replicate 13 0))) standby) (fun t => (t.slot 0).endAt.isSome || (t.slot 0).ended == 3) = true := by decide +kernel
theorem test_held_frames : lenOk 0x25 (leBytes 8 7 ++ [1]) = true ∧
    nextIs (exec (.intentFrame (frameOf 2 1 (leBytes 8 7 ++ [1]))) (mirrorState 2 [(0, { standbySlot with held := [heldOne 1 2] })] id))
      (fun t => (t.slot 0).held.all (·.st == 3) && t.out.length == 1) = true ∧
    nextIs (exec (.sentFrame (frameOf 2 1 (leBytes 8 7))) (mirrorState 2 [(0, { standbySlot with held := [heldOne 3 2] })] id)) (fun t => (t.slot 0).held == []) = true ∧
    nextIs (exec (.grantFrame (frameOf 2 1 (leBytes 8 7 ++ [1]))) (mirrorState 2 [(0, { activeSlot .guarded with held := [heldOne 2 2] })] id))
      (fun t => (t.slot 0).held.all (·.st == 3)) = true ∧
    nextIs (exec (.grantFrame (frameOf 2 1 (leBytes 8 7 ++ [1]))) (active .guarded)) (fun t => t.mirror.viols.length == 1) = true := by decide +kernel
theorem test_active_frames :
    nextIs (exec (.joinOkFrame (frameOf 0 1 [])) (mirrorState 2 [(0, activeSlot .unguarded)] fun g => { g with joining := some (0, 0, false) })) (fun t =>
      (t.slot 0).st == .syncing && (t.slot 0).epoch == 1 && t.mirror.joining.isNone && t.mirror.res.status == 2) = true ∧
    nextIs (exec (.joinOkFrame (frameOf 0 1 [])) (active .guarded)) (fun t => t.mirror.viols.length == 1) = true ∧
    lenOk 0x30 (List.replicate 16 0) = true ∧ nextIs (exec (.nakFrame (frameOf 0 1 (List.replicate 16 0))) (active .guarded)) (fun t => t.mirror.expect == 2) = true ∧
    nextIs (exec (.nakFrame (frameOf 0 1 (List.replicate 16 0))) (mirrorState 2 [(0, activeSlot .unguarded)] fun g => { g with joining := some (0, 0, false) })) (fun t =>
      t.mirror.joining.isNone && t.mirror.res.status == 3) = true ∧
    nextIs (exec (.contrailDrop (frameOf 0 1 [])) (active .halted)) (fun t => (t.slot 0).st == .halted) = true ∧
    nextIs (exec (.contrailDrop (frameOf 0 1 [])) (active .guarded)) (fun t => (t.slot 0).st == .unguarded) = true ∧
    nextIs (exec (.ackFrame (frameOf 3 1 [])) (active .guarded)) (fun t => t.mirror.viols.length == 1) = true ∧
    nextIs (exec (.ackFrame (frameOf 2 1 [])) (active .guarded)) (fun t => (t.slot 0).acked == 2 && t.mirror.viols == []) = true ∧
    nextIs (exec (.ackFrame (frameOf 2 1 [])) (mirrorState 2 [(0, { activeSlot .guarded with acked := 1, committed := 1 })] id)) (fun t => (t.slot 0).acked == 2) = true := by
  decide +kernel

/-! ### Epochs -/

def phased (p : Phase) : State := mirrorState 2 [(0, { activeSlot .guarded with phase := p })] id
theorem test_boundary : (active .guarded).mayBound 0 = true ∧ standby.mayBound 0 = false ∧ gives (.epochBoundaryStart 127) standby standby = true ∧
    gives (.epochBoundaryStart 0) (active .guarded) (active .guarded) = true ∧
    nextIs (exec (.epochBoundaryStart 0) { active .guarded with time := ⟨1000000 * 10000000000, 0⟩ }) (fun t => t.inflight.length == 16 && (t.slot 0).since == 1000000) = true ∧
    nextIs (exec (.routerPauseNotice 9) (phased (.pause [2048] 0))) (fun t => t.router.paused == [9]) = true ∧
    nextIs (exec (.pauseNoticeCore 0 9) { phased (.pause [0] 0) with cores := uState.cores }) (fun t => t.inflight == [.pausedNotice 0 9]) = true ∧
    nextIs (exec (.pauseNoticeEngine 0x17 9) { phased (.pause [1047] 0) with power := State.reset.power }) (fun t => t.inflight == [.pausedNotice 1047 9]) = true ∧
    gives (.routerPauseNotice 8) standby standby = true := by decide +kernel
theorem test_pause_core : nextIs (exec (.pauseNoticeCore 0 9) { phased (.pause [0] 0) with
      cores := [(0, { Core.initial with run := .running, sw := 0, sr := [(srTid, 9)] })] }) (fun t =>
    (t.core 0).run == .paused && (t.slot 0).records.length == 1) = true := by decide +kernel
theorem test_boundary_records : nextIs (exec (.pausedNotice 575 9) (phased (.pause [575, 3] 0))) (fun t => (t.slot 0).phase == .pause [3] 0) = true ∧
    nextIs (exec (.pausedNotice 1032 9) (phased (.pause [1032] 0))) (fun t => (t.slot 0).phase == .record 0 && t.inflight == [.routerRecordRequest 9]) = true ∧
    nextIs (exec (.pausedNotice 2048 9) (phased (.record 0))) (fun t => (t.slot 0).phase == .seal [0] && t.inflight == [.sealNotice 0 9]) = true ∧
    nextIs (exec (.routerRecordRequest 9) (phased (.record 0))) (fun t => (t.slot 0).records.length == 1) = true ∧ (phased (.record 0)).pitEn = false ∧
    nextIs (exec (.sealNotice 0 9) (phased (.seal [0]))) (fun t => t.inflight == [.sealedNotice 0 9]) = true ∧
    gives (.sealNotice 3 9) (phased (.seal [0])) (phased (.seal [0])) = true ∧
    nextIs (exec (.sealedNotice 0 9) (phased (.seal [0, 1]))) (fun t => (t.slot 0).phase == .seal [1]) = true ∧
    nextIs (exec (.sealedNotice 0 9) (phased (.seal [0]))) (fun t => (t.slot 0).phase != .seal [0]) = true := by decide +kernel
theorem test_boundary_abandon : gives (.boundaryAbandon 0) (active .guarded) (active .guarded) = true ∧
    nextIs (exec (.boundaryAbandon 0) { phased (.pause [3] 0) with time := ⟨1000000 * 10000000000, 0⟩ }) (fun t => (t.slot 0).phase == .retry 1100000) = true ∧
    gives (.boundaryRetry 0) (phased (.retry 5)) (phased (.retry 5)) = true ∧
    nextIs (exec (.boundaryRetry 0) (phased (.retry 0))) (fun t => t.inflight.length == 16) = true := by decide +kernel
def capturing : State := mirrorState 2 [(0, { activeSlot .guarded with full := true, capture := some (3, 0, 0) })] id
/-- The first line of the range is being read. -/
def captured : State := readingState capturing mirrorNode (.capture 0 3 0 0) 0x200000 64
def rangeLine : Nat := 0x200000 / 64
theorem test_capture : gives (.captureRead 127) standby standby = true ∧ gives (.epochApply 0) standby standby = true ∧
    capturing.logRoom 16384 = true ∧ capturing.capturing 0 = false ∧
    nextIs (exec (.captureRead 0) capturing) (fun t => t.readers.length == 1 && t.inflight.length == 1 && (t.slot 0).batch == []) = true ∧
    gives (.captureRead 0) captured captured = true ∧
    nextIs (exec (lineCome mirrorNode rangeLine 0) captured) (fun t =>
      (t.slot 0).capture == some (3, 0, 1) && (t.slot 0).batch.length == 1 && t.readers == []) = true ∧
    nextIs (exec (lineBad mirrorNode rangeLine) captured) (fun t => (t.slot 0).st == .halted) = true ∧
    nextIs (exec (lineCome mirrorNode rangeLine 0) (captured.setSlot 0 { captured.slot 0 with capture := none })) (fun t =>
      (t.slot 0).batch == []) = true := by decide +kernel
/-- A standby with one whole epoch: of no lines, or of one. -/
def wholeEpoch (st : List (Nat × Nat × List Byte)) : State := mirrorState 2 [(0, { standbySlot with ended := 3, stage := st })] id
theorem test_apply : nextIs (exec (.epochApply 0) (wholeEpoch [])) (fun t => (t.slot 0).applied == 3) = true ∧
    ((wholeEpoch [(3, 0x21, leBytes 8 0 ++ List.replicate 64 7)]).slot 0).applyWrites 3 ≠ [] ∧
    nextIs (exec (.epochApply 0) (wholeEpoch [(3, 0x21, leBytes 8 0 ++ List.replicate 64 7)])) (fun t =>
      (t.slot 0).applied == 2 && t.writers.length == 1) = true := by decide +kernel
theorem test_router_record_read : (let s := phased (.record 0); { s with router := { s.router with pitBase := 0x200001 } } : State).pitEn = true ∧
    nextIs (exec (.routerRecordRequest 9) (let s := phased (.record 0); { s with router := { s.router with pitBase := 0x200001 } })) (fun t =>
      t.readers.length == 1 && (t.slot 0).records == []) = true := by decide +kernel
/-! ### The Sequencer -/

/-- The package with one row of ACTION, wait, unit, class and die, operand bytes and limit at the head of its only table; the
Sequencer stands at it. -/
def rowState (waiting : Bool) (outcome : Nat) (action wait unit die : Byte) (more : List (Nat × Byte)) : State :=
  { baseState with seq := { baseState.seq with
      active := some { testImage with
        bytes := testImage.bytes.take 19 ++ [(0x710, action), (0x711, wait), (0x714, unit), (0x715, die)] ++ more ++ [(0x750, 0x14)] },
      run := some ⟨⟨0x10, 0, 0⟩, [⟨0, 0, 0⟩], [], 0, false, waiting, 0, outcome, none, none, 0, 0⟩ } }
def runOf (s : State) : SeqRun := s.seq.run.getD ⟨⟨0, 0, 0⟩, [], [], 0, false, false, 0, 0, none, none, 0, 0⟩
def stands (s : State) (action wait : Nat) : Bool :=
  s.seq.writes.isEmpty && match s.curRow, s.seq.run with
    | some c, some r => !r.waiting && c.row.action == action && c.row.wait == wait && r.unwinding.isNone && s.rowTarget c != .bad
    | _, _ => false
/-- The row waits with this outcome. -/
def waitsWith (o : Out) (n : Nat) : Bool := nextIs o fun t => (runOf t).waiting && (runOf t).outcome == n
/-- The row is over: the Sequencer stands at the next one. -/
def rowOver (o : Out) : Bool := nextIs o fun t => !(runOf t).waiting && (runOf t).rows == 1
theorem witness_rows : ([0, 1, 2, 3, 4, 5, 6, 7, 8, 9, 0xA, 0xB, 0xE, 0x11, 0x12, 0x13] : List Byte).all (fun a => stands (rowState false 0 a 3 9 0 []) a.toNat 3) = true ∧
    stands (rowState false 0 0xF 3 0 0x30 []) 0xF 3 = true ∧ stands (rowState false 0 0xC 5 0x00 0x00 [(0x718, 21)]) 0xC 5 = true := by decide +kernel
theorem test_rows_start : ([.rowNop, .signal, .powerOn, .drain, .rowFence, .rowCall, .skipIf, .rowEnd, .rowWaitMet, .rowWaitFailed] : List Instr).all
      (fun i => gives i baseState baseState) = true ∧
    gives .powerOn (rowState false 0 4 3 9 0 []) (rowState false 0 4 3 9 0 []) = true ∧
    rowOver (exec .rowNop (rowState false 0 0 0 9 0 [])) = true ∧ waitsWith (exec .signal (rowState false 0 0x11 3 9 0 [])) 1 = true ∧
    rowOver (exec .rowNop (rowState false 0 0 3 0 0x13 [])) = true ∧
    nextIs (exec .rowNop (rowState false 0 0 3 0 0x70 [])) (fun t => (runOf t).failure != 0 || t.seq.run.isNone) = true ∧
    nextIs (exec .rowNop { rowState false 0 0 3 9 0 [] with fenced := [697] }) (fun t => (runOf t).failure != 0 || t.seq.run.isNone) = true := by
  decide +kernel
def rowAt (action : Byte) (x : Dom) : State :=
  let s := rowState false 0 action 3 9 0 []
  { s with power := { s.power with doms := tput s.power.doms 697 x } }
theorem test_domain_rows : (rowAt 3 runDom).targetDomains 0 0 9 = [697] ∧
    ([(3, .powerOn, { runDom with st := .off }, .run, 0), (3, .powerOn, runDom, .run, 0), (3, .powerOn, { runDom with st := .closing }, .closing, 0),
      (3, .powerOn, { runDom with st := .retained }, .waking, 0), (4, .powerOff, { runDom with st := .off }, .off, 0), (4, .powerOff, runDom, .closing, 0),
      (4, .powerOff, { runDom with st := .waking }, .waking, 0), (5, .retain, { runDom with st := .off }, .off, 2), (5, .retain, runDom, .closing, 0),
      (6, .restore, { runDom with st := .retained }, .waking, 0), (6, .restore, { runDom with stopped := true }, .run, 0),
      (7, .resetAssert, runDom, .run, 0), (8, .rowResetRelease, { runDom with inReset := true }, .run, 0), (8, .rowResetRelease, runDom, .run, 0),
      (9, .drain, runDom, .run, 0)] : List (Byte × Instr × Dom × DomSt × Nat)).all (fun p =>
        nextIs (exec p.2.1 (rowAt p.1 p.2.2.1)) fun t => (t.dom 697).st == p.2.2.2.1 && (runOf t).waiting && (runOf t).outcome == p.2.2.2.2) = true := by
  decide +kernel
theorem test_other_rows : waitsWith (exec .rowWriteReg (rowState false 0 1 1 9 0 [(0x718, 9)])) 2 = true ∧
    waitsWith (exec .loadSection (rowState false 0 2 1 9 0 [(0x718, 11)])) 1 = true ∧
    waitsWith (exec .rowFence (rowState false 0 0xA 1 9 0 [])) 0 = true ∧
    nextIs (exec .rowFence (rowState false 0 0xA 1 9 0 [])) (fun t => t.fenced == [697]) = true ∧
    waitsWith (exec .unfence { rowState false 0 0xB 1 9 0 [] with fenced := [697] }) 1 = true ∧
    waitsWith (exec .avsSet (rowState false 0 0xC 5 0 0 [(0x718, 21)])) 0 = true ∧
    waitsWith (exec (.linkTrain 0) (rowState false 0 0xD 6 0x17 0 [])) 1 = true ∧ waitsWith (exec (.linkTrain 1) (rowState false 0 0xD 6 0x17 0 [])) 2 = true ∧
    waitsWith (exec (.linkTrain 0) (rowState false 0 0xD 3 15 0 [])) 1 = true ∧
    waitsWith (exec (.bist true) (rowState false 0 0xE 7 9 0 [])) 1 = true ∧ waitsWith (exec (.bist false) (rowState false 0 0xE 7 9 0 [])) 2 = true ∧
    waitsWith (exec .selfRefreshEnter (rowState false 0 0xF 1 0 0x30 [])) 1 = true ∧ waitsWith (exec .selfRefreshExit (rowState false 0 0x10 1 0 0x30 [])) 1 = true := by
  decide +kernel
/-- The domain of a disabled port stays off (R353); a door starts no wake in Hold (R416). -/
theorem test_disabled_port : baseState.portOff 703 = true ∧ baseState.portOff 697 = false ∧ (baseState.dom 703).st = .off ∧
    gives (.domReqRun 703) baseState (baseState.violate powerBlock) = true ∧
    nextIs (exec .powerOn (rowState false 0 3 3 15 0 [])) (fun t => (t.dom 703).st == .off && (runOf t).waiting) = true ∧
    (((baseState.setDom 1 { runDom with st := .retained }).doorWake 1).dom 1).st = .waking ∧
    ((({ baseState with power := { baseState.power with pkg := 2 } }.setDom 1 { runDom with st := .retained }).doorWake 1).dom 1).st = .retained := by
  decide +kernel
theorem test_row_control : nextIs (exec .rowCall (rowState false 0 0x12 0 9 0 [(0x718, 0x10), (0x719, 7)])) (fun t => (runOf t).stack.length == 2) = true ∧
    rowOver (exec .skipIf (rowState false 0 0x13 0 0 0x13 [])) = true ∧
    nextIs (exec .rowEnd (rowState false 0 0x14 0 0 0 [])) (fun t => t.seq.run.isNone) = true ∧
    gives .rowNop (rowState true 0 0 4 9 0 []) (rowState true 0 0 4 9 0 []) = true ∧
    gives .rowWaitFailed (rowState true 0 0 4 9 0 []) (rowState true 0 0 4 9 0 []) = true ∧
    gives .rowWaitMet (rowState true 0 0 4 9 0 [(0x72C, 5)]) (rowState true 0 0 4 9 0 [(0x72C, 5)]) = true ∧
    rowOver (exec .rowWaitMet (rowState true 0 0 4 9 0 [])) = true ∧
    gives .rowWaitFailed (rowState true 0 0 3 9 0 [(0x72C, 5)]) (rowState true 0 0 3 9 0 [(0x72C, 5)]) = true ∧
    rowOver (exec .rowWaitMet (rowState true 1 0xE 7 9 0 [])) = true ∧
    gives .rowWaitFailed (rowState true 1 0xE 7 9 0 []) (rowState true 1 0xE 7 9 0 []) = true ∧
    gives .rowWaitMet (rowState true 2 0xE 7 9 0 []) (rowState true 2 0xE 7 9 0 []) = true := by decide +kernel
theorem test_table_request : nextIs (exec (.seqTableRequest 0x10 7) (rowState false 0 0 3 9 0 [])) (fun t => t.seq.queue == [⟨0x10, 7, 0⟩]) = true ∧
    nextIs (exec (.seqTableRequest 0x10 7) { baseState with inflight := [.seqTableRequest 0x10 7], seq := { baseState.seq with queue := [⟨0x10, 7, 1⟩] } }) (fun t =>
      t.seq.run.isSome && t.seq.queue == [] && t.seq.res.status == 1) = true := by decide +kernel

/-- The row at port 1 whose register is read, with its domain in a state. -/
def skipState (x : Dom) (more : List (Nat × Byte)) : State :=
  let s := rowState false 0 0x13 2 9 0 more
  { s with power := { s.power with doms := tput s.power.doms 697 x } }
def rowFailed (o : Out) : Bool := nextIs o fun t => (runOf t).failure != 0 || t.seq.run.isNone
theorem test_skip_if : rowOver (exec .skipIf (skipState runDom [])) = true ∧
    nextIs (exec .skipIf (skipState runDom [(0x729, 1), (0x718, 1)])) (fun t => ((runOf t).stack.map (·.row)) == [2]) = true ∧
    waitsWith (exec .skipIf (skipState { runDom with st := .waking } [])) 0 = true ∧
    rowFailed (exec .skipIf (skipState { runDom with st := .off } [])) = true ∧
    rowFailed (exec .skipIf { skipState runDom [] with fenced := [697] }) = true := by decide +kernel
/-- Actions at a domain that is at work wait behind it; one that trains nothing fails a LINK_UP wait. -/
theorem test_rows_in_turn : ([(3, .powerOn), (4, .powerOff), (5, .retain), (6, .restore), (7, .resetAssert), (8, .rowResetRelease), (9, .drain)] :
      List (Byte × Instr)).all (fun p => nextIs (exec p.2 (rowAt p.1 { runDom with st := .closing })) fun t => (t.dom 697).todo == [p.1.toNat]) = true ∧
    baseState.portRole 0 ≠ 0 ∧ waitsWith (exec (.linkTrain 0) (rowState false 0 0xD 6 8 0 [])) 2 = true ∧
    waitsWith (exec (.linkTrain 1) (rowState false 0 0xD 6 8 0 [])) 1 = true ∧
    (let s := rowState false 0 0xD 6 8 0 []
     waitsWith (exec (.linkTrain 1) { s with board := { s.board with clocks := [1] } }) 0) = true := by decide +kernel
/-! ### Brixmen -/

def askState (op : Nat) (pay : List Byte) (f : Seq → Seq) : State :=
  { baseState with mgmt := { baseState.mgmt with accepted := [⟨op, 0, 0, pay, 1, 2, none⟩] }, seq := f baseState.seq }
def answered (o : Out) : Bool := nextIs o fun t => t.out.length == 1 && t.mgmt.accepted == []
/-- The command ended with a result of this status. -/
def ended (o : Out) (status : BitVec 4) : Bool := nextIs o fun t => t.mgmt.res.status == status && t.mgmt.accepted == []
theorem test_queries : ([.getResult, .getStatus, .readReg, .readPlog, .getAttestKey, .imageStart, .runTable, .setNet] : List Instr).all
      (fun i => gives i baseState baseState) = true ∧
    answered (exec .getResult (askState 1 [] id)) = true ∧ answered (exec .getStatus (askState 2 [] id)) = true ∧
    answered (exec .readReg (askState 3 (leBytes 8 1) id)) = true ∧ answered (exec .readReg (askState 3 (leBytes 8 0xF000000000000) id)) = true ∧
    answered (exec .readPlog (askState 4 [255, 1, 0, 0, 0, 0, 0, 0] id)) = true ∧ answered (exec .getAttestKey (askState 5 [] id)) = true := by decide +kernel
/-- READ_REG of memory, and the line that answers it. -/
def stewardRead : State := readingState baseState stewardNode (.steward ⟨3, 0, 0, leBytes 8 64, 1, 2, none⟩) 64 8
theorem test_read_reg : nextIs (exec .readReg (askState 3 (leBytes 8 64) id)) (fun t => t.out == [] && t.mgmt.accepted == [] && t.readers.length == 1) = true ∧
    nextIs (exec (lineCome stewardNode 1 0) stewardRead) (fun t => t.out.length == 1 && t.readers == []) = true := by decide +kernel
theorem test_image_commands : ended (exec .imageStart (askState 0x101 [] id)) 2 = true ∧ ended (exec .imageData (askState 0x102 (List.replicate 9 0) id)) 3 = true ∧
    nextIs (exec .imageData (askState 0x102 (leBytes 8 4194303 ++ [7]) fun q => { q with open_ := true })) (fun t => t.mgmt.res.value == 1 && t.mgmt.res.status == 2) = true ∧
    ended (exec .imageData (askState 0x102 (leBytes 8 4194304 ++ [7]) fun q => { q with open_ := true })) 3 = true ∧
    ended (exec .imageStart (askState 0x101 (List.replicate 1033 0) id)) 3 = true ∧
    ended (exec .imageCommit (askState 0x103 (List.replicate 8 0) id)) 3 = true ∧
    ended (exec .imageCommit (askState 0x103 (List.replicate 8 0) fun q => { q with open_ := true })) 3 = true ∧
    nextIs (exec .provisionKey (askState 0x108 (List.replicate 48 1) id)) (fun t => t.seq.operator.isSome && t.mgmt.res.status == 2) = true ∧
    ended (exec .provisionKey (askState 0x108 (List.replicate 48 1) fun q => { q with operator := some 1 })) 3 = true ∧
    nextIs (exec .raiseFloor (askState 0x109 [5, 0, 0, 0, 0, 0, 0, 0] id)) (fun t => t.seq.floor == 5) = true ∧
    ended (exec .raiseFloor (askState 0x109 [4, 0, 0, 0, 0, 0, 0, 0] fun q => { q with floor := 5 })) 3 = true := by decide +kernel
def noImageAsk (op : Nat) (pay : List Byte) : State := askState op pay fun q => { q with active := none }
theorem test_package_commands : ended (exec .runTable (noImageAsk 0x104 [0x10, 0, 0, 0, 0, 0, 0, 0])) 3 = true ∧ ended (exec .runTable (askState 0x104 [0x40, 0, 0, 0, 0, 0, 0, 0] id)) 3 = true ∧
    nextIs (exec .runTable (askState 0x104 [0x10, 0, 3, 0, 0, 0, 0, 0] id)) (fun t => t.seq.queue == [⟨0x10, 3, 2⟩] && t.inflight == [.seqTableRequest 0x10 3]) = true ∧
    ended (exec .setPkgState (noImageAsk 0x105 [2, 0, 0, 0, 0, 0, 0, 0])) 3 = true ∧ ended (exec .setPkgState (askState 0x105 [1, 0, 0, 0, 0, 0, 0, 0] id)) 3 = true ∧
    nextIs (exec .setPkgState (askState 0x105 [2, 0, 0, 0, 0, 0, 0, 0] id)) (fun t => t.mgmt.accepted == [] && t.mgmt.res.status != 3) = true ∧
    ended (exec .resetFull (noImageAsk 0x106 [1, 0, 0, 0, 0, 0, 0, 0])) 3 = true ∧
    nextIs (exec .resetFull (askState 0x106 [1, 0, 0, 0, 0, 0, 0, 0] id)) (fun t => t.inflight == [.fullReset 2]) = true ∧
    ended (exec .resetComputeDie (askState 0x106 [2, 0, 11, 0, 0, 0, 0, 0] id)) 3 = true ∧
    nextIs (exec .resetCore (askState 0x106 [3, 0, 0, 0, 0, 0, 0, 0] id)) (fun t => t.mgmt.accepted == [] && t.mgmt.res.status != 3) = true ∧
    nextIs (exec .resetCold (askState 0x106 [4, 0, 0, 0, 0, 0, 0, 0] id)) (fun t => t.board.cold && t.cores == []) = true ∧
    ended (exec .writeReg (noImageAsk 0x107 (List.replicate 16 0))) 3 = true ∧ ended (exec .writeReg (askState 0x107 (leBytes 8 4 ++ leBytes 8 0) id)) 3 = true ∧
    nextIs (exec .writeReg (askState 0x107 (leBytes 8 64 ++ leBytes 8 7) id)) (fun t => t.writers.length == 1) = true ∧
    nextIs (exec .writeReg (askState 0x107 (leBytes 8 0xF000000000008 ++ leBytes 8 0x8000000000000000) id)) (fun t => t.mgmt.accepted == []) = true := by decide +kernel
theorem test_board_commands : nextIs (exec .setPairing (askState 0x10A [4, 0, 5, 0, 1, 0, 0, 0] id)) (fun t => t.mirror.st == 1 && t.mirror.did == 4 && t.mirror.partner == 5) = true ∧
    ended (exec .setPairing (askState 0x10A [4, 0, 4, 0, 1, 0, 0, 0] id)) 3 = true ∧ ended (exec .setPairing (askState 0x10A [0, 0x10, 4, 0, 1, 0, 0, 0] id)) 3 = true ∧
    nextIs (exec .setPairing (askState 0x10A [0, 0, 0, 0, 0, 0, 1, 0] id)) (fun t => t.mirror.st == 0) = true ∧
    nextIs (exec .plogAck { askState 0x10B (List.replicate 31 0 ++ [0x80] ++ List.replicate 8 0) id with fc := { baseState.fc with plog := [(255, ⟨0, 0, false⟩)] } })
      (fun t => t.fc.plog == [(255, ⟨0, 0, true⟩)] && t.mgmt.res.value == 1) = true ∧
    nextIs (exec .plogAck { askState 0x10B (List.replicate 32 0 ++ [1] ++ List.replicate 7 0) id with fc := { baseState.fc with plog := [(255, ⟨0, 0, true⟩)] } })
      (fun t => t.fc.plog == []) = true ∧
    nextIs (exec .setMkey (askState 0x10C (List.replicate 48 0) id)) (fun t => t.mgmt.key.isSome) = true ∧
    nextIs (exec .subscribe (askState 0x10D [1, 0, 0, 10, 9, 0, 0, 0] id)) (fun t => t.mgmt.dest == (0x0A000001, 9)) = true ∧
    nextIs (exec .setNet (askState 0x10E [1, 0, 0, 10, 30, 0, 0, 0] id)) (fun t => t.mgmt.ip == 0x0A000001 && t.mgmt.plen == 30) = true ∧
    ended (exec .setNet (askState 0x10E [1, 0, 0, 10, 7, 0, 0, 0] id)) 3 = true := by decide +kernel

/-- A register behind a port's door that is waking answers RETRY: the command waits, and since when is kept. -/
theorem test_register_retry : let waking (s : State) : State := { s with power := { s.power with doms := tput s.power.doms 697 { runDom with st := .waking } } }
    ([(.readReg, waking (askState 3 (leBytes 8 0xF000001100000) id)),
      (.writeReg, waking (askState 0x107 (leBytes 8 0xF000001100000 ++ leBytes 8 0) id))] : List (Instr × State)).all (fun p =>
        nextIs (exec p.1 p.2) fun t => t.out == [] && (t.mgmt.accepted.map (·.since.isSome)) == [true]) = true := by decide +kernel
/-! ### Results, windows, the queue, well-formedness -/

theorem test_result_numbers : ({ Chan.none with count := 0xFFFFFFE } : Chan).accept.count = 0xFFFFFFF ∧ ({ Chan.none with count := 0xFFFFFFF } : Chan).accept.count = 1 ∧
    Chan.none.accept.count = 1 := by decide
theorem test_windows_end : (((coreState fun c => { c with win := [⟨0x70, 0, 31⟩] }).enterExc 0 2 false 0x22 { code := 9 }).core 0).win = [] := by decide +kernel
theorem test_step_front : step { hState with pending := [.add 0 3 1 2, .tbSlew 0] } = exec (.add 0 3 1 2) { hState with pending := [.tbSlew 0] } := rfl
theorem test_reset_idle : nextIs (step State.reset) (fun t => decide (t = { State.reset with time := ⟨64000000000, 0⟩ })) = true := by decide +kernel
theorem test_no_table_bits : decodeTableWord 32 0x21000000 = none ∧ State.reset.withFetchWord 32 5 = State.reset := ⟨rfl, rfl⟩
theorem test_reset_values : State.reset.now = 0 ∧ (State.reset.core 575).run = .off ∧ (State.reset.core 0).reg 0x15 = 0xFFFFFFFFFFFF := by decide +kernel
/-- One ill-formed command for each check of WellFormed, at the first value it refuses. -/
theorem test_ill_formed : ([.add 576 0 0 0, .upg ⟨0, 257, 0, 0, 0⟩ 0, .upg ⟨0x3EF, 0, 0, 0, 0⟩ 0, .upg req0 (2 ^ 46), .atom req0 (2 ^ 52) add1, .initiatorTimeout 0x3EF 0 none,
    .initiatorTimeout 0 256 none, .scrubStep 12, .clrErr 384 0, .sealNotice 4 0, .dieBudgetReport 0 1 0 [], .dieBudgetReport 1 4 0 [], .dieBudgetReport 2 0 0 [],
    .dieBudgetReport 3 12 0 [], .cacheSectionArrival true 12, .cacheSectionArrival false 4, .flitHop 17 0 [] true, .ringIdleDue 5 0, .ringIdleDue 0 5,
    .ringFrameReceive 0 1 1024 0#768, .epochApply 128, .qpCreate 2 0, .compressorBlock 4, .frameReceive 8 0 true [], .frameReceive 0 2 true [], .heldFrameCopy 65536,
    .avsRequestFail 4, .sliceRemapWrite 0 4 0] : List Instr).all illFormed = true := by decide +kernel
theorem test_ill_formed_more : ([.referenceClockLost 4, .guestBucketReady 16, .remapWrite 0 16 0, .unitDrained 717, .cutHold 712 0, .blockNotice 7 0,
    .blockNotice 0x18 0, .pauseNoticeEngine 0x18 0, .pausedNotice 576 0, .pausedNotice 2049 0, .pausedNotice 1031 0, .pvClear 10 0, .statClear 576 0, .statClear 1057 0,
    .fenceComplete 712, .fenceComplete 1431, .seqTableRequest 0 0, .seqTableRequest 0x40 0, .violationClear (2 ^ 52) 0, .registerWrite 0x3EF 0 0 true 0,
    .guestWindowAccess ⟨0x3EF, 0, 0, 0, 0⟩ 0 .rd, .thermalTrip 4 0, .flipArm true 384 0, .flipArm false 12 0, .tlbiBroadcastTake 0 576, .acki 576 0] : List Instr).all
      illFormed = true := by decide +kernel

/-! ### Words of Gliwin instructions, written out from their tables -/

/-- One word of each format and major opcode. -/
theorem test_words_formats : (decodeGliwin 0 0b00000100011000010001000000000011#32, decodeGliwin 0 0b00001000010001000011000000000001#32,
    decodeGliwin 0 0b00001100011000010001000000000111#32, decodeGliwin 0 0b00010000100000001000001100000001#32,
    decodeGliwin 0 0b00010100001000100001100010110010#32) =
    (some (.div 0 3 1 2), some (.aesel 0 2 4 6), some (.fma 0 3 1 2), some (.vsub 0 3 4 0 16), some (.acas 0 1 1 true 1 2 3)) := by decide
theorem test_words_immediate : (decodeGliwin 0 0b00100000111111111111111111111111#32, decodeGliwin 0 0b00100110000000000000000000000001#32,
    decodeGliwin 0 0b00101001000000000000000000000010#32, decodeGliwin 0 0b00101100000000000000000001010100#32, decodeGliwin 0 0b00110010000000000000000000000000#32) =
    (some (.li 0 0xFFFFFF), some (.liy 0 1), some (.ori 0 2), some (.mov 0 0x54), some (.calla 0 0)) := by decide
theorem test_words_memory : (decodeGliwin 0 0b01111111110000000000000000000001#32, decodeGliwin 0 0b01001010011111111111111111111111#32,
    decodeGliwin 0 0b11001011111111111111111111111111#32, decodeGliwin 0 0b11111101010000000000010000000000#32) =
    (some (.vst 0 3 3 1), some (.st 0 2 1 0x3FFFFF), some (.call 0 0x3FFFFFF), some (.cwb 0 0x400)) := by decide
/-- Reserved opcodes and functions spell nothing. -/
theorem test_words_reserved : ([0x18000000, 0x34000000, 0x80000000, 0xCC000000, 0xFFFF0000, 0x00000000, 0x000007FF, 0x10000011, 0x2F000000] : List (BitVec 32)).all
    (fun w => (decodeGliwin 0 w).isNone) = true := by decide
theorem test_illegal_words : fetchOk (coreState id) = true ∧ decodeGliwin 0 0x2E000001#32 = none ∧
    ([0x00000000, 0xFFFFFFFF, 0x2E000001] : List (BitVec 32)).all (fun w => nextIs (execWord 0 w (coreState fun c => { c with sw := 2 })) fun t =>
      fld ((t.core 0).reg 0xE) 0 10 == 0x01) = true := by decide +kernel
/-! ### A longer one -/

/-- A slot of one full line of ZEROS tokens. -/
def zeroSlot : List Byte := leBytes 2 8 ++ [1, 0] ++ List.replicate 8 0xBF ++ toBytes (crcFrame (List.replicate 4096 0)) 4 ++ List.replicate 1008 0
theorem test_restore_block : (decodeSlot zeroSlot).isSome = true := by decide +kernel

end Sys2Proof.Machine
end

section
/-! SUPPORT. The proofs of the statements about time and the governor (R328, R408, R429, R430, R432): what each step of an
interval leaves as it is, and what the writes of the time base and of POWER_CEIL do. -/

namespace Sys2Proof.Machine

/-! ### R8's count of reserved bits -/

/-- A write counts one violation or none. -/
theorem State.reserved_cases (s : State) (blk : Nat) (used v : Word) :
    s.reserved blk used v = s ∨ s.reserved blk used v = s.violate blk := by
  unfold State.reserved
  split
  · exact .inr rfl
  · exact .inl rfl

@[simp] theorem State.reserved_time (s : State) (blk : Nat) (used v : Word) : (s.reserved blk used v).time = s.time := by
  rcases s.reserved_cases blk used v with h | h <;> simp [h]
@[simp] theorem State.reserved_power (s : State) (blk : Nat) (used v : Word) : (s.reserved blk used v).power = s.power := by
  rcases s.reserved_cases blk used v with h | h <;> simp [h]
@[simp] theorem State.reserved_seq (s : State) (blk : Nat) (used v : Word) : (s.reserved blk used v).seq = s.seq := by
  rcases s.reserved_cases blk used v with h | h <;> simp [h]

@[simp] theorem State.reserved_now (s : State) (blk : Nat) (used v : Word) : (s.reserved blk used v).now = s.now := by
  simp [State.now]

/-- Fields of the image are those of the active image, which a count does not touch. -/
@[simp] theorem State.reserved_img (s : State) (blk : Nat) (used v : Word) (ty o n d : Nat) :
    (s.reserved blk used v).img ty o n d = s.img ty o n d := by
  simp [State.img]

/-! ### The time base (R432) -/

/-- While the reference stands the oscillator adds no error of its own and no free value is drawn. -/
theorem State.advance_of_reference (s : State) (n : Nat) (h : s.board.clocks.contains 0 = false) :
    s.advance n = { s with
      time := { s.time with sub := s.time.sub + 64 * n * (1000000000 + s.time.slew.toInt).toNat } } := by
  simp only [State.advance, State.oscillator, h, Bool.false_eq_true, if_false, Int.add_zero]

theorem State.stepTime_now (s : State) (v : Word) : (s.stepTime v).now = s.now + fld v 0 32 := by
  simp [State.stepTime, State.now, Nat.add_mul_div_right]

/-- The clamp of TB_SLEW fits the 32-bit field, so the field reads back what was clamped. -/
theorem State.slewTime_slew_toInt (s : State) (v : Word) :
    (s.slewTime v).time.slew.toInt = max (-200000) (min 200000 (v.setWidth 32).toInt) := by
  have low : v.extractLsb' 0 32 = v.setWidth 32 := by ext i; simp
  simp only [State.slewTime, low, BitVec.toInt_ofInt]
  exact Int.bmod_eq_of_le (by omega) (by omega)

theorem timeBase : Claims.TimeBase := by
  intro n v s
  refine ⟨fun h => ?_, ⟨_, rfl, ?_, rfl, ?_⟩, ⟨_, rfl, ?_, ?_⟩⟩
  · exact congrArg Host.Outcome.next (s.advance_of_reference n h)
  · rw [State.stepTime_now, State.reserved_now]
  · simp [State.stepTime]
  · simp [State.slewTime]
  · exact State.slewTime_slew_toInt _ v

/-! ### Steps that a fold repeats -/

/-- What every step keeps, a fold of the steps keeps. -/
theorem foldl_related {α : Type} {R : State → State → Prop} (refl : ∀ s, R s s) (trans : ∀ {s t u}, R s t → R t u → R s u)
    {f : State → α → State} (h : ∀ s a, R s (f s a)) (l : List α) (s : State) : R s (l.foldl f s) :=
  l.foldlRecOn f (refl s) fun t ht a _ => trans ht (h t a)

/-- Only the power block differs. -/
def PowerOnly (s t : State) : Prop := t = { s with power := t.power }

theorem PowerOnly.refl (s : State) : PowerOnly s s := rfl
theorem PowerOnly.trans {s t u : State} (h : PowerOnly s t) (k : PowerOnly t u) : PowerOnly s u := by
  unfold PowerOnly at *
  rw [k, h]

/-- Only the QoS block differs, and its count of intervals does not. -/
structure QosOnly (s t : State) : Prop where
  rest : t = { s with qos := t.qos }
  intervals : t.qos.intervals = s.qos.intervals

theorem QosOnly.refl (s : State) : QosOnly s s := ⟨rfl, rfl⟩
theorem QosOnly.trans {s t u : State} (h : QosOnly s t) (k : QosOnly t u) : QosOnly s u := by
  refine ⟨?_, k.intervals.trans h.intervals⟩
  rw [k.rest, h.rest]

/-- What every part of an interval leaves but the reading of the currents and the QoS adjustment. -/
structure GovernorFrame (s t : State) : Prop where
  qos : t.qos = s.qos
  hier : t.hier = s.hier
  cores : t.cores = s.cores
  fenced : t.fenced = s.fenced
  now : t.power.now = s.power.now

theorem GovernorFrame.refl (s : State) : GovernorFrame s s := ⟨rfl, rfl, rfl, rfl, rfl⟩
theorem GovernorFrame.trans {s t u : State} (h : GovernorFrame s t) (k : GovernorFrame t u) : GovernorFrame s u :=
  ⟨k.qos.trans h.qos, k.hier.trans h.hier, k.cores.trans h.cores, k.fenced.trans h.fenced, k.now.trans h.now⟩

theorem GovernorFrame.ite {s t u : State} {p : Prop} [Decidable p] (h : GovernorFrame s t) (k : GovernorFrame s u) :
    GovernorFrame s (if p then t else u) := by
  split
  · exact h
  · exact k

/-! ### The governor (R328, R408, R429, R430) -/

theorem readPower_powerOnly (s : State) (ma : List Nat) : PowerOnly s (s.readPower ma) := by
  have rails := foldl_related PowerOnly.refl PowerOnly.trans
    (f := fun s r => s.setRail r { s.rail r with milliamps := ma.getD r 0 }) (fun _ _ => rfl) (List.range 24) s
  unfold State.readPower
  exact rails.trans rfl

/-- R328 over every class of every base die, and the interval's counters that begin again. -/
theorem governQos_eq (s : State) : ∃ x : Qos, s.governQos = { s with qos := x } ∧
    x.intervals = s.qos.intervals + 1 ∧ x.used = [] ∧ x.starved = [] ∧ x.declined = [] ∧ x.occ = [] := by
  have classes (s : State) (d : Nat) :
      QosOnly s ((List.range 8).reverse.foldl (fun s q => s.governClass d q) s) :=
    foldl_related QosOnly.refl QosOnly.trans (f := fun s q => s.governClass d q) (fun _ _ => ⟨rfl, rfl⟩) _ s
  have dies : QosOnly s (if s.qos.run then
      s.bases.foldl (fun s d => (List.range 8).reverse.foldl (fun s q => s.governClass d q) s) s else s) := by
    split
    · exact foldl_related QosOnly.refl QosOnly.trans classes _ s
    · exact QosOnly.refl s
  obtain ⟨rest, intervals⟩ := dies
  unfold State.governQos
  dsimp only
  rw [rest]
  exact ⟨_, rfl, congrArg (· + 1) intervals, rfl, rfl, rfl, rfl⟩

/-- One reporter's age rises, and the tenth interval without its report is a fault. -/
def State.ageReport (s : State) (e : Nat × BitVec 16) : State :=
  let a := tget s.power.age e.1 0 + 1
  let s := { s with power := { s.power with age := tput s.power.age e.1 a } }
  if a == 10 then s.fault e.2 0x73 none 0 else s

/-- The age of every report rises. -/
def State.ageReports (s : State) : State := s.reporters.foldl State.ageReport s

theorem ageReport_frame (s : State) (e : Nat × BitVec 16) : GovernorFrame s (s.ageReport e) := by
  unfold State.ageReport
  exact .ite ⟨rfl, rfl, rfl, rfl, rfl⟩ ⟨rfl, rfl, rfl, rfl, rfl⟩

theorem ageReports_frame (s : State) : GovernorFrame s s.ageReports :=
  foldl_related GovernorFrame.refl GovernorFrame.trans ageReport_frame _ s

theorem governMirror_frame (s : State) : GovernorFrame s s.governMirror := by
  unfold State.governMirror
  refine foldl_related GovernorFrame.refl GovernorFrame.trans (fun s e => ?_) _ s
  exact ⟨rfl, rfl, rfl, rfl, rfl⟩

/-- A voltage request waits at its master, which drives it out when it is the only one. -/
theorem avsAsk_frame (s : State) (r mv limit : Nat) (row : Bool) : GovernorFrame s (s.avsAsk r mv limit row) := by
  have drive (s : State) (m : Nat) : GovernorFrame s (s.avsDrive m) := by
    unfold State.avsDrive
    split
    · exact .refl s
    · exact ⟨rfl, rfl, rfl, rfl, rfl⟩
  have queued (m : Nat) (q : List AvsReq) : GovernorFrame s (s.setAvs m q) := ⟨rfl, rfl, rfl, rfl, rfl⟩
  unfold State.avsAsk
  exact .ite ((queued _ _).trans (drive _ _)) (queued _ _)

/-- A die's steps change its levels, may ask for a voltage and may report its temperature. -/
theorem governDie_frame (s : State) (c : Nat) : GovernorFrame s (s.governDie c) := by
  unfold State.governDie
  extract_lets temp lim now r ask
  have asks (mv : Nat) : GovernorFrame s (ask mv) := .ite (avsAsk_frame s c mv 1000000 false) (.refl s)
  generalize heated : (if lim ≤ temp then (_, _) else _ : Nat × State) = p
  obtain ⟨heat, t⟩ := p
  have kept : GovernorFrame s t := by
    have cases := congrArg Prod.snd heated
    simp only [apply_ite Prod.snd] at cases
    rw [← cases]
    exact .ite (.ite (asks _) (.refl s)) (.ite (.refl s) (.ite (.ite (.ite (asks _) (.refl s)) (.refl s)) (.refl s)))
  exact kept.trans (.ite ⟨rfl, rfl, rfl, rfl, rfl⟩ ⟨rfl, rfl, rfl, rfl, rfl⟩)

/-- With an active image, outside Off and with the governor not fenced, an interval is the reading of the currents, the ages of
the reports, the QoS and mirror adjustments and every compute die's steps. -/
theorem governorInterval_eq (ma : List Nat) (s : State) (active : s.seq.active.isSome = true) (on : s.power.pkg ≠ 3)
    (unfenced : s.isFenced 1430 = false) : let t := (s.readPower ma).ageReports.governQos.governMirror
    execGovernorInterval ma s = .next (((List.range 12).filter t.computeEn).foldl State.governDie t) := by
  have image : s.seq.active.isNone = false := by simpa using active
  have fenced : (s.readPower ma).ageReports.isFenced 1430 = false := by
    unfold State.isFenced at *
    rw [(ageReports_frame _).fenced, readPower_powerOnly s ma]
    exact unfenced
  unfold execGovernorInterval
  rw [if_neg (by simp [image, on])]
  exact congrArg Host.Outcome.next (if_neg (ne_true_of_eq_false fenced))

/-- A report of a base die (R430): its age and the readings of the three compute dies above it. -/
theorem dieBudgetReport_eq (n w a b c : Nat) (s : State) (hn : n < 4) : execDieBudgetReport 1 n w [a, b, c] s =
    .next { s with power := { s.power with
      age := tput s.power.age (16 + n) 0,
      sensor := tput (tput (tput s.power.sensor (3 * n) a) (3 * n + 1) b) (3 * n + 2) c } } := by
  have ok : reporterOk 1 n = true := by simp [reporterOk, hn]
  simp [execDieBudgetReport, onWf, ok, List.range_succ]

/-- An interval counts, its counters begin again, and the caches, the cores and POWER_NOW as just read stand. -/
theorem governorInterval_counts (ma : List Nat) (s : State) (active : s.seq.active.isSome = true) (on : s.power.pkg ≠ 3)
    (unfenced : s.isFenced 1430 = false) : ∃ u, execGovernorInterval ma s = .next u ∧
      u.qos.intervals = s.qos.intervals + 1 ∧ u.qos.used = [] ∧ u.qos.starved = [] ∧ u.qos.declined = [] ∧
      u.qos.occ = [] ∧ u.power.now = (s.readPower ma).power.now ∧ u.hier = s.hier ∧ u.cores = s.cores := by
  have read := readPower_powerOnly s ma
  have aged := ageReports_frame (s.readPower ma)
  obtain ⟨x, governed, intervals, used, starved, declined, occ⟩ := governQos_eq (s.readPower ma).ageReports
  have steps := (governMirror_frame (s.readPower ma).ageReports.governQos).trans
    (foldl_related GovernorFrame.refl GovernorFrame.trans governDie_frame
      ((List.range 12).filter (s.readPower ma).ageReports.governQos.governMirror.computeEn) _)
  refine ⟨_, governorInterval_eq ma s active on unfenced, ?_⟩
  rw [steps.qos, steps.hier, steps.cores, steps.now, governed]
  refine ⟨?_, used, starved, declined, occ, aged.now, ?_, ?_⟩
  · rw [intervals, aged.qos, read]
  · exact aged.hier.trans (by rw [read])
  · exact aged.cores.trans (by rw [read])

theorem governorSteps : Claims.GovernorSteps := by
  refine ⟨fun ma s => ⟨fun inactive => ?_, governorInterval_counts ma s⟩, fun n w a b c s hn => ?_, fun v s => ?_⟩
  · show execGovernorInterval ma s = .next s
    simp [execGovernorInterval, inactive]
  · refine ⟨_, dieBudgetReport_eq n w a b c s hn, tfind_tput_same _ _ _, ?_, ?_, tfind_tput_same _ _ _⟩
    · simp [tfind_tput_ne]
    · simp [tfind_tput_ne]
  · refine ⟨_, rfl, ?_, ?_, fun least most => ?_⟩
    · exact Nat.le_max_left 1200 _
    · simp only [State.putCeil, State.reserved_power]
    · simp only [State.putCeil, State.reserved_img, Nat.min_eq_left most, Nat.max_eq_right least]

/-- Settles O39, from the time base's laws and what an interval's parts leave. -/
theorem timeAndGovernor : Obligations.TimeAndGovernor := ⟨timeBase, governorSteps⟩

end Sys2Proof.Machine
end

section
/-! SUPPORT. The proofs of the statements about register writes (R28, R31, R306): a write of a REMAP register whose row is being
copied leaves the state as it is. -/

namespace Sys2Proof.Machine

/-! ### A REMAP register whose row is being copied (R306) -/

/-- An aligned 64-bit write that a block serves and whose row is being copied waits for the copy: nothing changes. -/
theorem registerWrite_of_copies {node pa : Nat} {tid : BitVec 12} {v : Word} {s : State} {b : Blk} (node_ok : nodeOk node = true)
    (pa_lt : pa < 2 ^ 52) (block : blkOf pa = some b) (served : s.blkErr b = (0, s)) (aligned : pa % 8 = 0)
    (mapped : s.reqUnmapped b (pa % 2 ^ 20) v = false) (copies : s.copies b (pa % 2 ^ 20) v = true) :
    exec (.registerWrite node tid pa true v) s = .next s := by
  have access : s.regAccess tid pa 8 (some v) = ((0, 0), s) := by
    simp [State.regAccess, block, served, aligned, mapped, copies, -Nat.reducePow]
  show execRegisterWrite node tid pa true v s = .next s
  simp [execRegisterWrite, onWf, paOk, node_ok, pa_lt, access, -Nat.reducePow]

/-- Base die 0 enabled and stack 0 in RUN; the stack copies its row 1 for REMAP0 and has copied five lines. -/
def copyingState : State :=
  let im : Image := { len := 0x600, bytes := [(128, 1), (137, 4), (0x400, 1)] }
  { State.reset with
    seq := { State.reset.seq with active := some im }
    power := { State.reset.power with pkg := 0, doms := [(684, Dom.running)] }
    hier := { State.reset.hier with mcs := [(0, { Mc.initial with copying := [(0, 1, 5)] })] } }

/-- REMAP0 of stack 0 (Table 10-7). -/
def remap0 : Nat := 0xF000100300100

/-- The stack's block serves the write, which sets no reserved bit, and the row that the value names is the one being copied. -/
theorem copyingState_copies : blkOf remap0 = some (.stack 0) ∧ copyingState.blkErr (.stack 0) = (0, copyingState) ∧
    copyingState.reqUnmapped (.stack 0) (remap0 % 2 ^ 20) 0xC000000000000001 = false ∧
    copyingState.copies (.stack 0) (remap0 % 2 ^ 20) 0xC000000000000001 = true ∧
    0xC000000000000001 &&& ~~~ ((copyingState.regGet (.stack 0) (remap0 / 2 ^ 20 * 2 ^ 20)
      (remap0 % 2 ^ 20)).map (·.2)).getD 0 = 0 := by decide +kernel

/-- The write's effect, were it to take place, begins the copy again at the row's first line. -/
theorem copyingState_regPut : ((copyingState.regPut (.stack 0) (remap0 / 2 ^ 20 * 2 ^ 20) 0 (remap0 % 2 ^ 20)
    0xC000000000000001).mc 0).copying = [(0, 1, 0)] ∧ (copyingState.mc 0).copying = [(0, 1, 5)] := by decide +kernel

/-- Refutes O50: writing REMAP0 again with the row that is being copied changes nothing, as its response waits for the copy
(R306); the statement has such a write take effect, which would begin the copy again. -/
theorem not_registerWrites : ¬ Obligations.RegisterWrites := by
  intro claim
  obtain ⟨block, served, mapped, copies, unreserved⟩ := copyingState_copies
  obtain ⟨restarted, halfway⟩ := copyingState_regPut
  obtain ⟨-, -, serves, -⟩ := claim 0 remap0 0 0xC000000000000001 copyingState (by decide) (by decide)
  obtain ⟨-, -, -, effect, -⟩ := serves _ block served
  have waits := registerWrite_of_copies (node := 0) (tid := 0) (by decide) (by decide) block served (by decide) mapped copies
  have same := Host.Outcome.next.inj (waits.symm.trans (effect (by decide) mapped))
  rw [if_neg (fun counted => counted.1 unreserved)] at same
  have unequal : [(0, 1, 5)] = [(0, 1, 0)] := by rw [← halfway, ← restarted, ← same]
  exact absurd unequal (by decide)

end Sys2Proof.Machine
end

section
/-! SUPPORT. What an instruction of a core comes to, from what its body does on the fetched state, and what the shared operations
of a core leave of its registers. -/

namespace Sys2Proof.Machine

/-! ### The instruction monad -/

theorem exec_bind {α β : Type} (m : Exec α) (f : α → Exec β) (s : State) :
    (m >>= f) s = match m s with
      | .ok v t => f v t
      | .error e t => .error e t := by
  cases h : m s with
  | ok v t => exact exec_bind_ok h
  | error e t => exact exec_bind_error h

@[simp] theorem exec_map {α β : Type} (f : α → β) (m : Exec α) (s : State) :
    (f <$> m) s = match m s with
      | .ok v t => .ok (f v) t
      | .error e t => .error e t := by
  rw [← bind_pure_comp, exec_bind]
  rfl

@[simp] theorem exec_get (s : State) : (get : Exec State) s = .ok s s := rfl
@[simp] theorem exec_set (s t : State) : (set t : Exec PUnit) s = .ok ⟨⟩ t := rfl
@[simp] theorem exec_modify (f : State → State) (s : State) : (modify f : Exec PUnit) s = .ok ⟨⟩ (f s) := rfl
@[simp] theorem exec_pure {α : Type} (v : α) (s : State) : (pure v : Exec α) s = .ok v s := rfl
@[simp] theorem raise_apply {α : Type} (code : Nat) (addr : Word) (split next : Bool) (s : State) :
    (raise code addr split next : Exec α) s = .error (.exc { code, addr, split, next }) s := rfl
@[simp] theorem waitNow_apply {α : Type} (s : State) : (waitNow : Exec α) s = .error .wait s := rfl
@[simp] theorem setRegs_apply (x : Ctx) (f : Core → Core) (s : State) : setRegs x f s = .ok () (s.modCore x.g f) := rfl
@[simp] theorem done_apply (x : Ctx) (s : State) : done x s = .ok (some (x.pc + 4)) s := rfl
@[simp] theorem legal_true (s : State) : legal true s = .ok () s := rfl

theorem needLevel_of_le {x : Ctx} {lv : Nat} (h : lv ≤ x.pl) (s : State) : needLevel x lv s = .ok () s := by
  simp [needLevel, Nat.not_lt.mpr h]

theorem needLevel_of_lt {x : Ctx} {lv : Nat} (h : x.pl < lv) (s : State) :
    needLevel x lv s = .error (.exc { code := 0x02 }) s := by
  simp [needLevel, h]

theorem drained_of_empty {x : Ctx} {s : State} (h : (s.core x.g).sb = []) : drained x s = .ok () s := by
  simp [drained, exec_bind, h]

theorem drained_of_stores {x : Ctx} {s : State} (h : (s.core x.g).sb ≠ []) : drained x s = .error .wait s := by
  simp [drained, exec_bind, h]

/-! ### The ends of a fetched instruction -/

section
variable {c : Nat} {s s1 t : State} {x : Ctx} {body : Ctx → Exec (Option Word)} {eret : Bool}

/-- The body gives the next address: the instruction ends there. -/
theorem coreStep_completes (h : Fetches c s x s1) {p : Word} (ran : body x s1 = .ok (some p) t) :
    onWf (coreOk c) (s.coreStep c body eret) = .next (t.ends c x p eret) := by
  rw [coreStep_of_fetches h, onWf_true _ (coreOk_of_fetches h), ran]
  rfl

/-- The body waits for an answer that will complete the instruction. -/
theorem coreStep_stalls (h : Fetches c s x s1) (ran : body x s1 = .ok none t) :
    onWf (coreOk c) (s.coreStep c body eret) = .next t := by
  rw [coreStep_of_fetches h, onWf_true _ (coreOk_of_fetches h), ran]

theorem coreStep_waits (h : Fetches c s x s1) (ran : body x s1 = .error .wait t) :
    onWf (coreOk c) (s.coreStep c body eret) = .next (t.undo c) := by
  rw [coreStep_of_fetches h, onWf_true _ (coreOk_of_fetches h), ran]

theorem coreStep_raises (h : Fetches c s x s1) {e : Exc} (ran : body x s1 = .error (.exc e) t) :
    onWf (coreOk c) (s.coreStep c body eret) = .next ((t.undo c).takeExc c x.sw e) := by
  rw [coreStep_of_fetches h, onWf_true _ (coreOk_of_fetches h), ran]

end

/-! ### Bit fields -/

theorem fld_eq_extract {w : Nat} (x : BitVec w) (lo n : Nat) : fld x lo n = (x.extractLsb' lo n).toNat := by
  simp [fld, bitsOf, Nat.shiftRight_eq_div_pow]

/-- A field depends on its bits alone. -/
theorem fld_congr {w : Nat} {x y : BitVec w} {lo n : Nat} (h : ∀ i < n, x.getLsbD (lo + i) = y.getLsbD (lo + i)) :
    fld x lo n = fld y lo n := by
  rw [fld_eq_extract, fld_eq_extract]
  congr 1
  ext i hi
  simpa using h i hi

theorem getLsbD_setFld {w : Nat} (x : BitVec w) (lo n v i : Nat) (hi : i < w) :
    (setFld x lo n v).getLsbD i = if lo ≤ i ∧ i < lo + n then v.testBit (i - lo) else x.getLsbD i := by
  simp only [setFld, BitVec.getLsbD_or, BitVec.getLsbD_and, BitVec.getLsbD_not, BitVec.getLsbD_ofNat, hi, decide_true,
    Bool.true_and, Nat.testBit_mul_two_pow, Nat.testBit_two_pow_sub_one, Nat.testBit_mod_two_pow]
  by_cases low : lo ≤ i
  · by_cases high : i < lo + n
    · simp [low, high, show i - lo < n by omega]
    · simp [low, high, show ¬ i - lo < n by omega]
  · simp [low]

/-- A field copied from another word. -/
theorem getLsbD_setFld_fld (x v : Word) (lo n i : Nat) (hi : i < 64) :
    (setFld x lo n (fld v lo n)).getLsbD i = if lo ≤ i ∧ i < lo + n then v.getLsbD i else x.getLsbD i := by
  rw [getLsbD_setFld x lo n _ i hi, fld_eq_extract, BitVec.testBit_toNat, BitVec.getLsbD_extractLsb']
  split
  next within => simp [show i - lo < n by omega, show lo + (i - lo) = i by omega]
  next => rfl

theorem bit_setBit (x : Word) (k i : Nat) (b : Bool) (hi : i < 64) :
    bit (setBit x k b) i = if i = k then b else bit x i := by
  rw [bit, setBit, getLsbD_setFld x k 1 _ i hi]
  by_cases h : i = k
  · subst h; cases b <;> simp
  · rw [if_neg (by omega), if_neg h, bit]

theorem fld_zero_two (p : Word) : fld p 0 2 = p.toNat % 4 := by simp [fld, bitsOf]

/-- A transfer's displacement counts words, so its target is aligned where P is. -/
theorem fld_add_mul_four {p : Word} (h : p.toNat % 4 = 0) (d : Word) : fld (p + d * 4) 0 2 = 0 := by
  have four : (4 : Word).toNat = 4 := rfl
  rw [fld_zero_two, BitVec.toNat_add, BitVec.toNat_mul, four]
  omega

/-! ### Tables and cores -/

theorem tput_tput {α : Type} (t : Table α) (k : Nat) (u v : α) : tput (tput t k u) k v = tput t k v := by
  induction t with
  | nil => simp [tput]
  | cons e t ih =>
    obtain ⟨j, w⟩ := e
    rcases Nat.lt_trichotomy k j with lt | rfl | gt
    · simp [tput, lt]
    · simp [tput]
    · simp [tput, Nat.not_lt.mpr (Nat.le_of_lt gt), Nat.ne_of_gt gt, ih]

@[simp] theorem setCore_setCore (s : State) (g : Nat) (j k : Core) : (s.setCore g j).setCore g k = s.setCore g k := by
  simp [State.setCore, tput_tput]

@[simp] theorem modCore_core_same (s : State) (g : Nat) (f : Core → Core) : (s.modCore g f).core g = f (s.core g) := by
  simp [State.modCore]

theorem modCore_setCore (s : State) (g : Nat) (c : Core) (f : Core → Core) :
    (s.setCore g c).modCore g f = s.setCore g (f c) := by simp [State.modCore]

@[simp] theorem fault_core (s : State) (src : BitVec 16) (kind : BitVec 8) (tid : Option (BitVec 12)) (addr g : Nat) :
    (s.fault src kind tid addr).core g = s.core g := rfl

@[simp] theorem dueEvent_core (s : State) (g ev : Nat) :
    (s.dueEvent g ev).core g = { s.core g with due := (s.core g).due ++ [ev] } := by simp [State.dueEvent]

@[simp] theorem setReg_reg_same (c : Core) (n : Nat) (v : Word) : (c.setReg n v).reg n = v := by simp [Core.setReg, Core.reg]

theorem setReg_reg_ne (c : Core) {n m : Nat} (v : Word) (h : m ≠ n) : (c.setReg n v).reg m = c.reg m := by
  simp [Core.setReg, Core.reg, tget_tput_ne _ _ _ _ _ h]

/-! ### Windows -/

/-- Without an open window every register is seen as it stands (R116). -/
theorem eff_of_no_window {k : Core} (h : k.win = []) (n : Nat) : k.eff n = k.reg n := by
  simp [Core.eff, Core.at, Core.pick, h]

theorem seenSw_of_no_window {k : Core} (h : k.win = []) : k.seenSw = k.sw := by simp [Core.seenSw, h]

/-- What a write that takes effect may change of its core: the translation arrays, the frame map, the LFSRs, the record of a
cleaning, and CACHE_EN. -/
structure Core.Effected (k k0 : Core) : Prop where
  rest : k = { k0 with
    itlb := k.itlb, dtlb := k.dtlb, l2tlb := k.l2tlb, wcache := k.wcache, fmap := k.fmap, lfsrI := k.lfsrI, lfsrC := k.lfsrC,
    lfsr2 := k.lfsr2, cleaned := k.cleaned, sr := k.sr }
  reg : ∀ n, n ≠ srCacheEn → k.reg n = k0.reg n

theorem Core.Effected.refl (k : Core) : k.Effected k := ⟨rfl, fun _ _ => rfl⟩
theorem Core.Effected.trans {k j i : Core} (h : k.Effected j) (l : j.Effected i) : k.Effected i := by
  refine ⟨?_, fun n hn => (h.reg n hn).trans (l.reg n hn)⟩
  rw [h.rest, l.rest]

/-- A write of CACHE_EN also marks a cleaning that it starts, in the register itself (R223). -/
theorem Core.Effected.setReg_cacheEn {k k0 : Core} (h : k.Effected k0) (ls : List Nat) (v : Word) :
    ({ k with cleaned := ls }.setReg srCacheEn v).Effected k0 := by
  refine ⟨?_, fun n hn => (setReg_reg_ne _ v hn).trans (h.reg n hn)⟩
  rw [h.rest]
  rfl

theorem srEffect_effected (s : State) (g : Nat) (w : Win) : ((s.srEffect g w).core g).Effected (s.core g) := by
  unfold State.srEffect
  extract_lets c new on2 on1 c' left
  have keeps : ∀ k : Core, k.Effected c → ((s.setCore g k).core g).Effected c := fun k h => by rwa [setCore_core_same]
  split
  · exact keeps _ ⟨rfl, fun _ _ => rfl⟩
  split
  · exact keeps _ ⟨rfl, fun _ _ => rfl⟩
  split
  · exact keeps _ ⟨rfl, fun _ _ => rfl⟩
  split
  · exact keeps _ ⟨rfl, fun _ _ => rfl⟩
  split
  · have dropped : c'.Effected c := by
      simp only [c']
      split
      · exact ⟨rfl, fun _ _ => rfl⟩
      · exact .refl c
    split
    · exact keeps _ (dropped.setReg_cacheEn [] _)
    · exact keeps _ dropped
  · exact .refl c

theorem srEffects_effected (g : Nat) (ws : List Win) (s : State) :
    ((ws.foldl (fun s w => s.srEffect g w) s).core g).Effected (s.core g) :=
  foldl_related (R := fun s t => (t.core g).Effected (s.core g)) (fun _ => .refl _) (fun h k => k.trans h)
    (fun s w => srEffect_effected s g w) ws s

theorem closeWindows_effected (s : State) (g : Nat) : ((s.closeWindows g).core g).Effected { s.core g with win := [] } := by
  have effects := srEffects_effected g (s.core g).win (s.setCore g { s.core g with win := [] })
  rwa [setCore_core_same] at effects

theorem closeWindows_win (s : State) (g : Nat) : ((s.closeWindows g).core g).win = [] := by
  rw [(closeWindows_effected s g).rest]

theorem tick_effected (s : State) (g : Nat) : ((s.tick g).core g).Effected { s.core g with
    win := ((s.core g).win.map fun w => { w with left := w.left - 1 }).filter fun w => w.left != 0 } := by
  unfold State.tick
  extract_lets c ws t
  have effects := srEffects_effected g (ws.filter fun w => w.left == 0) t
  rwa [setCore_core_same] at effects

theorem tick_win (s : State) (g : Nat) : ((s.tick g).core g).win =
    ((s.core g).win.map fun w => { w with left := w.left - 1 }).filter fun w => w.left != 0 := by
  rw [(tick_effected s g).rest]

/-! ### Counted events and flushed Haze entries (R140, R159) -/

/-- What counting events and freeing Haze entries may change of a core: the performance counters, their overflow latches and
the Haze buffer. -/
structure Core.Counted (k k0 : Core) : Prop where
  rest : k = { k0 with sr := k.sr, ovf := k.ovf, haze := k.haze }
  reg : ∀ n, n < 0xC0 ∨ 0xE2 ≤ n → k.reg n = k0.reg n

theorem Core.Counted.refl (k : Core) : k.Counted k := ⟨rfl, fun _ _ => rfl⟩
theorem Core.Counted.trans {k j i : Core} (h : k.Counted j) (l : j.Counted i) : k.Counted i := by
  refine ⟨?_, fun n hn => (h.reg n hn).trans (l.reg n hn)⟩
  rw [h.rest, l.rest]

theorem setReg_counted (c : Core) {m : Nat} (v : Word) (within : 0xC0 ≤ m ∧ m < 0xE2) : (c.setReg m v).Counted c :=
  ⟨rfl, fun n hn => setReg_reg_ne c v (by omega)⟩

theorem addPmc_counted (c : Core) (i n k : Nat) (hn : n < 16) : (c.addPmc i n k).Counted c := by
  unfold Core.addPmc
  extract_lets v c1 c2
  have first : c1.Counted c := setReg_counted c _ (by omega)
  have second : c2.Counted c := (setReg_counted c1 _ (by decide)).trans first
  split
  · split
    · exact Core.Counted.trans ⟨rfl, fun _ _ => rfl⟩ second
    · exact second
  · exact first

/-- A fold over the sixteen counters, each of which counts or not. -/
theorem foldl_counters_counted {f : Core → Nat → Core} (h : ∀ c n, n < 16 → (f c n).Counted c) (c : Core) :
    ((List.range 16).foldl f c).Counted c :=
  List.foldlRecOn (motive := fun k => k.Counted c) _ f (.refl c) fun k hk n hn => (h k n (List.mem_range.mp hn)).trans hk

theorem Core.event_counted (c : Core) (ext : Bool) (sw : Word) (i ev k : Nat) : (c.event ext sw i ev k).Counted c :=
  foldl_counters_counted (fun c n hn => by
    split
    · exact addPmc_counted c i n k hn
    · exact .refl c) c

theorem Core.extra_counted (c : Core) (ext : Bool) (sw : Word) (n : Nat) : (c.extra ext sw n).Counted c :=
  (foldl_counters_counted (fun c i hi => by
    dsimp only
    split
    · exact addPmc_counted c n i _ hi
    · exact .refl c) _).trans (c.event_counted ext sw n 0x002 _)

theorem event_counted (s : State) (g : Nat) (sw : Word) (ev k : Nat) : ((s.event g sw ev k).core g).Counted (s.core g) := by
  unfold State.event
  rw [modCore_core_same]
  exact Core.event_counted _ _ _ _ _ _

theorem events_counted (g : Nat) (sw : Word) (evs : List Nat) (s : State) :
    ((evs.foldl (fun s ev => s.event g sw ev) s).core g).Counted (s.core g) :=
  foldl_related (R := fun s t => (t.core g).Counted (s.core g)) (fun _ => .refl _) (fun h k => k.trans h)
    (fun s ev => event_counted s g sw ev 1) evs s

theorem event_setCore (s : State) (g : Nat) (c : Core) (sw : Word) (ev k : Nat) : (s.setCore g c).event g sw ev k =
    ({ s with free := s.free + 1 } : State).setCore g (c.event ((s.setCore g c).cap 6) sw s.free ev k) :=
  modCore_setCore ({ s with free := s.free + 1 } : State) g c _

/-- A flush draws at most a free value, and changes its core alone. -/
theorem hazeFlush_setCore (s : State) (g : Nat) (c : Core) : ∃ (k : Core) (n : Nat),
    (s.setCore g c).hazeFlush g = ({ s with free := n } : State).setCore g k ∧ k.Counted c := by
  unfold State.hazeFlush
  extract_lets k n
  split
  · exact ⟨c, s.free, rfl, .refl c⟩
  · refine ⟨_, s.free + 1, by rw [event_setCore, modCore_setCore], ?_⟩
    exact Core.Counted.trans ⟨rfl, fun _ _ => rfl⟩ (Core.event_counted ..)

theorem hazeFlush_counted (s : State) (g : Nat) : ((s.hazeFlush g).core g).Counted (s.core g) := by
  unfold State.hazeFlush
  extract_lets c n
  split
  · exact .refl _
  · rw [modCore_core_same]
    exact Core.Counted.trans ⟨rfl, fun _ _ => rfl⟩ (event_counted s g c.seenSw 0x011 n)

/-! ### Exception entry and completion -/

@[simp] theorem fresh_core (s : State) (g : Nat) : (s.fresh g).core g = (s.core g).fresh s.free := by simp [State.fresh]; rfl

/-- Exception entry leaves no window open (R107). -/
theorem enterExc_win (s : State) (g t : Nat) (nested : Bool) (sw : Word) (e : Exc) :
    ((s.enterExc g t nested sw e).core g).win = [] := by
  unfold State.enterExc
  extract_lets _ _ _ em _ _ _ _ s4 s5 c2 _ c3 _ _ c4 c5
  have closed : c2.win = [] := closeWindows_win s4 g
  have flushed : c5.win = c2.win := by
    simp only [c5, apply_ite Core.win]
    simp only [Core.contextSwitch, Core.predFlush, ite_self]
    rfl
  rw [setCore_core_same, flushed, closed]

theorem takeExc_win {s : State} {g : Nat} (sw : Word) (e : Exc) (h : (s.core g).win = []) :
    ((s.takeExc g sw e).core g).win = [] := by
  unfold State.takeExc
  extract_lets c t
  split
  · exact h
  split
  · split
    · rw [fault_core, setCore_core_same]
      exact h
    · exact enterExc_win ..
  · exact enterExc_win ..

/-- What completing an instruction does before STEP is raised: events and the instruction are counted, P moves, windows
advance (R160, R164, R165). -/
def State.completed (s : State) (g : Nat) (sw : Word) (n : Nat) (p : Word) (eret : Bool) : State :=
  let counted := (0x001 :: (s.core g).due).foldl (fun s ev => s.event g sw ev) s
  let moved := counted.modCore g fun c =>
    let c := c.extra (s.cap 6) sw n
    let c := if swEm sw then c else c.setReg 0xE2 (c.reg 0xE2 + BitVec.ofNat 64 (Config.pacerTurns n))
    { c with p := p, skipBp := eret }
  (moved.tick g).fresh g

theorem retire_eq (s : State) (g : Nat) (sw : Word) (n : Nat) (p : Word) (eret : Bool) :
    s.retire g sw n p eret =
      if swSs sw then
        if swEm ((s.completed g sw n p eret).core g).sw && !((s.completed g sw n p eret).core g).sb.isEmpty then
          (s.completed g sw n p eret).modCore g fun c => { c with stepDue := true }
        else (s.completed g sw n p eret).takeExc g ((s.completed g sw n p eret).core g).seenSw { code := 0x0D }
      else s.completed g sw n p eret := rfl

/-- Events, the counts of time and P's move leave the windows, and give the mark of ERET. -/
theorem completed_effected (s : State) (g : Nat) (sw : Word) (n : Nat) (p : Word) (eret : Bool) :
    ((s.completed g sw n p eret).core g).skipBp = eret ∧
      ((s.completed g sw n p eret).core g).win =
        ((s.core g).win.map fun w => { w with left := w.left - 1 }).filter fun w => w.left != 0 := by
  unfold State.completed
  extract_lets counted moved
  have events : (counted.core g).Counted (s.core g) := events_counted g sw _ s
  have skips : (moved.core g).skipBp = eret := by simp [moved]
  have keeps : (moved.core g).win = (s.core g).win := by
    simp only [moved, modCore_core_same, apply_ite Core.win, Core.setReg, ite_self]
    rw [((counted.core g).extra_counted (s.cap 6) sw n).rest, events.rest]
  rw [fresh_core, ← keeps]
  simp only [Core.fresh]
  exact ⟨by rw [(tick_effected moved g).rest, skips], tick_win moved g⟩

/-- An instruction that completes opens no window. -/
theorem retire_win {s : State} {g : Nat} (sw : Word) (n : Nat) (p : Word) (eret : Bool) (h : (s.core g).win = []) :
    ((s.retire g sw n p eret).core g).win = [] := by
  have closed : ((s.completed g sw n p eret).core g).win = [] := by rw [(completed_effected ..).2, h]; rfl
  rw [retire_eq]
  split
  · split
    · rw [modCore_core_same]
      exact closed
    · exact takeExc_win _ _ closed
  · exact closed

theorem ends_win {s : State} {c : Nat} (x : Ctx) (p : Word) (eret : Bool) (h : (s.core c).win = []) :
    ((s.ends c x p eret).core c).win = [] := by
  unfold State.ends
  split
  · exact retire_win _ _ _ _ h
  · exact h

end Sys2Proof.Machine
end

section
/-! SUPPORT. The proofs of the statements about the values at reset, control transfers, barriers, calls, ERET, and the end of
every open window. -/

namespace Sys2Proof.Machine

/-! ### Reset (R104, R121) -/

/-- Settles O6: the reset state holds no core, message or register of its own, so every read gives its default. -/
theorem resetValues : Obligations.ResetValues :=
  ⟨rfl, rfl, fun _ => rfl, fun _ _ => rfl, by decide, by decide, fun _ => rfl, by decide, rfl, rfl⟩

/-! ### Control transfers (R98, R99) -/

/-- What the predictor learns is no register. -/
theorem resolve_sameRegs (c : Core) (x : Ctx) (kind : Transfer) (target : Word) (taken : Bool) :
    (c.resolve x kind target taken).SameRegs c := by
  have learns : ∃ (p : Pred) (lf : BitVec 16), c.resolve x kind target taken = { c with pred := p, lfsrC := lf } := by
    unfold Core.resolve
    extract_lets ctl base tag step pred c1 i pred1 c2 pred2
    have first : ∃ (p : Pred) (lf : BitVec 16), c1 = { c with pred := p, lfsrC := lf } := by
      simp only [c1]
      split
      · exact ⟨_, _, rfl⟩
      · split
        · exact ⟨_, _, rfl⟩
        · exact ⟨_, _, rfl⟩
    obtain ⟨p, lf, eq1⟩ := first
    have second : ∃ (p : Pred) (lf : BitVec 16), c2 = { c with pred := p, lfsrC := lf } := by
      simp only [c2, pred1, eq1]
      split
      · exact ⟨_, _, rfl⟩
      · exact ⟨_, _, rfl⟩
    obtain ⟨p2, lf2, eq2⟩ := second
    split
    · exact ⟨_, _, rfl⟩
    split
    · exact ⟨_, _, by rw [eq2]⟩
    · exact ⟨_, _, eq2⟩
  obtain ⟨p, lf, eq⟩ := learns
  rw [eq]
  exact ⟨rfl, rfl, rfl, rfl, rfl, rfl, rfl, rfl, fun _ _ => rfl⟩

/-- The state in which a transfer resolved. -/
def State.resolved (s : State) (x : Ctx) (kind : Transfer) (target : Word) (taken : Bool) : State :=
  s.modCore x.g fun c => c.resolve x kind target taken

theorem transfer_aligned {x : Ctx} {target : Word} (h : fld target 0 2 = 0) (kind : Transfer) (taken : Bool)
    (f : Core → Core) (s : State) : transfer x kind target taken f s = .ok (some (if taken then target else x.pc + 4))
      (((s.resolved x kind target taken).modCore x.g f).dueEvent x.g 0x004) := by
  simp [transfer, exec_bind, h, State.resolved]

theorem transfer_misaligned {x : Ctx} {target : Word} (h : fld target 0 2 ≠ 0) (kind : Transfer) (taken : Bool)
    (f : Core → Core) (s : State) : transfer x kind target taken f s =
      .error (.exc { code := 0x04, addr := target }) (s.resolved x kind target taken) := by
  simp [transfer, exec_bind, h, State.resolved]

theorem resolved_sameRegs (x : Ctx) (kind : Transfer) (target : Word) (taken : Bool) (s : State) :
    ((s.resolved x kind target taken).core x.g).SameRegs (s.core x.g) := by
  rw [State.resolved, modCore_core_same]
  exact resolve_sameRegs ..

/-- A call sets L before it leaves. -/
def Core.link (c : Core) (x : Ctx) : Core := { c with l := x.pc + 4 }

theorem Core.SameRegs.link {k k0 : Core} (h : k.SameRegs k0) (x : Ctx) : (k.link x).SameRegs (k0.link x) := by
  obtain ⟨ha, hx, hy, -, hp, hf, hv, hsw, hreg⟩ := h
  exact ⟨ha, hx, hy, rfl, hp, hf, hv, hsw, hreg⟩

/-- RET, JA and CALLA transfer to a register of the fetched state; `f` is what each then makes of the registers. -/
theorem registerTransfer {i : Nat → BitVec 24 → Instr} {target : Core → Word} {kind : Transfer} {f : Ctx → Core → Core}
    (runs : ∀ c s, exec (i c 0) s = onWf (coreOk c) (s.coreStep c fun x => do
      transfer x kind (target ((← get).core x.g)) true (f x)))
    (keeps : ∀ x k k0, k.SameRegs k0 → (f x k).SameRegs (f x k0)) {c : Nat} {s s1 : State} {x : Ctx}
    (h : Fetches c s x s1) :
    ((target (s1.core c)).toNat % 4 = 0 → ∃ s3 : State, exec (i c 0) s = .next (s3.ends c x (target (s1.core c))) ∧
      (s3.core c).SameRegs (f x (s1.core c))) ∧
    ((target (s1.core c)).toNat % 4 ≠ 0 → ∃ s3 : State,
      exec (i c 0) s = .next ((s3.undo c).takeExc c x.sw { code := 0x04, addr := target (s1.core c) }) ∧
      (s3.core c).SameRegs (s1.core c)) := by
  obtain rfl := ctx_core_of_fetches h
  rw [← fld_zero_two, runs]
  have resolves := resolved_sameRegs x kind (target (s1.core x.g)) true s1
  refine ⟨fun aligned => ⟨_, coreStep_completes h ((exec_bind_ok (exec_get s1)).trans
      (transfer_aligned aligned kind true (f x) s1)), ?_⟩,
    fun misaligned => ⟨_, coreStep_raises h ((exec_bind_ok (exec_get s1)).trans
      (transfer_misaligned misaligned kind true (f x) s1)), resolves⟩⟩
  rw [dueEvent_core, modCore_core_same]
  exact keeps x _ _ resolves

/-- Settles O18, from what a resolved transfer leaves. -/
theorem transfers : Obligations.Transfers := by
  refine ⟨?branch, ?jump, ?register⟩
  case branch =>
    intro c cond slot disp s s1 s2 x v h read aligned
    obtain rfl := ctx_core_of_fetches h
    have target := fld_add_mul_four aligned (sext64 disp)
    refine ⟨_, coreStep_completes h ((exec_bind_ok read).trans ((exec_bind_ok (exec_get s2)).trans
      (transfer_aligned target .cond _ id s2))), ?_⟩
    rw [dueEvent_core, modCore_core_same]
    exact resolved_sameRegs ..
  case jump =>
    intro c disp s s1 x h aligned
    obtain rfl := ctx_core_of_fetches h
    have target := fld_add_mul_four aligned (sext64 disp)
    refine ⟨⟨_, coreStep_completes h (transfer_aligned target .jmp true id s1), ?_⟩,
      ⟨_, coreStep_completes h (transfer_aligned target .call true (fun c => c.link x) s1), ?_⟩⟩
    · rw [dueEvent_core, modCore_core_same]
      exact resolved_sameRegs ..
    · rw [dueEvent_core, modCore_core_same]
      exact (resolved_sameRegs ..).link x
  case register =>
    intro p hp c s s1 x h
    simp only [List.mem_cons, List.not_mem_nil, or_false] at hp
    rcases hp with rfl | rfl | rfl
    · exact registerTransfer (i := .ret) (kind := .ret) (f := fun _ => id) (fun _ _ => rfl) (fun _ _ _ => id) h
    · exact registerTransfer (i := .ja) (kind := .ja) (f := fun _ => id) (fun _ _ => rfl) (fun _ _ _ => id) h
    · exact registerTransfer (i := .calla) (kind := .calla) (f := fun x c => c.link x) (fun _ _ => rfl)
        (fun x _ _ same => same.link x) h

/-! ### Barriers and calls (R112, R124, R125, R127, R134) -/

theorem barriers : Claims.Barriers := by
  intro c s s1 x h
  obtain rfl := ctx_core_of_fetches h
  refine ⟨fun empty => ?visible, fun stores => ?waiting, ?flush, ?bar⟩
  case visible =>
    have drains := drained_of_empty empty
    refine ⟨coreStep_completes h ?_, coreStep_completes h ?_, coreStep_completes h ?_⟩ <;>
      simp [exec_bind, drains]
  case waiting =>
    have waits := drained_of_stores stores
    intro f hf
    simp only [List.mem_cons, List.not_mem_nil, or_false] at hf
    rcases hf with rfl | rfl | rfl <;> exact coreStep_waits h (by simp [exec_bind, waits])
  case flush => exact coreStep_completes h (by simp [exec_bind, Core.predFlush])
  case bar => exact coreStep_completes h (by simp [exec_bind, Core.predFlush])

theorem callsToHigherLevels : Claims.CallsToHigherLevels := by
  intro c opnd s s1 x h
  refine ⟨coreStep_raises h rfl, coreStep_raises h rfl, coreStep_raises h rfl, fun level => coreStep_raises h ?_,
    fun user => coreStep_raises h ?_, coreStep_completes h rfl⟩
  · rw [exec_bind_ok (needLevel_of_le level s1)]
    rfl
  · exact exec_bind_error (needLevel_of_lt (by omega) s1)

/-- Settles O20. -/
theorem barriersAndCalls : Obligations.BarriersAndCalls := ⟨barriers, callsToHigherLevels⟩

/-! ### ERET (R70, R106) -/

/-- ERET's body at S or H: the saved level and the address are checked, then the return is made. -/
theorem eret_returns {c : Nat} {s s1 : State} {x : Ctx} (h : Fetches c s x s1) (level : 1 ≤ x.pl)
    (saved : swPl ((s1.core c).reg (excBase x.pl + 1)) ≤ x.pl) (aligned : fld ((s1.core c).reg (excBase x.pl)) 0 2 = 0) :
    exec (.eret c 0) s = .next (((s1.dueEvent c 0x004).eret c x.pl).ends c x ((s1.core c).reg (excBase x.pl)) true) := by
  obtain rfl := ctx_core_of_fetches h
  exact coreStep_completes h (by simp [exec_bind, needLevel_of_le level, Nat.not_lt.mpr saved, aligned])

theorem eret_privilege {c : Nat} {s s1 : State} {x : Ctx} (h : Fetches c s x s1) (level : 1 ≤ x.pl)
    (above : x.pl < swPl ((s1.core c).reg (excBase x.pl + 1))) :
    exec (.eret c 0) s = .next ((s1.undo c).takeExc c x.sw { code := 0x02 }) := by
  obtain rfl := ctx_core_of_fetches h
  exact coreStep_raises h (by simp [exec_bind, needLevel_of_le level, above])

theorem closeWindows_of_none {s : State} {g : Nat} (h : (s.core g).win = []) :
    s.closeWindows g = s.setCore g (s.core g) := by
  have same : { s.core g with win := [] } = s.core g := by rw [← h]
  simp [State.closeWindows, h, same]

/-- What ERET makes of the core once its windows are closed and its Haze entries flushed (R106). -/
def Core.returned (c : Core) (t : Nat) : Core :=
  let b := excBase t
  let sw := (c.reg (b + 1) &&& 0x3B) ||| (c.sw &&& 0x100)
  let r := { c with f := setFld (c.reg (b + 5)) 0 3 0, sw := sw }.setReg (b + 5) c.f
  if swEm c.sw then (r.setReg 0x100 0).contextSwitch else if swPl sw != swPl c.sw then r.predFlush else r

theorem eret_eq_returned (s : State) (g t : Nat) : s.eret g t =
    ((s.closeWindows g).hazeFlush g).setCore g ((((s.closeWindows g).hazeFlush g).core g).returned t) := rfl

theorem returned_win (c : Core) (t : Nat) : (c.returned t).win = c.win := by
  unfold Core.returned
  extract_lets b sw r
  split
  · rfl
  · split <;> rfl

/-- Outside enclave mode ERET changes SW, F, EFRAME and the predictor. -/
theorem returned_of_normal {c : Core} (h : swEm c.sw = false) (t : Nat) : ∃ p : Pred, c.returned t =
    { ({ c with f := setFld (c.reg (excBase t + 5)) 0 3 0,
                sw := (c.reg (excBase t + 1) &&& 0x3B) ||| (c.sw &&& 0x100) }.setReg (excBase t + 5) c.f) with pred := p } := by
  simp only [Core.returned, h, Bool.false_eq_true, if_false]
  split
  · exact ⟨_, rfl⟩
  · exact ⟨_, rfl⟩

theorem eret_eq {t : State} {c l : Nat} (closed : (t.core c).win = []) (level : l = 1 ∨ l = 2)
    (normal : swEm (t.core c).sw = false) :
    ∃ (j : Core) (n : Nat), t.eret c l = ({ t with free := n } : State).setCore c j ∧
      j.sw = ((t.core c).reg (excBase l + 1) &&& 0x3B) ||| ((t.core c).sw &&& 0x100) ∧
      j.f = setFld ((t.core c).reg (excBase l + 5)) 0 3 0 ∧ j.reg (excBase l + 5) = (t.core c).f ∧
      j.a = (t.core c).a ∧ j.x = (t.core c).x ∧ j.y = (t.core c).y ∧ j.l = (t.core c).l ∧ j.va = (t.core c).va := by
  obtain ⟨k, n, flush, rest, reg⟩ := hazeFlush_setCore t c (t.core c)
  have below : excBase l + 5 < 0xC0 := by rcases level with rfl | rfl <;> decide
  have sw : k.sw = (t.core c).sw := by rw [rest]
  have f : k.f = (t.core c).f := by rw [rest]
  obtain ⟨p, returned⟩ := returned_of_normal (sw ▸ normal) l
  refine ⟨k.returned l, n, ?_, ?_⟩
  · rw [eret_eq_returned, closeWindows_of_none closed, flush, setCore_core_same, setCore_setCore]
  · rw [returned, ← reg _ (.inl below), ← reg (excBase l + 1) (.inl (by omega)), ← sw, ← f]
    refine ⟨rfl, rfl, setReg_reg_same .., ?_, ?_, ?_, ?_, ?_⟩ <;> rw [rest] <;> rfl

/-- Settles O21. -/
theorem returnFromException : Obligations.ReturnFromException := by
  intro c s s1 x k b h level
  refine ⟨eret_returns h level, eret_privilege h level, fun t sw p n quiet => ?_, fun t l => eret_eq⟩
  rw [retire_eq, quiet]
  exact (completed_effected t c sw n p true).1

/-! ### Windows (R119) -/

/-- ERET leaves no window open. -/
theorem eret_win (s : State) (c l : Nat) : ((s.eret c l).core c).win = [] := by
  rw [eret_eq_returned, setCore_core_same, returned_win, (hazeFlush_counted _ c).rest]
  exact closeWindows_win s c

/-- Settles O59. -/
theorem windowsEnd : Obligations.WindowsEnd := by
  refine ⟨fun c s s1 x h => ⟨fun empty => ?_, fun level saved aligned => ?_⟩, enterExc_win, fun k g closed => ?_⟩
  · exact ⟨_, ((barriers c s s1 x h).1 empty).1, ends_win _ _ _ (closeWindows_win s1 c)⟩
  · exact ⟨_, eret_returns h level saved aligned, ends_win _ _ _ (eret_win _ c x.pl)⟩
  · exact ⟨seenSw_of_no_window closed, by simp [Core.ctx, closed], eff_of_no_window closed⟩

end Sys2Proof.Machine
end

section
/-! SUPPORT. The proofs of the statements about moves to and from system registers, the windows in which their writes take
effect, WFI, and interrupts. -/

namespace Sys2Proof.Machine

/-! ### The status word (R101, R102) -/

/-- Writing one field of SW puts the value's bits there, whether or not they differ. -/
theorem swWrite_getLsbD (c : Core) (w : Nat) (v : Word) {i : Nat} (hi : i < 64) : (c.swWrite w v).sw.getLsbD i =
    if (swField w).1 ≤ i ∧ i < (swField w).1 + (swField w).2 then v.getLsbD i else c.sw.getLsbD i := by
  unfold Core.swWrite
  extract_lets f old new d
  split
  next same =>
    have eq : fld c.sw f.1 f.2 = fld v f.1 f.2 := by simpa [old, new] using same
    rw [← getLsbD_setFld_fld c.sw v f.1 f.2 i hi, ← eq, getLsbD_setFld_fld c.sw c.sw f.1 f.2 i hi, ite_self]
  next => exact getLsbD_setFld_fld c.sw v f.1 f.2 i hi

/-- MTSW's writes of all four fields (Table 4-2). -/
def Core.swWrites (c : Core) (v : Word) : Core := [0x400, 0x401, 0x402, 0x403].foldl (fun c w => c.swWrite w v) c

/-- PL, IE, SS and EX take the value's bits; every other bit of SW, EM among them, stays. -/
theorem swWrites_getLsbD (c : Core) (v : Word) {i : Nat} (hi : i < 64) : (c.swWrites v).sw.getLsbD i =
    if i < 2 ∨ (3 ≤ i ∧ i < 6) then v.getLsbD i else c.sw.getLsbD i := by
  have pl : swField 0x400 = (0, 2) := by decide
  have ie : swField 0x401 = (3, 1) := by decide
  have ss : swField 0x402 = (4, 1) := by decide
  have ex : swField 0x403 = (5, 1) := by decide
  simp only [Core.swWrites, List.foldl_cons, List.foldl_nil]
  rw [swWrite_getLsbD _ _ v hi, swWrite_getLsbD _ _ v hi, swWrite_getLsbD _ _ v hi, swWrite_getLsbD _ _ v hi, pl, ie, ss, ex]
  dsimp only
  grind

/-- A change of level also flushes the predictor and the unproven Haze entries (R101), which leaves SW. -/
def State.levelSet (s : State) (g pl : Nat) : State :=
  if swPl (s.core g).sw != pl then (s.modCore g Core.predFlush).hazeFlush g else s

theorem levelSet_sw (s : State) (g pl : Nat) : ((s.levelSet g pl).core g).sw = (s.core g).sw := by
  unfold State.levelSet
  split
  · rw [(hazeFlush_counted _ g).rest, modCore_core_same]
    rfl
  · rfl

/-! ### Moves to and from system registers (R116, R120) -/

theorem mtsw_writes {c : Nat} {opnd : BitVec 16} {s s1 s3 : State} {x : Ctx} {v : Word} (h : Fetches c s x s1)
    (form : fld opnd 5 11 = 0) (level : 1 ≤ x.pl) (read : slotRead x (fld opnd 0 5) s1 = .ok v s3) (known : swPl v ≠ 3)
    (low : swPl v ≤ x.pl) :
    ∃ t : State, exec (.mtsw c opnd) s = .next (t.ends c x (x.pc + 4)) ∧ swPl (t.core c).sw = swPl v ∧
      swIe (t.core c).sw = swIe v ∧ swSs (t.core c).sw = swSs v ∧ swEx (t.core c).sw = swEx v ∧
      swEm (t.core c).sw = swEm (s3.core c).sw := by
  obtain rfl := ctx_core_of_fetches h
  refine ⟨(s3.modCore x.g fun c => c.swWrites v).levelSet x.g (swPl (s3.core x.g).sw), coreStep_completes h ?_, ?_⟩
  · simp [exec_bind, form, needLevel_of_le level, read, known, Nat.not_lt.mpr low, State.levelSet, Core.swWrites]
  · rw [levelSet_sw, modCore_core_same]
    refine ⟨fld_congr fun i hi => ?_, ?_, ?_, ?_, ?_⟩
    · rw [swWrites_getLsbD _ _ (by omega), if_pos (by omega)]
    · exact swWrites_getLsbD _ _ (by decide)
    · exact swWrites_getLsbD _ _ (by decide)
    · exact swWrites_getLsbD _ _ (by decide)
    · exact swWrites_getLsbD _ _ (by decide)

theorem systemRegisterMoves : Claims.SystemRegisterMoves := by
  intro c d opnd s s1 s2 s3 x v h
  refine ⟨fun check write => ?mfsr, fun check read noIpi => ?mtsr, fun form write => ?mfsw, mtsw_writes h,
    fun form level read known above => ?mtswHigh, fun legal mode level write => ?pmrd⟩ <;> obtain rfl := ctx_core_of_fetches h
  case mfsr => exact coreStep_completes h (by simp [exec_bind, check, write])
  case mtsr => exact coreStep_completes h (by simp [exec_bind, check, read, noIpi])
  case mfsw => exact coreStep_completes h (by simp [exec_bind, form, write])
  case mtswHigh =>
    exact coreStep_raises h (by simp [exec_bind, form, needLevel_of_le level, read, known, above])
  case pmrd =>
    have permitted : (if bit (x.reg 0xE0) 3 = true then 0 else 1) ≤ x.pl := by
      split
      · exact Nat.zero_le _
      · simpa [*] using level
    exact coreStep_completes h (by simp [exec_bind, legal, mode, needLevel_of_le permitted, write])

/-- A register under one open window is seen with its old or its new value. -/
theorem eff_of_window {k : Core} {n : Nat} {old : Word} {d : Nat} (h : k.win = [⟨n, old, d⟩]) :
    k.eff n = k.reg n ∨ k.eff n = old := by
  simp only [Core.eff, Core.at, Core.pick, h, List.filter_cons, beq_self_eq_true, if_true, List.filter_nil]
  rcases Nat.mod_two_eq_zero_or_one (Config.windowPick k.idx n) with even | odd
  · right; simp [even]
  · left; simp [odd]

theorem effectDistance : Claims.EffectDistance := by
  intro s g n d v far closed t
  have t_eq : t = s.setCore g ({ s.core g with win := [⟨n, (s.core g).reg n, d⟩] }.setReg n v) := by
    simp [t, State.srWrite, Nat.not_le.mpr far, closed]
  have win : (t.core g).win = [⟨n, (s.core g).reg n, d⟩] := by rw [t_eq, setCore_core_same]; rfl
  have new : (t.core g).reg n = v := by rw [t_eq, setCore_core_same, setReg_reg_same]
  refine ⟨new, ?_, win, fun m ne => ?_, fun u old k opened => ⟨fun more => ?_, fun last => ⟨?_, fun m other => ?_⟩⟩⟩
  · exact new ▸ eff_of_window win
  · rw [t_eq, setCore_core_same, setReg_reg_ne _ _ ne]
    rfl
  · have open_ : k - 1 ≠ 0 := by omega
    simp [tick_win, opened, open_]
  · simp [tick_win, opened, last]
  · have shut : ((u.tick g).core g).win = [] := by simp [tick_win, opened, last]
    rw [eff_of_no_window shut, (tick_effected u g).reg m (by unfold srCacheEn; omega)]
    rfl

/-- Settles O19. -/
theorem systemRegisters : Obligations.SystemRegisters := ⟨systemRegisterMoves, effectDistance⟩

/-! ### WFI and interrupts (R105, R109, R111, R314) -/

theorem coreOk_of_coreRuns {c : Nat} {s : State} (h : s.coreRuns c = true) : coreOk c = true := by
  simp [State.coreRuns, State.coreEnabled, State.computeEn] at h
  simp [coreOk]; omega

theorem wfi_ends {c : Nat} {s s1 : State} {x : Ctx} (h : Fetches c s x s1) (level : 1 ≤ x.pl)
    (untrapped : x.pl = 1 → bit (x.reg 0x18) 16 = false) : exec (.wfi c 0) s = .next ((s1.modCore c fun k =>
      if (k.pendingInts s1.now).isEmpty then { k with run := .wfi } else k).ends c x (x.pc + 4)) := by
  obtain rfl := ctx_core_of_fetches h
  have passes : (x.pl == 1 && bit (x.reg 0x18) 16) = false := by
    by_cases supervisor : x.pl = 1
    · simp [untrapped supervisor]
    · simp [supervisor]
  exact coreStep_completes h (by simp [exec_bind, needLevel_of_le level, passes])

/-- A waiting core with a pending interrupt runs on, or takes the interrupt at its boundary. -/
theorem wakeWfi_of_pending {c : Nat} {s : State} (runs : s.coreRuns c = true) (waits : (s.core c).run = .wfi)
    (pending : (s.core c).pendingInts s.now ≠ []) :
    ((s.core c).takes s.now (s.core c).seenSw = none → s.wakeWfi c = s.setCore c { s.core c with run := .running }) ∧
    ∀ code, s.atBoundary c = true → (s.core c).takes s.now (s.core c).seenSw = some code →
      s.wakeWfi c = s.interrupt c code := by
  refine ⟨fun none => ?_, fun code boundary some => ?_⟩
  · simp [State.wakeWfi, runs, waits, pending, State.intDue, none]
  · simp [State.wakeWfi, runs, waits, pending, State.intDue, some, boundary]

theorem waitForInterrupt : Claims.WaitForInterrupt := by
  refine ⟨fun c s s1 x h level untrapped => ⟨fun idle => ?_, fun pending => ?_⟩,
    fun c s runs waits pending => ?_⟩
  · rw [wfi_ends h level untrapped]
    simp [State.modCore, idle]
  · rw [wfi_ends h level untrapped]
    simp [State.modCore, pending]
  · intro wakes
    have ok := coreOk_of_coreRuns runs
    obtain ⟨goesOn, taken⟩ := wakeWfi_of_pending runs waits pending
    have wakesUp : ∀ i : Instr, exec i s = .next (s.wakeWfi c) → wakes i := fun i eq =>
      ⟨fun none => by rw [eq, goesOn none], fun code boundary some => by rw [eq, taken code boundary some]⟩
    refine ⟨wakesUp _ (onWf_true _ ok), fun due => wakesUp _ ?_, fun due => wakesUp _ ?_⟩
    · show onWf (coreOk c) (if (s.core c).timer s.now then s.wakeWfi c else s) = _
      rw [onWf_true _ ok, if_pos due]
    · show onWf (coreOk c) (if (s.core c).htimer s.now then s.wakeWfi c else s) = _
      rw [onWf_true _ ok, if_pos due]

/-- At a boundary at which a core samples interrupts nothing else is due, and a running core could execute. -/
theorem atBoundary_iff (s : State) (c : Nat) : s.atBoundary c = true ↔
    s.coreRuns c = true ∧ ((s.core c).run = .running ∨ (s.core c).run = .wfi) ∧ (s.core c).stall = .none ∧
    (s.core c).forced = false ∧ (s.core c).stepDue = false ∧ (s.core c).storeErr = none ∧ (s.core c).ueDue = false ∧
    ((s.core c).bcasts.any (·.stores.isSome)) = false := by
  simp [State.atBoundary, and_assoc]

theorem interrupt_of_normal {s : State} {c : Nat} (normal : swEm (s.core c).sw = false) (code : Nat) :
    s.interrupt c code = s.enterExc c (max ((s.core c).intLevel code) (swPl (s.core c).seenSw)) false (s.core c).seenSw
      { code := code } := by
  simp [State.interrupt, normal]

theorem interruptEntry_of_due {s : State} {c code : Nat} (boundary : s.atBoundary c = true) (due : s.intDue c = some code) :
    exec (.interruptEntry c) s = .next (s.interrupt c code) := by
  have runs := ((atBoundary_iff s c).mp boundary).1
  show execInterruptEntry c s = _
  simp [execInterruptEntry, onWf_true _ (coreOk_of_coreRuns runs), boundary, due]

theorem interruptEntry_of_none {s : State} {c : Nat} (boundary : s.atBoundary c = true) (due : s.intDue c = none) :
    exec (.interruptEntry c) s = .next s := by
  have runs := ((atBoundary_iff s c).mp boundary).1
  show execInterruptEntry c s = _
  simp [execInterruptEntry, onWf_true _ (coreOk_of_coreRuns runs), boundary, due]

/-- A running core at a boundary takes its interrupt before any instruction runs. -/
theorem coreStep_of_due {s : State} {c code : Nat} (boundary : s.atBoundary c = true) (due : s.intDue c = some code)
    (running : (s.core c).run = .running) (unmarked : (s.core c).tlbMark = false) (body : Ctx → Exec (Option Word)) :
    s.coreStep c body = s.interrupt c code := by
  obtain ⟨runs, -, unstalled, unforced, noStep, noErr, noUe, noBcast⟩ := (atBoundary_iff s c).mp boundary
  have can : s.canExec c = true := by simp [State.canExec, runs, running, unstalled, unforced, noBcast]
  have taken : s.boundary c = some (s.interrupt c code) := by simp [State.boundary, noErr, noStep, noUe, due]
  simp only [State.coreStep, can, unmarked, taken, Bool.not_true, Bool.false_eq_true, if_false]

theorem interruptEntry : Claims.InterruptEntry := by
  intro c s boundary normal sw
  refine ⟨fun code takes => ⟨?_, fun body running unmarked => ?_⟩, interruptEntry_of_none boundary⟩
  · rw [interruptEntry_of_due boundary takes, interrupt_of_normal normal]
  · rw [coreStep_of_due boundary takes running unmarked, interrupt_of_normal normal]

/-- Settles O22. -/
theorem waitingAndInterrupts : Obligations.WaitingAndInterrupts := ⟨waitForInterrupt, interruptEntry⟩

end Sys2Proof.Machine
end

section
/-! SUPPORT. The proofs of the statements about the gateway of enclaves: ENTER, the check of an entry, EXIT, forced exits, the
acknowledged save area and the reservoir; and what carrying out the cuts that waited for an enclave leaves of the cores and
enclaves. -/

namespace Sys2Proof.Machine

/-! ### Cuts that proceed (R349) -/

/-- What a cut that proceeds keeps: the enclaves, and the registers of every core with its forced exit. -/
structure CutFrame (s t : State) : Prop where
  enclaves : t.sec.enclaves = s.sec.enclaves
  core : ∀ g, (t.core g).SameRegs (s.core g) ∧ (t.core g).forced = (s.core g).forced

theorem Core.SameRegs.refl (k : Core) : k.SameRegs k := ⟨rfl, rfl, rfl, rfl, rfl, rfl, rfl, rfl, fun _ _ => rfl⟩
theorem Core.SameRegs.trans {k j i : Core} (h : k.SameRegs j) (l : j.SameRegs i) : k.SameRegs i := by
  obtain ⟨ha, hx, hy, hl, hp, hf, hv, hs, hr⟩ := h
  obtain ⟨la, lx, ly, ll, lp, lf, lv, ls, lr⟩ := l
  exact ⟨ha.trans la, hx.trans lx, hy.trans ly, hl.trans ll, hp.trans lp, hf.trans lf, hv.trans lv, hs.trans ls,
    fun n hn => (hr n hn).trans (lr n hn)⟩

theorem CutFrame.refl (s : State) : CutFrame s s := ⟨rfl, fun _ => ⟨.refl _, rfl⟩⟩
theorem CutFrame.trans {s t u : State} (h : CutFrame s t) (k : CutFrame t u) : CutFrame s u :=
  ⟨k.enclaves.trans h.enclaves, fun g => ⟨(k.core g).1.trans (h.core g).1, (k.core g).2.trans (h.core g).2⟩⟩

/-- A step that touches neither a core nor the security block. -/
theorem CutFrame.of_eq {s t : State} (cores : t.cores = s.cores) (sec : t.sec = s.sec) : CutFrame s t :=
  ⟨by rw [sec], fun _ => by rw [State.core, cores]; exact ⟨.refl _, rfl⟩⟩

theorem CutFrame.fold {α : Type} {f : State → α → State} (h : ∀ s a, CutFrame s (f s a)) (l : List α) (s : State) :
    CutFrame s (l.foldl f s) := foldl_related CutFrame.refl CutFrame.trans h l s

/-- A core loses or corrects lines of its arrays: its caches, frame map and notes of lost lines change. -/
structure Core.Cached (k k0 : Core) : Prop where
  rest : k = { k0 with
    l1d := k.l1d, l1i := k.l1i, l2 := k.l2, fmap := k.fmap, evict := k.evict, lostD := k.lostD, lost2 := k.lost2,
    ueDue := k.ueDue }

theorem Core.Cached.refl (k : Core) : k.Cached k := ⟨rfl⟩

theorem Core.Cached.sameRegs {k k0 : Core} (h : k.Cached k0) : k.SameRegs k0 ∧ k.forced = k0.forced := by
  rw [h.rest]
  exact ⟨⟨rfl, rfl, rfl, rfl, rfl, rfl, rfl, rfl, fun _ _ => rfl⟩, rfl⟩

theorem Core.Cached.trans {k j i : Core} (h : k.Cached j) (l : j.Cached i) : k.Cached i := by
  constructor
  rw [h.rest, l.rest]

theorem CutFrame.setCore {s : State} {g : Nat} {k : Core} (h : k.Cached (s.core g)) : CutFrame s (s.setCore g k) := by
  refine ⟨rfl, fun j => ?_⟩
  by_cases same : j = g
  · subst same
    rw [setCore_core_same]
    exact h.sameRegs
  · rw [setCore_core_ne _ _ _ _ same]
    exact ⟨.refl _, rfl⟩

theorem merge_cached (c : Core) (line : Nat) : (c.merge line).Cached c := by
  unfold Core.merge
  split
  · split <;> exact ⟨rfl⟩
  · exact .refl c

theorem dropFrames_cached (c : Core) (line : Nat) : (c.dropFrames line).Cached c := ⟨rfl⟩

theorem clearL1_cached (c : Core) (line : Nat) : (c.clearL1 line).Cached c := by
  unfold Core.clearL1
  extract_lets c1 c2
  have first : c1.Cached c := (dropFrames_cached _ line).trans (merge_cached c line)
  have second : c2.Cached c := by
    simp only [c2]
    split
    · exact Core.Cached.trans ⟨rfl⟩ first
    · exact first
  split
  · exact Core.Cached.trans ⟨rfl⟩ second
  · exact second

theorem leaveL1_cached (c : Core) (line : Nat) : (c.leaveL1 line).Cached c := by
  unfold Core.leaveL1
  extract_lets c1 c2 c3
  have first : c1.Cached c := dropFrames_cached c line
  have second : c2.Cached c := (merge_cached c1 line).trans first
  have third : c3.Cached c := by
    simp only [c3]
    split
    · split
      · exact Core.Cached.trans ⟨rfl⟩ second
      · exact second
    · exact first
  split
  · exact Core.Cached.trans ⟨rfl⟩ third
  · exact third

theorem stat_cores (s : State) (n : Nat) (f : Stat → Stat) : (s.stat n f).cores = s.cores := by
  unfold State.stat State.statRec
  split
  · rfl
  · dsimp only
    split <;> rfl

theorem stat_sec (s : State) (n : Nat) (f : Stat → Stat) : (s.stat n f).sec = s.sec := by
  unfold State.stat State.statRec
  split
  · rfl
  · dsimp only
    split <;> rfl

/-- A request takes a tag, counts and leaves: no core and no enclave changes. -/
theorem request_cores (s : State) (m : Instr) : (s.request m).cores = s.cores := by
  unfold State.request
  split
  · rfl
  · simp only [apply_ite State.cores, State.send_cores, State.postToken, stat_cores, State.setTag_cores, ite_self]

theorem request_sec (s : State) (m : Instr) : (s.request m).sec = s.sec := by
  unfold State.request
  split
  · rfl
  · simp only [apply_ite State.sec, State.send_sec, State.postToken, stat_sec, State.setTag_sec, ite_self]

/-- An eviction sends its request and moves the line into a buffer. -/
theorem evictAs_frame {s t : State} {g line : Nat} {how : GiveUp} (h : s.evictAs g line how = some t) : CutFrame s t := by
  unfold State.evictAs at h
  extract_lets c c1 at h
  have cleared : c1.Cached c := by
    simp only [c1]
    split
    · exact clearL1_cached c line
    · exact leaveL1_cached c line
  split at h
  · cases h
  split at h
  · cases h
  next k l _ =>
  simp only [State.coreIssue, State.issue, Option.map_map, Option.map_eq_some_iff] at h
  obtain ⟨hdr, -, rfl⟩ := h
  have leaves := CutFrame.of_eq (request_cores s (how.msg l.st hdr line)) (request_sec s (how.msg l.st hdr line))
  refine leaves.trans (.setCore (Core.Cached.trans ⟨rfl⟩ ?_))
  show c1.Cached ((s.request (how.msg l.st hdr line)).core g)
  rwa [State.core, request_cores]

theorem CutFrame.fault {s t : State} (h : CutFrame s t) (src : BitVec 16) (kind : BitVec 8) (tid : Option (BitVec 12))
    (addr : Nat) : CutFrame s (t.fault src kind tid addr) := h.trans (.of_eq rfl rfl)

theorem tagLost_frame (s : State) (g set : Nat) {f : Core → Core} (h : ∀ c, (f c).Cached c) :
    CutFrame s (s.tagLost g set f) :=
  (CutFrame.setCore (Core.Cached.trans ⟨rfl⟩ (h _))).fault ..

theorem checkTags_frame (s : State) (g line : Nat) : CutFrame s (s.checkTags g line) := by
  unfold State.checkTags
  extract_lets c inD in2 fix c1 s1 badD bad2 s2
  split
  · exact .refl s
  · have corrected : CutFrame s s1 := .setCore ⟨rfl⟩
    have lostD : CutFrame s1 s2 := CutFrame.fold (fun s e => tagLost_frame s g (line % 128) fun c => ⟨rfl⟩) badD s1
    refine (corrected.trans lostD).trans (CutFrame.fold (fun s e => ?_) bad2 s2)
    exact tagLost_frame s g (line % 1024) fun c => ⟨rfl⟩

theorem checkL1d_frame (s : State) (g line : Nat) : CutFrame s (s.checkL1d g line) := by
  unfold State.checkL1d
  extract_lets c
  split
  · exact .refl s
  · split
    · exact .refl s
    · extract_lets two c1
      refine (CutFrame.setCore ?_).fault ..
      simp only [c1]
      split <;> exact ⟨rfl⟩

theorem checkL2_frame (s : State) (g line : Nat) : CutFrame s (s.checkL2 g line) := by
  unfold State.checkL2
  extract_lets c
  split
  · exact .refl s
  · split
    · exact .refl s
    · dsimp only
      split
      next t given =>
        refine CutFrame.fault ?_ ..
        split at given
        · cases given
          exact .setCore ⟨rfl⟩
        · exact evictAs_frame given
      next => exact .refl s

theorem check_frame (s : State) (g line : Nat) : CutFrame s (s.check g line) := by
  unfold State.check
  extract_lets c s1 s2
  split
  · exact .refl s
  · have second : CutFrame s1 s2 := by
      simp only [s2]
      split
      · exact checkL1d_frame s1 g line
      · exact .refl s1
    exact ((checkTags_frame s g line).trans second).trans (checkL2_frame s2 g line)

theorem pushCore_frame (s : State) (g : Nat) : CutFrame s (s.pushCore g) :=
  CutFrame.fold (fun s l => by
    refine (check_frame s g l).trans ?_
    dsimp only
    cases given : (s.check g l).evictAs g l (.byState false) with
    | none => exact .refl _
    | some t => exact evictAs_frame given) _ s

theorem slotRead_frame (s : State) (h k : Nat) (l : SLine) : CutFrame s (s.slotRead h k l).2 := by
  unfold State.slotRead
  split
  · exact .refl s
  · exact .of_eq rfl rfl
  · exact .refl s
  · dsimp only
    split
    · exact .of_eq rfl rfl
    · exact .of_eq rfl rfl

theorem slotWrite_frame (s : State) (h k : Nat) (l : SLine) : CutFrame s (s.slotWrite h k l) := by
  unfold State.slotWrite
  split
  · exact (slotRead_frame s h k l).trans (.of_eq rfl rfl)
  · exact .refl s

theorem pushBank_frame (s : State) (d : Nat) : CutFrame s (s.pushBank d) :=
  CutFrame.fold (fun s h => CutFrame.fold (fun s e => by
    dsimp only
    split
    · exact (slotWrite_frame s h e.1 e.2).trans (.of_eq rfl rfl)
    · exact .refl s) _ s) _ s

theorem push_frame (s : State) (d : Nat) (off : Bool) : CutFrame s (s.push d off) := by
  unfold State.push
  split
  · split
    · exact pushCore_frame s d
    · exact .refl s
  · split
    · exact pushBank_frame s d
    · exact .refl s

theorem beginClose_frame (s : State) (d : Nat) (retain : Bool) : CutFrame s (s.beginClose d retain) := by
  refine CutFrame.trans ?_ (push_frame _ d _)
  exact .of_eq rfl rfl

theorem seqAsk_frame (s : State) (r : SeqReq) : CutFrame s (s.seqAsk r).2 := by
  unfold State.seqAsk
  dsimp only
  split
  · split <;> exact .of_eq rfl rfl
  · split <;> exact .of_eq rfl rfl

theorem sendEvent_frame (s : State) (op : Nat) (payload : List Byte) : CutFrame s (s.sendEvent op payload) := by
  unfold State.sendEvent
  dsimp only
  split
  · exact .refl s
  · split <;> exact .of_eq rfl rfl

theorem mgmtEnd_frame (s : State) (c : Chan) : CutFrame s (s.mgmtEnd c) := by
  refine CutFrame.trans ?_ (sendEvent_frame _ 4 _)
  exact .of_eq rfl rfl

theorem reportReq_frame (s : State) (r : SeqReq) (ok : Bool) (v code detail : Nat) :
    CutFrame s (s.reportReq r ok v code detail) := by
  unfold State.reportReq
  dsimp only
  split
  · split
    · exact mgmtEnd_frame ..
    · exact .refl s
  split
  · split
    · split <;> exact .of_eq rfl rfl
    · split <;> exact .of_eq rfl rfl
  · exact .refl s

theorem queueReq_frame (s : State) (r : SeqReq) : CutFrame s (s.queueReq r) := by
  have asked := seqAsk_frame s r
  unfold State.queueReq
  dsimp only
  split
  · exact asked
  · exact asked.trans (reportReq_frame ..)

theorem doCut_frame (s : State) (d cut : Nat) : CutFrame s (s.doCut d cut) := by
  unfold State.doCut
  split
  · split
    · exact beginClose_frame ..
    · exact .refl s
  · exact queueReq_frame ..

theorem releaseCuts_frame (s : State) : CutFrame s s.releaseCuts := by
  unfold State.releaseCuts
  extract_lets free left sec s1 s2 codes
  have taken : CutFrame s s1 := ⟨rfl, fun _ => ⟨.refl _, rfl⟩⟩
  have closes : CutFrame s1 s2 := CutFrame.fold (fun s (c : Nat × Nat × Nat) => doCut_frame s c.1 c.2.1) _ s1
  exact (taken.trans closes).trans (.fold (fun s c => doCut_frame s 0 c) codes s2)

/-! ### ENTER and the check of its entry (R129, R340) -/

theorem enter_slot {k : BitVec 16} (h : k.toNat < 32) : fld k 0 5 = k.toNat ∧ fld k 5 11 = 0 := by
  simp only [fld, bitsOf]
  omega

theorem enter_inside {c : Nat} {k : BitVec 16} {s s1 s2 s3 : State} {x : Ctx} {tgt e : Word} (slot : k.toNat < 32)
    (even : k.toNat % 2 = 0) (h : Fetches c s x s1) (first : slotRead x k.toNat s1 = .ok tgt s2)
    (second : slotRead x (k.toNat + 1) s2 = .ok e s3) (inside : x.em = true) :
    exec (.enter c k) s = .next ((s3.undo c).takeExc c x.sw { code := 0x53 }) := by
  obtain ⟨low, high⟩ := enter_slot slot
  exact coreStep_raises h (by simp [exec_bind, low, high, even, first, second, inside])

theorem enter_evicted {c : Nat} {k : BitVec 16} {s s1 s2 s3 : State} {x : Ctx} {tgt e : Word} (slot : k.toNat < 32)
    (even : k.toNat % 2 = 0) (h : Fetches c s x s1) (first : slotRead x k.toNat s1 = .ok tgt s2)
    (second : slotRead x (k.toNat + 1) s2 = .ok e s3) (outside : x.em = false)
    (evicted : (s3.enclave (e.toNat % 1024)).st = .evicted) :
    exec (.enter c k) s = .next ((s3.undo c).takeExc c x.sw { code := 0x52 }) := by
  obtain ⟨low, high⟩ := enter_slot slot
  exact coreStep_raises h (by simp [exec_bind, low, high, even, first, second, outside, evicted])

/-- An ENTER that passes the core's checks waits for the security block's. The binds are taken one by one, so that the gate's
word stays a variable where it is tested. -/
theorem enter_asks {c : Nat} {k : BitVec 16} {s s1 s2 s3 s4 s5 : State} {x : Ctx} {tgt e : Word} {tr : Tr}
    {b : Option (Option Nat)} {l : LineData} (slot : k.toNat < 32) (even : k.toNat % 2 = 0) (h : Fetches c s x s1)
    (first : slotRead x k.toNat s1 = .ok tgt s2) (second : slotRead x (k.toNat + 1) s2 = .ok e s3) (outside : x.em = false)
    (ready : (s3.enclave (e.toNat % 1024)).st = .ready) (mapped : translateRaw x .fetch tgt s3 = .ok (tr, b) s4)
    (aligned : tgt.toNat % 4 = 0) (line : readLine x (tr.pa / 64) tr.uc .instr s4 = .ok (.inl l) s5)
    (good : l.poison = false) (gate : isGateWord (lineBytes l (tr.pa % 64) 4) = true) (seeds : (s5.core c).reservoir ≠ []) :
    ∃ g : BitVec 16, exec (.enter c k) s = .next ((s5.modCore c fun j => { j with
      stall := .gate (e.setWidth 10) tgt g tr.pa }).send (.gateCheck c (e.setWidth 10) tgt g)) := by
  obtain rfl := ctx_core_of_fetches h
  obtain ⟨low, high⟩ := enter_slot slot
  have lawful : legal (fld k 5 11 == 0 && fld k 0 5 % 2 == 0) s1 = .ok () s1 := by simp [low, high, even]
  refine ⟨BitVec.ofNat 16 (lineBytes l (tr.pa % 64) 4), coreStep_stalls h ?_⟩
  rw [exec_bind_ok lawful, low, exec_bind_ok first, exec_bind_ok second, if_neg (by simp [outside]),
    exec_bind_ok (exec_get s3)]
  dsimp only
  rw [if_neg (by simp [ready]), if_neg (by simp [ready]), exec_bind_ok mapped]
  dsimp only
  rw [if_neg (by simp [fld_zero_two, aligned]), exec_bind_ok line]
  dsimp only
  generalize lineBytes l (tr.pa % 64) 4 = w at gate ⊢
  simp [exec_bind, good, gate, seeds]

theorem coreOk_of_lt {c : Nat} (h : c < 576) : coreOk c = true := by simp [coreOk, h]

theorem gateCheck_enters {c : Nat} {eid : BitVec 10} {tgt : Word} {gate : BitVec 16} {pa i : Nat} {n : Entry} {s : State}
    (core : c < 576) (may : s.mayArrive (.gateCheck c eid tgt gate) = true) (stalled : (s.core c).stall = .gate eid tgt gate pa)
    (runs : s.coreRuns c = true) (ready : (s.enclave eid.toNat).st = .ready)
    (entry : (s.enclave eid.toNat).gateEntry tgt gate = some (i, n)) (owned : s.ownerOf pa = some eid.toNat)
    (idle : n.run = .idle) : exec (.gateCheck c eid tgt gate) s = .next
      (((s.arrive (.gateCheck c eid tgt gate)).setEntry eid.toNat i (.running c)).gatePasses c
        ((s.core c).enterIdle eid.toNat i n) (tgt + 4)) := by
  have enclave : (s.arrive (.gateCheck c eid tgt gate)).enclave eid.toNat = s.enclave eid.toNat := rfl
  have owner : (s.arrive (.gateCheck c eid tgt gate)).ownerOf pa = s.ownerOf pa := rfl
  have running : (s.arrive (.gateCheck c eid tgt gate)).coreRuns c = s.coreRuns c := rfl
  show execGateCheck c eid tgt gate s = _
  simp [execGateCheck, onArrival, onWf_true _ (coreOk_of_lt core), may, stalled, running, runs, State.gateCheck, enclave, ready,
    entry, owner, owned, idle]

/-! ### EXIT and forced exits (R130, R341, R351) -/

theorem exit_outside {c : Nat} {s s1 : State} {x : Ctx} (h : Fetches c s x s1) (outside : x.em = false) :
    exec (.exit c 0) s = .next ((s1.undo c).takeExc c x.sw { code := 0x54 }) :=
  coreStep_raises h (by simp [exec_bind, outside])

theorem exit_inside {c : Nat} {s s1 : State} {x : Ctx} (h : Fetches c s x s1) (inside : x.em = true) :
    exec (.exit c 0) s = .next ((((((s1.leaveEntry c).modCore c fun k => k.gateOut 0).hazeFlush c).event c
      (setBit x.sw 2 false) 0x001).releaseCuts).ends c x ((s1.core c).reg 0x101)) := by
  obtain rfl := ctx_core_of_fetches h
  exact coreStep_completes h (by simp [exec_bind, inside])

theorem enclaveGateway : Claims.EnclaveGateway := by
  refine ⟨fun c k s s1 s2 s3 x tgt e tr b slot even h first second => ⟨?_, ?_, ?_⟩, ?_, ?_⟩
  · exact fun inside => enter_inside slot even h first second inside
  · exact fun outside evicted => enter_evicted slot even h first second outside evicted
  · exact fun _ outside ready mapped aligned _ _ line good gate seeds =>
      enter_asks slot even h first second outside ready mapped aligned line good gate seeds
  · exact fun _ _ _ _ _ _ _ _ core may stalled runs ready entry owned idle =>
      gateCheck_enters core may stalled runs ready entry owned idle
  · exact fun _ _ _ _ h => ⟨exit_outside h, exit_inside h⟩

theorem leaveEntry_core (s : State) (c g : Nat) : (s.leaveEntry c).core g = s.core g := by
  unfold State.leaveEntry State.setEntry
  dsimp only
  split <;> rfl

/-- What a forced exit makes of its core (R351). -/
def Core.forcedOut (k : Core) : Core :=
  { (k.gateOut (2 ^ 63)) with a := 0, x := 0, l := 0, p := k.reg 0x101, run := .running, stepDue := false, storeErr := none }

theorem gateOut_normal (k : Core) (status : Nat) : swEm (k.gateOut status).sw = false := by
  show bit (setBit (setBit k.sw 2 false) 8 false) 2 = false
  rw [bit_setBit _ _ _ _ (by decide), bit_setBit _ _ _ _ (by decide)]
  rfl

theorem forcedExit_eq {c : Nat} {s : State} (runs : s.coreRuns c = true) (forced : (s.core c).forced = true)
    (unstalled : (s.core c).stall = .none) (running : (s.core c).run = .running) (inside : swEm (s.core c).sw = true) :
    exec (.forcedExit c) s = .next ((s.leaveEntry c).modCore c Core.forcedOut).releaseCuts := by
  show execForcedExit c s = _
  simp [execForcedExit, onWf_true _ (coreOk_of_coreRuns runs), runs, forced, unstalled, running, inside]
  rfl

/-- Of one enclave of one entry, the entry whose core has left becomes INTERRUPTED. -/
theorem saveAreaAcked_interrupts {c e i : Nat} {n : Entry} {x : Enclave} {s : State} (core : c < 576)
    (enclaves : s.sec.enclaves = [(e, x)]) (entries : x.entries = [(i, n)]) (ready : x.st = .ready)
    (run : n.run = .running c) (left : swEm (s.core c).sw = false) (may : s.mayArrive (.saveAreaAcked c) = true) :
    ∃ t : State, exec (.saveAreaAcked c) s = .next t.releaseCuts ∧
      t.sec.enclaves = [(e, { x with entries := [(i, { n with run := .interrupted })] })] := by
  refine ⟨{ s.arrive (.saveAreaAcked c) with sec := { s.sec with
    enclaves := [(e, { x with entries := [(i, { n with run := .interrupted })] })] } }, ?_, rfl⟩
  show execSaveAreaAcked c s = _
  simp [execSaveAreaAcked, onArrival, onWf_true _ (coreOk_of_lt core), may, enclaves, entries, ready, run, left]

theorem enclaveExits : Claims.EnclaveExits := by
  refine ⟨fun c s runs forced unstalled running inside => ?forced,
    fun c e i n x s core enclaves entries ready run normal may => ?ack, fun c a b d s core room ha hb hd => ?refill⟩
  case forced =>
    refine ⟨_, forcedExit_eq runs forced unstalled running inside, ?_⟩
    obtain ⟨same, kept⟩ := (releaseCuts_frame ((s.leaveEntry c).modCore c Core.forcedOut)).core c
    rw [modCore_core_same, leaveEntry_core] at same kept
    obtain ⟨ha, hx, hy, hl, hp, -, hv, hs, -⟩ := same
    exact ⟨ha, hx, hy, hl, hv, hp, hs ▸ gateOut_normal (s.core c) (2 ^ 63), kept⟩
  case ack =>
    obtain ⟨t, acked, interrupted⟩ := saveAreaAcked_interrupts core enclaves entries ready run normal may
    refine ⟨_, acked, ?_⟩
    rw [State.enclave, (releaseCuts_frame t).enclaves, interrupted]
    simp [tget, tfind?]
  case refill =>
    show execSeedTripleRefill c a b d s = _
    simp only [execSeedTripleRefill, onWf_true _ (coreOk_of_lt core), room, bne_iff_ne.mpr ha, bne_iff_ne.mpr hb,
      bne_iff_ne.mpr hd, decide_true, Bool.and_true, if_true]

/-- Settles O28. -/
theorem enclaveEntryAndExit : Obligations.EnclaveEntryAndExit := ⟨enclaveGateway, enclaveExits⟩

end Sys2Proof.Machine
end

section
/-! SUPPORT. What a core does besides instructions (R140, R157, R179, R212): the proofs of what mispredictions, Haze promotion and
walks do and of an eviction whose line lies in one way, and the refutation of the statement about a line that lies in two. -/

namespace Sys2Proof.Machine

/-! ### What counting and training leave (R154, R159) -/

theorem Core.Counted.sameRegs {k k0 : Core} (h : k.Counted k0) : k.SameRegs k0 := by
  have reg := h.reg
  rw [h.rest] at reg ⊢
  exact ⟨rfl, rfl, rfl, rfl, rfl, rfl, rfl, rfl, fun n hn => reg n (by omega)⟩

theorem addPmc_haze (c : Core) (i n k : Nat) : (c.addPmc i n k).haze = c.haze := by
  unfold Core.addPmc
  extract_lets v c1 c2
  split
  · split <;> rfl
  · rfl

@[simp] theorem event_haze (s : State) (g : Nat) (sw : Word) (ev k : Nat) :
    ((s.event g sw ev k).core g).haze = (s.core g).haze := by
  unfold State.event Core.event
  rw [modCore_core_same]
  refine List.foldlRecOn (motive := fun c : Core => c.haze = (s.core g).haze) _ _ rfl fun c kept n _ => ?_
  rw [apply_ite Core.haze, addPmc_haze, ite_self, kept]

theorem resolve_haze (c : Core) (x : Ctx) (kind : Transfer) (target : Word) (taken : Bool) :
    (c.resolve x kind target taken).haze = c.haze := by
  unfold Core.resolve
  extract_lets ctl base tag step pred c1 i pred1 c2 pred2
  have entered : c1.haze = c.haze := by
    simp only [c1]
    split
    · rfl
    · split <;> rfl
  have targeted : c2.haze = c.haze := by
    simp only [c2, pred1, apply_ite Core.haze, ite_self, entered]
  simp only [apply_ite Core.haze, ite_self, targeted]

/-- A step of core `c` that keeps the cache hierarchy, every other core, and its own registers but the counters. -/
structure CoreFrame (c : Nat) (s t : State) : Prop where
  hier : t.hier = s.hier
  others : ∀ g, g ≠ c → t.core g = s.core g
  regs : (t.core c).SameRegs (s.core c)

theorem CoreFrame.refl (c : Nat) (s : State) : CoreFrame c s s := ⟨rfl, fun _ _ => rfl, .refl _⟩
theorem CoreFrame.trans {c : Nat} {s t u : State} (h : CoreFrame c s t) (k : CoreFrame c t u) : CoreFrame c s u :=
  ⟨k.hier.trans h.hier, fun g hg => (k.others g hg).trans (h.others g hg), k.regs.trans h.regs⟩

theorem CoreFrame.modCore {c : Nat} {s : State} {f : Core → Core} (h : (f (s.core c)).SameRegs (s.core c)) :
    CoreFrame c s (s.modCore c f) :=
  ⟨rfl, fun g hg => setCore_core_ne _ _ _ _ hg, by rwa [modCore_core_same]⟩

theorem event_frame (c : Nat) (s : State) (sw : Word) (ev k : Nat) : CoreFrame c s (s.event c sw ev k) :=
  ⟨rfl, fun _ hg => setCore_core_ne _ _ _ _ hg, (event_counted s c sw ev k).sameRegs⟩

/-- Wrong-path transfers train the predictor: no register and no Haze entry. -/
theorem wrongPath_frame (c : Nat) (s : State) :
    CoreFrame c s (s.wrongPath c) ∧ ((s.wrongPath c).core c).haze = (s.core c).haze := by
  unfold State.wrongPath
  extract_lets x
  refine List.foldlRecOn (motive := fun t => CoreFrame c s t ∧ (t.core c).haze = (s.core c).haze) _ _
    ⟨⟨rfl, fun _ _ => rfl, .refl _⟩, rfl⟩ fun t kept i _ => ⟨kept.1.trans (.modCore (resolve_sameRegs ..)), ?_⟩
  rw [modCore_core_same, resolve_haze, kept.2]

/-! ### The Haze buffer (R157) -/

theorem sameRegs_haze (k : Core) (es : List HazeEntry) : ({ k with haze := es } : Core).SameRegs k :=
  ⟨rfl, rfl, rfl, rfl, rfl, rfl, rfl, rfl, fun _ _ => rfl⟩

theorem hazeFlush_haze (s : State) (c : Nat) :
    ((s.hazeFlush c).core c).haze = (s.core c).haze.filter (·.promoted) := by
  unfold State.hazeFlush
  extract_lets k n
  split
  next none =>
    have promoted : k.haze.filter (fun e => !e.promoted) = [] := by simpa [n] using none
    refine (List.filter_eq_self.mpr fun e he => ?_).symm
    simpa using List.filter_eq_nil_iff.mp promoted e he
  next => simp [k]

theorem hazeFlush_frame (c : Nat) (s : State) : CoreFrame c s (s.hazeFlush c) := by
  unfold State.hazeFlush
  extract_lets k n
  split
  · exact .refl c s
  · exact (event_frame ..).trans (.modCore (sameRegs_haze _ _))

/-- An entry of a line whose user is proven (R157). -/
def HazeEntry.proves (line : Nat) (e : HazeEntry) : HazeEntry := if e.line == line then { e with promoted := true } else e

theorem prove_frame {c line : Nat} {s : State} {x : Ctx} (core : x.g = c) : CoreFrame c s (s.prove x line) := by
  subst core
  unfold State.prove
  split
  · exact (event_frame ..).trans (.modCore (sameRegs_haze _ _))
  · exact .refl _ _

theorem prove_haze {line : Nat} {s : State} {x : Ctx}
    (entry : ((s.core x.g).haze.any fun e => e.line == line && !e.promoted) = true) :
    ((s.prove x line).core x.g).haze = (s.core x.g).haze.map (HazeEntry.proves line) := by
  rw [State.prove, if_pos entry, modCore_core_same, event_haze]
  rfl

theorem hazeCheck_frame (c line : Nat) (s : State) (d : LineData) : CoreFrame c s (s.hazeCheck c line d) := by
  unfold State.hazeCheck
  extract_lets k
  split
  · exact .refl c s
  · have freed : CoreFrame c s (s.setCore c { k with haze := k.haze.filter fun e => !(e.line == line && e.promoted) }) :=
      .modCore (f := fun k => { k with haze := k.haze.filter fun e => !(e.line == line && e.promoted) })
        (sameRegs_haze _ _)
    split
    · exact freed.trans (event_frame ..)
    · exact freed

theorem hazeCheck_haze (c line : Nat) (s : State) (d : LineData) : ((s.hazeCheck c line d).core c).haze =
    (s.core c).haze.filter fun e => !(e.line == line && e.promoted) := by
  unfold State.hazeCheck
  extract_lets k
  split
  next none =>
    refine (List.filter_eq_self.mpr fun e he => ?_).symm
    simpa [Decidable.imp_iff_not_or] using List.find?_eq_none.mp none e he
  next freed _ _ _ =>
    have frees : (freed.core c).haze = k.haze.filter fun e => !(e.line == line && e.promoted) := by
      simp only [freed, setCore_core_same]
    split
    · rw [event_haze, frees]
    · exact frees

/-- The proven entries of a line are all of its entries. -/
theorem filter_map_proves (line : Nat) (es : List HazeEntry) :
    ((es.map (HazeEntry.proves line)).filter fun e => !(e.line == line && e.promoted)) = es.filter fun e => e.line != line := by
  induction es with
  | nil => rfl
  | cons e es ih =>
    rw [List.map_cons]
    by_cases h : e.line = line
    · rw [List.filter_cons_of_neg (by simp [HazeEntry.proves, h]), List.filter_cons_of_neg (by simp [h]), ih]
    · rw [List.filter_cons_of_pos (by simp [HazeEntry.proves, h]), List.filter_cons_of_pos (by simp [h]), ih]
      simp [HazeEntry.proves, h]

theorem coreRuns_of_canExec {s : State} {c : Nat} (can : s.canExec c = true) : s.coreRuns c = true := by
  simp only [State.canExec, Bool.and_eq_true] at can
  obtain ⟨⟨⟨⟨runs, -⟩, -⟩, -⟩, -⟩ := can
  exact runs

theorem brMispred_discards {c : Nat} (ind : Bool) {s : State} (can : s.canExec c = true) :
    ∃ t, exec (.brMispred c ind) s = .next t ∧ (t.core c).haze = (s.core c).haze.filter (·.promoted) ∧
      CoreFrame c s t := by
  let counted := s.event c (s.core c).seenSw 0x005
  let both := if ind then counted.event c (s.core c).seenSw 0x006 else counted
  have counts : CoreFrame c s both ∧ (both.core c).haze = (s.core c).haze := by
    simp only [both, counted]
    split
    · exact ⟨(event_frame ..).trans (event_frame ..), by rw [event_haze, event_haze]⟩
    · exact ⟨event_frame .., event_haze ..⟩
  obtain ⟨trains, kept⟩ := wrongPath_frame c both
  refine ⟨(both.wrongPath c).hazeFlush c, ?_, ?_, (counts.1.trans trains).trans (hazeFlush_frame c _)⟩
  · show execBrMispred c ind s = _
    rw [execBrMispred, onWf_true _ (coreOk_of_coreRuns (coreRuns_of_canExec can)), if_pos can]
  · rw [hazeFlush_haze, kept, counts.2]

/-- The user of a line's entry is proven, and with it the core's instruction (R157). -/
def State.promote (s : State) (c line : Nat) : State :=
  (s.prove ((s.core c).ctx c) line).modCore c fun k => { k with proven := true }

theorem promote_frame (s : State) (c line : Nat) : CoreFrame c s (s.promote c line) := by
  refine CoreFrame.trans (prove_frame rfl) (.modCore ?_)
  exact ⟨rfl, rfl, rfl, rfl, rfl, rfl, rfl, rfl, fun _ _ => rfl⟩

theorem promote_haze {s : State} {c line : Nat}
    (entry : ((s.core c).haze.any fun e => e.line == line && !e.promoted) = true) :
    ((s.promote c line).core c).haze = (s.core c).haze.map (HazeEntry.proves line) := by
  rw [State.promote, modCore_core_same]
  exact prove_haze (x := (s.core c).ctx c) entry

section
variable {c line : Nat} {s : State} (lt : line < 2 ^ 46) (runs : s.coreRuns c = true)
  (entry : ((s.core c).haze.any fun e => e.line == line && !e.promoted) = true)
include lt runs entry

theorem hazePromote_held {l : CLine} (held : (s.core c).l2Line line = some l) :
    exec (.hazePromote c line) s = .next ((s.promote c line).hazeCheck c line ⟨l.bytes, l.poison⟩) := by
  show execHazePromote c line s = _
  rw [execHazePromote, onWf_true _ (by simp [coreOk_of_coreRuns runs, lineOk, lt, -Nat.reducePow])]
  simp only [runs, entry, held, Bool.and_self, if_true]
  rfl

theorem hazePromote_asks {h : Hdr} {t : State} (lacks : (s.core c).l2Line line = none) (idle : (s.core c).waits line = false)
    (issued : (s.promote c line).fillIssue c line 1 false .data
      (fun h => .rds h line false (((s.core c).ctx c).hint (s.core c))) = some (h, t)) :
    exec (.hazePromote c line) s = .next t := by
  show execHazePromote c line s = _
  rw [execHazePromote, onWf_true _ (by simp [coreOk_of_coreRuns runs, lineOk, lt, -Nat.reducePow])]
  rw [State.promote] at issued
  simp only [runs, entry, lacks, idle, issued, Bool.and_self, Bool.false_eq_true, if_true, if_false]

end

/-- The statement's half about mispredictions and the Haze buffer. -/
theorem speculationRows : Claims.SpeculationRows := by
  refine ⟨fun c ind s can => ?_, fun c line s lt runs entry => ⟨fun held => ?_, fun h t lacks idle issued => ?_⟩⟩
  · obtain ⟨t, ends, haze, frame⟩ := brMispred_discards ind can
    exact ⟨t, ends, haze, frame.regs, frame.hier, frame.others⟩
  · obtain ⟨l, held⟩ := Option.isSome_iff_exists.mp held
    have frame := (promote_frame s c line).trans (hazeCheck_frame c line _ ⟨l.bytes, l.poison⟩)
    refine ⟨_, hazePromote_held lt runs entry held, ?_, frame.regs, frame.hier⟩
    rw [hazeCheck_haze, promote_haze entry, filter_map_proves]
  · exact hazePromote_asks lt runs entry lacks idle issued

/-! ### Walks (R179, R184) -/

/-- A walk leaves what its translation filled or asked for, and nothing where the translation raises an exception. -/
theorem pageWalk_outcomes {c : Nat} {s : State} (va : Word) (acc : Access) (can : s.canExec c = true)
    (level : ((s.core c).ctx c).pl ≠ 2) (on : ((s.core c).ctx c).s1On = true) :
    (∀ v t, translateRaw ((s.core c).ctx c) acc va s = .ok v t → exec (.pageWalk c va acc) s = .next t) ∧
    (∀ t, translateRaw ((s.core c).ctx c) acc va s = .error .wait t → exec (.pageWalk c va acc) s = .next t) ∧
    (∀ e t, translateRaw ((s.core c).ctx c) acc va s = .error (.exc e) t → exec (.pageWalk c va acc) s = .next s) := by
  have runs := coreOk_of_coreRuns (coreRuns_of_canExec can)
  refine ⟨fun v t ran => ?_, fun t ran => ?_, fun e t ran => ?_⟩
  all_goals
    show execPageWalk c va acc s = _
    simp [execPageWalk, onWf_true _ runs, can, level, on, ran]

/-! ### Evictions (R212) -/

/-- Way `i` of the L2 holds a line. -/
def Core.L2At (c : Core) (line i : Nat) : Prop := (tfind? c.l2 i).map (·.line) = some line

/-- No two ways of the L2 hold a line. -/
def Core.OneWay (c : Core) (line : Nat) : Prop := ∀ i j, c.L2At line i → c.L2At line j → i = j

theorem inL2_some {c : Core} {line k : Nat} {l : CLine} (h : c.inL2 line = some (k, l)) :
    tfind? c.l2 k = some l ∧ c.L2At line k := by
  obtain ⟨w, -, found⟩ := List.exists_of_findSome?_eq_some h
  split at found
  next m at_w =>
    split at found
    next same =>
      cases found
      exact ⟨at_w, by simp [Core.L2At, at_w, eq_of_beq same]⟩
    next => cases found
  next => cases found

theorem inL2_none_iff (c : Core) (line : Nat) :
    c.inL2 line = none ↔ ∀ w < 16, ¬ c.L2At line (line % 1024 * 16 + w) := by
  simp only [Core.inL2, arrFind, List.findSome?_eq_none_iff, List.mem_range, Core.L2At]
  refine forall_congr' fun w => imp_congr_right fun _ => ?_
  cases tfind? c.l2 (line % 1024 * 16 + w) with
  | none => simp
  | some l => simp

/-- The evict-pending buffers and the lines that the L2's ways hold are those of another state of the core. -/
structure Core.SameL2 (k k0 : Core) : Prop where
  evict : k.evict = k0.evict
  ways : ∀ line i, k.L2At line i ↔ k0.L2At line i

theorem Core.SameL2.refl (k : Core) : k.SameL2 k := ⟨rfl, fun _ _ => .rfl⟩
theorem Core.SameL2.trans {k j i : Core} (h : k.SameL2 j) (l : j.SameL2 i) : k.SameL2 i :=
  ⟨h.evict.trans l.evict, fun line w => (h.ways line w).trans (l.ways line w)⟩

/-- Merging writes the copy that the L2 has in the way where it lies. -/
theorem merge_sameL2 (c : Core) (line : Nat) : (c.merge line).SameL2 c := by
  unfold Core.merge
  split
  next k l j m _ held =>
    split
    · refine ⟨rfl, fun line' i => ?_⟩
      by_cases same : i = j
      · subst same
        simp [Core.L2At, (inL2_some held).1]
      · simp [Core.L2At, tfind_tput_ne _ _ _ _ same]
    · exact .refl c
  next => exact .refl c

theorem leaveL1_sameL2 (c : Core) (line : Nat) : (c.leaveL1 line).SameL2 c := by
  unfold Core.leaveL1
  extract_lets c1 c2 c3
  have merged : c2.SameL2 c := (merge_sameL2 c1 line).trans ⟨rfl, fun _ _ => .rfl⟩
  have left : c3.SameL2 c := by
    simp only [c3]
    split
    · split
      · exact ⟨merged.evict, merged.ways⟩
      · exact merged
    · exact ⟨rfl, fun _ _ => .rfl⟩
  split
  · exact ⟨left.evict, left.ways⟩
  · exact left

theorem Core.SameL2.inL2_isSome {k k0 : Core} (h : k.SameL2 k0) (line : Nat) :
    (k.inL2 line).isSome = (k0.inL2 line).isSome := by
  have absent : k.inL2 line = none ↔ k0.inL2 line = none := by
    rw [inL2_none_iff, inL2_none_iff]
    exact forall_congr' fun w => imp_congr_right fun _ => not_congr (h.ways line _)
  rw [Bool.eq_iff_iff, Option.isSome_iff_ne_none, Option.isSome_iff_ne_none]
  exact not_congr absent

/-- A line of one way is gone once that way is. -/
theorem inL2_tdel_of_oneWay {c : Core} {line k : Nat} {es : List EvictBuf} (one : c.OneWay line) (held : c.L2At line k) :
    ({ c with l2 := tdel c.l2 k, evict := es } : Core).inL2 line = none := by
  rw [inL2_none_iff]
  intro w _ found
  by_cases same : line % 1024 * 16 + w = k
  · simp [Core.L2At, same] at found
  · rw [Core.L2At, tfind_tdel_ne _ _ _ same] at found
    exact same (one _ _ found held)

theorem giveUp_reqInfo (how : GiveUp) (st : L2St) (h : Hdr) (line : Nat) :
    reqInfo (how.msg st h line) = some (h, line, false) := by
  unfold GiveUp.msg
  split
  · rfl
  · split
    · rfl
    · split <;> rfl

/-- A request for a populated line leaves its node. -/
theorem request_sends {s : State} {m : Instr} {h : Hdr} {line : Nat} {wl : Bool} (info : reqInfo m = some (h, line, wl))
    (populated : line < s.dramLines) : m ∈ (s.request m).inflight := by
  simp only [State.request, info, populated, decide_true, Bool.true_or, if_true, send_inflight]
  exact List.mem_append_right _ (List.mem_singleton_self m)

/-- Where one way holds it, an evicted line leaves the L2 for an evict-pending buffer with the request that R212 asks for by its
state. -/
theorem l2Evict_of_oneWay {c line : Nat} {s : State} (core : c < 576) (lt : line < 2 ^ 46) (may : s.mayDrain c = true)
    (sound : s.check c line = s) (held : ((s.core c).inL2 line).isSome = true) (on : (s.core c).l2On = true)
    (room : (s.core c).evict.length < 16) (settled : (s.core c).awaitsGo line = false) (tag : (s.freeTag c).isSome = true)
    (one : (s.core c).OneWay line) :
    ∃ t h l k, ((s.core c).leaveL1 line).inL2 line = some (k, l) ∧ exec (.l2Evict c line) s = .next t ∧
      (t.core c).inL2 line = none ∧
      (t.core c).evict = (s.core c).evict ++ [⟨line, l.st, l.bytes, l.poison, h.tag⟩] ∧
      (line < s.dramLines → (s.core c).giveUpWay.msg l.st h line ∈ t.inflight) := by
  have same := leaveL1_sameL2 (s.core c) line
  obtain ⟨⟨k, l⟩, found⟩ := Option.isSome_iff_exists.mp ((same.inL2_isSome line).trans held)
  obtain ⟨n, free⟩ := Option.isSome_iff_exists.mp tag
  let h : Hdr := ⟨c, n, (s.tag c n).gen, (s.core c).tid, (s.core c).cls⟩
  let gone : Core := { (s.core c).leaveL1 line with
    l2 := tdel ((s.core c).leaveL1 line).l2 k
    evict := ((s.core c).leaveL1 line).evict ++ [⟨line, l.st, l.bytes, l.poison, h.tag⟩] }
  have evicts : s.evictAs c line (s.core c).giveUpWay =
      some ((s.request ((s.core c).giveUpWay.msg l.st h line)).setCore c gone) := by
    have byState : ((s.core c).giveUpWay == GiveUp.drop) = false := rfl
    simp [State.evictAs, Nat.not_le.mpr room, settled, byState, found, State.coreIssue, State.issue, State.newHdr, free, h, gone]
  refine ⟨(s.request ((s.core c).giveUpWay.msg l.st h line)).setCore c gone, h, l, k, found, ?_, ?_, ?_, fun populated => ?_⟩
  · show execL2Evict c line s = _
    rw [execL2Evict, onWf_true _ (by simp [coreOk, lineOk, core, lt, -Nat.reducePow])]
    simp only [may, held, on, sound, Bool.and_self, if_true, State.evictLine, evicts, Option.getD_some]
  · rw [setCore_core_same]
    exact inL2_tdel_of_oneWay (fun i j hi hj => one i j ((same.ways line i).mp hi) ((same.ways line j).mp hj)) (inL2_some found).2
  · rw [setCore_core_same, ← same.evict]
  · exact request_sends (giveUp_reqInfo ..) populated

theorem mem_of_tfind {α : Type} {t : Table α} {k : Nat} {v : α} (h : tfind? t k = some v) : (k, v) ∈ t := by
  induction t with
  | nil => cases h
  | cons e t ih =>
    obtain ⟨j, u⟩ := e
    by_cases same : j = k
    · subst same
      simp only [tfind?, if_true, Option.some.injEq] at h
      exact h ▸ List.mem_cons_self
    · exact List.mem_cons_of_mem _ (ih (by simpa [tfind?, same] using h))

/-- A line that every entry of the L2's table has at one way. -/
theorem oneWay_of_entries {c : Core} {line k : Nat} (h : ∀ e ∈ c.l2, e.2.line = line → e.1 = k) : c.OneWay line := by
  have at_k : ∀ i, c.L2At line i → i = k := fun i held => by
    obtain ⟨l, found, same⟩ := Option.map_eq_some_iff.mp held
    exact h _ (mem_of_tfind found) same
  exact fun i j hi hj => (at_k i hi).trans (at_k j hj).symm

/-- A modified line that lies in one way is evicted. -/
theorem witness_evict : ∃ t, exec (.l2Evict 0 1) (cacheState .m id) = .next t ∧ (t.core 0).inL2 1 = none := by
  obtain ⟨may, sound, held, on, room, settled, tag⟩ : (cacheState .m id).mayDrain 0 = true ∧
    (cacheState .m id).check 0 1 = cacheState .m id ∧ (((cacheState .m id).core 0).inL2 1).isSome = true ∧
    ((cacheState .m id).core 0).l2On = true ∧ ((cacheState .m id).core 0).evict.length < 16 ∧
    ((cacheState .m id).core 0).awaitsGo 1 = false ∧ ((cacheState .m id).freeTag 0).isSome = true := by decide +kernel
  obtain ⟨t, -, -, -, -, ends, gone, -⟩ :=
    l2Evict_of_oneWay (by decide) (by decide) may sound held on room settled tag
      (oneWay_of_entries (k := 16) (by decide +kernel))
  exact ⟨t, ends, gone⟩

/-! ### A line in two ways (R212) -/

/-- The L2 holds line 1 in two ways of set 1, which no fill brings about. -/
def twoWaysState : State := cacheState .s fun c => { c with l2 := tput c.l2 17 ⟨1, .s, 5, false, false, .none⟩ }

theorem twoWaysState_mayEvict : twoWaysState.mayDrain 0 = true ∧ twoWaysState.check 0 1 = twoWaysState ∧
    ((twoWaysState.core 0).inL2 1).isSome = true ∧ (twoWaysState.core 0).l2On = true ∧
    (twoWaysState.core 0).evict.length < 16 ∧ (twoWaysState.core 0).awaitsGo 1 = false ∧
    (twoWaysState.freeTag 0).isSome = true := by decide +kernel

/-- The eviction frees one way, and the L2 still finds the line in the other. -/
theorem twoWaysState_keeps : nextIs (exec (.l2Evict 0 1) twoWaysState) (fun t => ((t.core 0).inL2 1).isSome) = true := by
  decide +kernel

/-- Refutes O26: an eviction frees one way, and the statement, which has the line gone from the L2, also speaks of states in which
a second way holds the line. All else that it says holds (`speculationRows`, `pageWalk_outcomes`, and `l2Evict_of_oneWay` for a
line in one way). -/
theorem not_coreBackground : ¬ Obligations.CoreBackground := by
  rintro ⟨-, -, evictions⟩
  obtain ⟨may, sound, held, on, room, settled, tag⟩ := twoWaysState_mayEvict
  obtain ⟨t, -, evicts, gone, -⟩ := evictions 0 1 twoWaysState (by decide) (by decide) may sound held on room settled tag
  have kept := twoWaysState_keeps
  simp [evicts, nextIs, gone] at kept

end Sys2Proof.Machine
end

section
/-! SUPPORT. The proofs of the statements about invalidation (R183–R190): what a local form and a broadcast form do once earlier
stores are visible, and what a broadcast does at the cores that it reaches. -/

namespace Sys2Proof.Machine

/-! ### The bodies of the invalidation instructions (R186, R187) -/

/-- The forms that read a slot go on with its value. -/
theorem slotOperand_reads {x : Ctx} {opnd : BitVec 16} {lv : Nat} {v : Word} {s t : State} (high : bit opnd 15 = false)
    (low : fld opnd 0 10 = 0) (level : lv ≤ x.pl) (read : slotRead x (fld opnd 10 5) s = .ok v t) :
    slotOperand x opnd lv s = .ok v t := by
  simp [slotOperand, exec_bind, high, low, needLevel_of_le level, read]

/-- A local form whose earlier stores are visible removes its entries and completes. -/
theorem localTlbi_completes {x : Ctx} (va : Option Word) {s : State} (visible : (s.core x.g).sb = []) :
    localTlbi x va s = .ok (some (x.pc + 4)) ((s.modCore x.g fun k => (k.tlbi va).noFrames).hazeFlush x.g) := by
  simp [localTlbi, exec_bind, drained_of_empty visible]

/-- The cores that a broadcast of core `g` waits for, and the state in which it has left. -/
def State.broadcastFrom (s : State) (g : Nat) (tid : BitVec 12) (va : Option Word) : List Nat × State :=
  ((s.modCore g Core.noFrames).hazeFlush g).broadcast g tid va

/-- A broadcast form whose earlier stores are visible completes where no core must acknowledge, and else waits for those that
must. -/
theorem broadcastTlbi_leaves {x : Ctx} (tid : BitVec 12) (va : Option Word) {s : State} (visible : (s.core x.g).sb = []) :
    broadcastTlbi x tid va s =
      let r := s.broadcastFrom x.g tid va
      if r.1.isEmpty then .ok (some (x.pc + 4)) r.2
      else .ok none (r.2.modCore x.g fun k => { k with stall := .bcast r.1 }) := by
  unfold broadcastTlbi State.broadcastFrom
  rw [exec_bind_ok (drained_of_empty visible), exec_bind_ok (setRegs_apply ..), exec_bind_ok (exec_get _)]
  obtain ⟨l, t⟩ := ((s.modCore x.g Core.noFrames).hazeFlush x.g).broadcast x.g tid va
  dsimp only
  split <;> rfl

/-- An instruction whose body comes to a broadcast. -/
theorem coreStep_broadcasts {c : Nat} {s s1 s2 : State} {x : Ctx} {body : Ctx → Exec (Option Word)} (h : Fetches c s x s1)
    (tid : BitVec 12) (va : Option Word) (comes : body x s1 = broadcastTlbi x tid va s2) (visible : (s2.core c).sb = []) :
    onWf (coreOk c) (s.coreStep c body) = .next (
      let r := s2.broadcastFrom c tid va
      if r.1.isEmpty then r.2.ends c x (x.pc + 4)
      else r.2.modCore c fun k => { k with stall := .bcast r.1 }) := by
  obtain rfl := ctx_core_of_fetches h
  have ran := comes.trans (broadcastTlbi_leaves tid va visible)
  dsimp only at ran ⊢
  split
  next none => exact coreStep_completes h (ran.trans (if_pos none))
  next some => exact coreStep_stalls h (ran.trans (if_neg some))

theorem localInvalidation : Claims.LocalInvalidation := by
  intro c opnd s s1 s2 x v h level
  obtain rfl := ctx_core_of_fetches h
  refine ⟨fun visible => coreStep_completes h ?all, fun high low read visible => coreStep_completes h ?address⟩
  case all =>
    exact (exec_bind_ok (legal_true s1)).trans
      ((exec_bind_ok (needLevel_of_le level s1)).trans (localTlbi_completes none visible))
  case address =>
    exact (exec_bind_ok (slotOperand_reads high low level read)).trans (localTlbi_completes (some v) visible)

/-! ### A broadcast at a core (R188, R189) -/

theorem tlbiBroadcastTake_arrives {c i : Nat} {s : State} (core : c < 576) (issuer : i < 576)
    (may : s.mayArrive (.tlbiBroadcastTake c i) = true) :
    exec (.tlbiBroadcastTake c i) s = .next ((s.arrive (.tlbiBroadcastTake c i)).tlbiTake c i) := by
  show execTlbiBroadcastTake c i s = _
  simp [execTlbiBroadcastTake, onArrival, onWf_true _, coreOk_of_lt core, coreOk_of_lt issuer, may]

section
variable {c : Nat} {s : State} {b : Bcast} (one : (s.core c).bcasts = [b]) (untaken : b.stores = none)
include one untaken

/-- The agent of a fenced core acknowledges for it. -/
theorem tlbiTake_of_fenced (fenced : s.unitFenced c = true) : s.tlbiTake c b.issuer = s.bcastEnd c b.issuer := by
  simp [State.tlbiTake, one, untaken, fenced]

/-- A running core that waits for nothing takes the broadcast. -/
theorem tlbiTake_of_running (unfenced : s.unitFenced c = false) (on : (s.dom c).st = .run) (out : (s.dom c).inReset = false)
    (unstalled : (s.core c).stall = .none) (running : (s.core c).run = .running) :
    s.tlbiTake c b.issuer = s.bcastTake c b := by
  have rests : (s.core c).atRest = true := by simp [Core.atRest, unstalled, running]
  simp [State.tlbiTake, one, untaken, unfenced, on, out, rests]

end

theorem bcastTake_of_other_tid {c : Nat} {s : State} {b : Bcast} (other : (s.core c).tid ≠ b.tid) :
    s.bcastTake c b = s.bcastEnd c b.issuer := by
  simp [State.bcastTake, other]

/-- What a core of its TID does with a broadcast first (R188 steps 1 to 3): younger work and the entries go, and the stores of
the boundary are noted. -/
def State.bcastPurge (s : State) (c : Nat) (b : Bcast) : State :=
  ((s.hazeFlush c).fresh c).modCore c fun k => { k.tlbi b.va with
    bcasts := k.bcasts.map fun x => if x.issuer == b.issuer then { x with stores := some k.sb.length } else x }

theorem bcastTake_of_tid {c : Nat} {s : State} {b : Bcast} (same : (s.core c).tid = b.tid) :
    s.bcastTake c b = (s.bcastPurge c b).bcastGo c := by
  simp [State.bcastTake, same, State.bcastPurge]

theorem bcastPurge_bcasts (s : State) (c : Nat) (b : Bcast) : ((s.bcastPurge c b).core c).bcasts =
    (s.core c).bcasts.map fun x => if x.issuer == b.issuer then { x with stores := some (s.core c).sb.length } else x := by
  have flush := (hazeFlush_counted s c).rest
  have bcasts : ((s.hazeFlush c).core c).bcasts = (s.core c).bcasts := by rw [flush]
  have sb : ((s.hazeFlush c).core c).sb = (s.core c).sb := by rw [flush]
  simp [State.bcastPurge, Core.fresh, bcasts, sb]

/-- A broadcast without an address removes every entry. -/
theorem bcastPurge_core_of_all (s : State) (c : Nat) {b : Bcast} (all : b.va = none) :
    ∃ (k : Core) (l : List Bcast), (s.bcastPurge c b).core c = { k.tlbFlush with bcasts := l } :=
  ⟨_, _, by rw [State.bcastPurge, modCore_core_same, all]; rfl⟩

/-- No broadcast is acknowledged while each still waits for a store of its boundary. -/
theorem bcastGo_of_stores {s : State} {c : Nat} (waits : ∀ b ∈ (s.core c).bcasts, b.stores ≠ some 0) : s.bcastGo c = s := by
  have none : (s.core c).bcasts.filter (fun b => b.stores == some 0) = [] :=
    List.filter_eq_nil_iff.mpr fun b hb => by simpa using waits b hb
  rw [State.bcastGo, none]
  rfl

/-- A core that has taken a broadcast executes nothing until it has acknowledged it. -/
theorem canExec_of_taken {s : State} {c : Nat} {b : Bcast} (awaited : b ∈ (s.core c).bcasts) (taken : b.stores.isSome = true) :
    s.canExec c = false := by
  have any : (s.core c).bcasts.any (·.stores.isSome) = true := List.any_eq_true.mpr ⟨b, awaited, taken⟩
  simp [State.canExec, any]

/-- A core of its TID that has stores drops its entries and waits for those stores. -/
theorem bcastTake_waits {c : Nat} {s : State} {b : Bcast} (one : (s.core c).bcasts = [b]) (same : (s.core c).tid = b.tid)
    (stores : (s.core c).sb ≠ []) : s.bcastTake c b = s.bcastPurge c b ∧
      ((s.bcastPurge c b).core c).bcasts = [{ b with stores := some (s.core c).sb.length }] ∧
      (s.bcastPurge c b).canExec c = false := by
  have noted : ((s.bcastPurge c b).core c).bcasts = [{ b with stores := some (s.core c).sb.length }] := by
    simp [bcastPurge_bcasts, one]
  refine ⟨?_, noted, canExec_of_taken (noted ▸ List.mem_singleton_self _) rfl⟩
  rw [bcastTake_of_tid same]
  exact bcastGo_of_stores (by simp [noted, stores])

/-- The agent acknowledges for a core that has not in time, and reports it (R189). -/
theorem tlbiAckTimeout_of_one {c i : Nat} {s : State} {b : Bcast} (core : c < 576) (issuer : i < 576)
    (one : (s.core c).bcasts = [b]) (from_i : b.issuer = i) : exec (.tlbiAckTimeout c i) s =
      .next (if b.since + s.timeoutNs 0 ≤ s.now then
        ((s.fault (s.coreSrc c) 0x07 none 0).modCore c fun k => { k with tlbMark := true }).bcastEnd c i else s) := by
  show execTlbiAckTimeout c i s = _
  simp [execTlbiAckTimeout, onWf_true _, coreOk_of_lt core, coreOk_of_lt issuer, one, from_i]

theorem broadcastInvalidation : Claims.BroadcastInvalidation := by
  refine ⟨?operand, ?all, ?arrival, ?timeout, fun _ _ _ => rfl⟩
  case operand =>
    intro c opnd s s1 s2 x v h high low p hp level read visible
    simp only [List.mem_cons, List.not_mem_nil, or_false] at hp
    rcases hp with rfl | rfl <;>
      exact coreStep_broadcasts h _ _ (exec_bind_ok (slotOperand_reads high low level read)) visible
  case all =>
    intro c s s1 x h level visible
    exact coreStep_broadcasts h _ _ ((exec_bind_ok (legal_true s1)).trans (exec_bind_ok (needLevel_of_le level s1))) visible
  case arrival =>
    rintro c i s b core issuer may one rfl untaken t
    rw [tlbiBroadcastTake_arrives core issuer may]
    refine ⟨fun fenced => ?_, fun unfenced on out unstalled running => ?_⟩
    · exact congrArg _ (tlbiTake_of_fenced (s := t) one untaken fenced)
    · rw [show t.tlbiTake c b.issuer = t.bcastTake c b from
        tlbiTake_of_running (s := t) one untaken unfenced on out unstalled running]
      refine ⟨fun other => congrArg _ (bcastTake_of_other_tid (s := t) other), fun same all stores => ?_⟩
      obtain ⟨takes, noted, waits⟩ := bcastTake_waits (s := t) one same stores
      obtain ⟨k, l, purged⟩ := bcastPurge_core_of_all t c all
      refine ⟨_, congrArg _ takes, ?_, ?_, ?_, ?_, ?_, noted, waits⟩ <;> rw [purged] <;> rfl
  case timeout =>
    intro c i s b core issuer one from_i
    rw [tlbiAckTimeout_of_one core issuer one from_i]
    exact ⟨fun early => by rw [if_neg (Nat.not_le.mpr early)], fun late => by rw [if_pos late]⟩

/-- Core 1 at TID 0 has a store buffered when a broadcast of core 0 to TID 0 reaches it. -/
def bcastStoreState : State := { hState with cores := [(0, { runCore with sw := 2, stall := .bcast [1] }),
  (1, { runCore with sw := 2, sb := [⟨64, 0xAB, 0xFF, false, false, 0, none, 64, 0⟩], bcasts := [⟨0, 0, none, 0, none⟩] })] }

/-- The target of an arriving broadcast waits for its store, and the issuer for the target. -/
theorem witness_broadcast_waits : bcastStoreState.mayArrive (.tlbiBroadcastTake 1 0) = true ∧
    bcastStoreState.unitFenced 1 = false ∧ (bcastStoreState.core 1).tid = 0 ∧
    nextIs (exec (.tlbiBroadcastTake 1 0) bcastStoreState) (fun t =>
      (t.core 1).bcasts == [⟨0, 0, none, 0, some 1⟩] && (t.core 0).stall == .bcast [1] && !t.canExec 1) = true := by
  decide +kernel

/-- Settles O23, from what the two bodies leave and what an arrival and a timeout do at the target. -/
theorem invalidation : Obligations.Invalidation := ⟨localInvalidation, broadcastInvalidation⟩

end Sys2Proof.Machine
end

section
/-! SUPPORT. The proofs of the statements about the cache instructions (R214–R219, R251). -/

namespace Sys2Proof.Machine

/-! ### Line instructions (R215–R217) -/

theorem maintRequest_sends {x : Ctx} {va : Word} {mk : Hdr → Instr} {s t : State} {h : Hdr}
    (issued : s.coreIssue x.g mk = some (h, t)) :
    maintRequest x va mk s = .ok none (t.modCore x.g fun k => { k with stall := .maint va [h.tag] }) := by
  simp [maintRequest, exec_bind, issued]

theorem maintWait_apply (x : Ctx) (va : Word) (tags : List Nat) (s : State) : maintWait x va tags s =
    if tags = [] then .ok (some (x.pc + 4)) s
    else .ok none (s.modCore x.g fun k => { k with stall := .maint va tags }) := by
  cases tags with
  | nil => rfl
  | cons t ts => rfl

theorem clearL1_sameL2 (c : Core) (line : Nat) : (c.clearL1 line).SameL2 c := by
  unfold Core.clearL1
  extract_lets c1 c2
  have merged : c1.SameL2 c := ⟨(merge_sameL2 c line).evict, (merge_sameL2 c line).ways⟩
  have left : c2.SameL2 c := by
    simp only [c2]
    split
    · exact ⟨merged.evict, merged.ways⟩
    · exact merged
  split
  · exact ⟨left.evict, left.ways⟩
  · exact left

/-- A line given up stands in the newest evict-pending buffer of its core. -/
theorem evictAs_evict {s t : State} {g line : Nat} {how : GiveUp} (gives : s.evictAs g line how = some t) :
    ∃ b, (t.core g).evict = (s.core g).evict ++ [b] ∧ b.line = line := by
  unfold State.evictAs at gives
  extract_lets c left at gives
  have same : left.SameL2 c := by
    simp only [left]
    split
    · exact clearL1_sameL2 c line
    · exact leaveL1_sameL2 c line
  split at gives
  · cases gives
  split at gives
  · cases gives
  next k l _ =>
    obtain ⟨⟨h, u⟩, -, rfl⟩ := Option.map_eq_some_iff.mp gives
    rw [setCore_core_same, ← same.evict]
    exact ⟨_, rfl, rfl⟩

/-- One line dropped is one request to wait for. -/
theorem dropLines_singleton {s t : State} {g line : Nat} {b : EvictBuf} (gives : s.evictAs g line .drop = some t)
    (newest : (t.core g).evict = (s.core g).evict ++ [b]) : s.dropLines g [line] = some ([b.tag], t) := by
  simp [State.dropLines, gives, newest]

theorem lineMaintenance : Claims.LineMaintenance := by
  intro c opnd s s1 s2 s3 s4 x v line uc h fetched high low read
  obtain rfl := ctx_core_of_fetches fetched
  have operand : slotOperand x opnd 0 s1 = .ok v s2 := slotOperand_reads high low (Nat.zero_le _) read
  refine ⟨fun p hp found issued => ?request, fun level found held gives => ?invalidate, fun found on owned => ?zero⟩
  case request =>
    simp only [List.mem_cons, List.not_mem_nil, or_false] at hp
    rcases hp with rfl | rfl
    all_goals
      refine coreStep_stalls fetched ?_
      rw [exec_bind_ok operand, exec_bind_ok found]
      exact maintRequest_sends issued
  case invalidate =>
    obtain ⟨b, newest, named⟩ := evictAs_evict gives
    refine ⟨b, newest, named, coreStep_stalls fetched ?_⟩
    rw [exec_bind_ok (slotOperand_reads high low (Nat.le_of_eq level.symm) read), exec_bind_ok found]
    simp [exec_bind, -Option.isNone_iff_eq_none, Option.isNone_eq_false_iff.mpr held, dropLines_singleton gives newest,
      maintWait_apply]
  case zero =>
    refine coreStep_completes fetched ?_
    rw [exec_bind_ok operand, exec_bind_ok found]
    simp [exec_bind, on, owned]

/-! ### Set instructions (R219) -/

/-- Once the earlier stores are visible, a set instruction acts on the lines it picks and waits for their answers. -/
theorem setOp_acts {x : Ctx} {pick : CLine → Bool} {clean : Bool} {act : State → Nat → List Nat → Option (List Nat × State)}
    {s t : State} {tags : List Nat} (visible : (s.core x.g).sb = [])
    (acts : act s x.g ((((s.core x.g).setHeld (fld (s.core x.g).x 0 10)).filter pick).map (·.line)) = some (tags, t)) :
    setOp x pick clean act s = maintWait x 0 tags
      (if clean then t.modCore x.g fun k => k.noteCleaned (fld (s.core x.g).x 0 10) else t) := by
  rw [setOp, exec_bind_ok (drained_of_empty visible)]
  simp [setIndex, exec_bind, acts]

/-- A set instruction at its level, whose lines are given up or written back under the tags that are left to answer. -/
theorem coreStep_setOp {c lv : Nat} {s s1 t : State} {x : Ctx} {tags : List Nat} {pick : CLine → Bool} {clean : Bool}
    {act : State → Nat → List Nat → Option (List Nat × State)} (h : Fetches c s x s1) (level : lv ≤ x.pl)
    (acts : setOp x pick clean act s1 = maintWait x 0 tags t) :
    onWf (coreOk c) (s.coreStep c fun x => do legal true; needLevel x lv; setOp x pick clean act) = .next
      (if tags = [] then t.ends c x (x.pc + 4) else t.modCore c fun k => { k with stall := .maint 0 tags }) := by
  obtain rfl := ctx_core_of_fetches h
  have ran : (do legal true; needLevel x lv; setOp x pick clean act : Exec (Option Word)) s1 = _ :=
    (exec_bind_ok (legal_true s1)).trans ((exec_bind_ok (needLevel_of_le level s1)).trans
      (acts.trans (maintWait_apply x 0 tags t)))
  split
  next none => exact coreStep_completes h (ran.trans (if_pos none))
  next some => exact coreStep_stalls h (ran.trans (if_neg some))

theorem setMaintenance : Claims.SetMaintenance := by
  intro c s s1 x h
  obtain rfl := ctx_core_of_fetches h
  refine ⟨fun tags s2 visible => ⟨fun level acts => ?_, fun level acts => ?_, fun level acts => ?_⟩, rfl, rfl, rfl, ?below⟩
  · exact coreStep_setOp h level (setOp_acts visible acts)
  · exact coreStep_setOp h level (setOp_acts visible (by rwa [List.filter_eq_self.mpr fun _ _ => rfl]))
  · exact coreStep_setOp h (Nat.le_of_eq level.symm) (setOp_acts visible (by rwa [List.filter_eq_self.mpr fun _ _ => rfl]))
  case below =>
    intro user f hf
    have raises (lv : Nat) (rest : Exec (Option Word)) (above : 0 < lv) :
        (do legal true; needLevel x lv; rest : Exec (Option Word)) s1 = .error (.exc { code := 0x02 }) s1 :=
      (exec_bind_ok (legal_true s1)).trans (exec_bind_error (needLevel_of_lt (user ▸ above) s1))
    simp only [List.mem_cons, List.not_mem_nil, or_false] at hf
    rcases hf with rfl | rfl | rfl <;> exact coreStep_raises h (raises _ _ (by decide))

/-! ### CPF (R218) -/

theorem prefetchInstruction : Claims.PrefetchInstruction := by
  intro c opnd s s1 s2 s3 s4 x v t h fetched high low read visible found cached normal populated on idle
  obtain rfl := ctx_core_of_fetches fetched
  have attempted : attempt (translate x .load v) s2 = .ok (some t) s3 := by rw [attempt, found]
  refine ⟨fun lacks issued => coreStep_completes fetched ?_, fun held => coreStep_completes fetched ?_⟩
  all_goals
    rw [exec_bind_ok (slotOperand_reads high low (Nat.zero_le _) read), exec_bind_ok (drained_of_empty visible),
      exec_bind_ok attempted]
  · simp [exec_bind, cached, normal, populated, on, idle, lacks, issued]
  · simp [exec_bind, cached, normal, populated, on, idle, held]

/-- Settles O24. -/
theorem cacheMaintenance : Obligations.CacheMaintenance := ⟨lineMaintenance, setMaintenance, prefetchInstruction⟩

end Sys2Proof.Machine
end

section
/-! SUPPORT. The refutation of the statement about what a home answers (R241, R396): the flush that a seal makes at the home has no
requester, and the home answers nothing to it. -/

namespace Sys2Proof.Machine

/-- The flush of line 0 that its home makes for a seal (R396), under a tag that the part has. -/
def sealFlush : Instr := .cflreq ⟨mirrorNode, 3, 0, 0, 0⟩ 0

/-- The home of line 0 is at rest, its slice serves and lacks the line, and the flush of a seal may arrive. -/
theorem sliceEmpty_quiet : sliceEmpty.HomeQuiet 0 place0 ∧ sliceEmpty.dirFind place0.home 0 = none ∧
    sliceEmpty.sliceUp place0.home = true ∧ sliceFind (sliceEmpty.slice place0.home) 0 = none ∧
    sliceEmpty.mayArrive sealFlush = true := by
  unfold State.HomeQuiet
  decide +kernel

/-- The flush ends without an answer. -/
theorem sliceEmpty_unanswered : nextIs (exec sealFlush sliceEmpty) (fun t => t.inflight == []) = true := by decide +kernel

/-- Refutes O30: the statement has the home answer every CFlReq that finds nothing with Cmp, whoever sends it; a CFlReq under the
mirror engine's node is the flush that the home itself makes for a seal, whose plan for such a line is empty (`sealPlan`). -/
theorem not_homeAnswers : ¬ Obligations.HomeAnswers := by
  rintro ⟨idle, -, -⟩
  obtain ⟨quiet, absent, up, lacks, may⟩ := sliceEmpty_quiet
  obtain ⟨-, -, nothing, -⟩ := idle ⟨mirrorNode, 3, 0, 0, 0⟩ 0 sliceEmpty place0 (by decide) (by decide) quiet absent
  obtain ⟨-, -, -, flush, -⟩ := nothing up lacks
  obtain ⟨t, ends, answered, -⟩ := flush may
  have unanswered := sliceEmpty_unanswered
  simp only [sealFlush, ends, nextIs, answered, beq_iff_eq] at unanswered
  exact absurd unanswered (by simp)

end Sys2Proof.Machine
end

section
/-! SUPPORT. The proofs of the statements about grants (R198, R242, R243, R276): what a grant or Go makes of the transaction it
answers, and where the granted line comes to lie. -/

namespace Sys2Proof.Machine

/-! ### Arrivals, statistics and tags -/

theorem onArrival_of_may {ok : Bool} {m : Instr} {s : State} (f : State → State) (wf : ok = true) (may : s.mayArrive m = true) :
    onArrival ok m s f = .next (f (s.arrive m)) := by
  simp [onArrival, onWf, wf, may]

/-- Statistics change nothing but statistics. -/
theorem stat_eq (s : State) (n : Nat) (f : Stat → Stat) :
    ∃ l, s.stat n f = { s with hier := { s.hier with stats := l } } := by
  unfold State.stat State.statRec
  split
  · exact ⟨_, rfl⟩
  · dsimp only
    split <;> exact ⟨_, rfl⟩

@[simp] theorem stat_core (s : State) (n : Nat) (f : Stat → Stat) (g : Nat) : (s.stat n f).core g = s.core g := by
  rw [State.core, stat_cores, State.core]

@[simp] theorem stat_tag (s : State) (n : Nat) (f : Stat → Stat) (node tag : Nat) : (s.stat n f).tag node tag = s.tag node tag := by
  obtain ⟨l, counted⟩ := stat_eq s n f
  rw [counted]
  rfl

@[simp] theorem stat_inflight (s : State) (n : Nat) (f : Stat → Stat) : (s.stat n f).inflight = s.inflight := by
  obtain ⟨l, counted⟩ := stat_eq s n f
  rw [counted]

@[simp] theorem setTag_tag_same (s : State) (node tag : Nat) (t : TagInfo) : (s.setTag node tag t).tag node tag = t := by
  simp [State.setTag, State.tag]

@[simp] theorem setTag_core (s : State) (node tag : Nat) (t : TagInfo) (g : Nat) : (s.setTag node tag t).core g = s.core g := rfl
@[simp] theorem modCore_tag (s : State) (g : Nat) (f : Core → Core) (node tag : Nat) :
    (s.modCore g f).tag node tag = s.tag node tag := rfl
@[simp] theorem send_tag (s : State) (m : Instr) (node tag : Nat) : (s.send m).tag node tag = s.tag node tag := rfl
@[simp] theorem arrive_tag (s : State) (m : Instr) (node tag : Nat) : (s.arrive m).tag node tag = s.tag node tag := rfl
@[simp] theorem arrive_isLate (s : State) (m : Instr) (h : Hdr) : (s.arrive m).isLate h = s.isLate h := rfl
@[simp] theorem countRead_core (s : State) (n g : Nat) : (s.countRead n).core g = s.core g := stat_core ..
@[simp] theorem countRead_tag (s : State) (n node tag : Nat) : (s.countRead n).tag node tag = s.tag node tag := stat_tag ..
@[simp] theorem countRead_inflight (s : State) (n : Nat) : (s.countRead n).inflight = s.inflight := stat_inflight ..
@[simp] theorem countRead_isLate (s : State) (n : Nat) (h : Hdr) : (s.countRead n).isLate h = s.isLate h := by
  simp [State.isLate]

/-! ### Data and Go at a transaction (R242, R276) -/

section
variable {s : State} {h : Hdr} {line : Nat} {d : LineData} {st : L2St}

theorem dataGrant_whole {t : CoreTxn} (timely : s.isLate h = false) (waits : (s.core h.node).txn h.tag = some t) :
    s.dataGrant h line st true d = (s.countRead h.node).granted h line t st d := by
  simp [State.dataGrant, timely, waits]

/-- Forwarded data without Go waits for it. -/
theorem dataGrant_without_go {t : CoreTxn} (timely : s.isLate h = false) (waits : (s.core h.node).txn h.tag = some t)
    (go : t.go = false) : s.dataGrant h line st false d = (s.countRead h.node).setCore h.node
      (((s.countRead h.node).core h.node).putTxn { t with data := some d }) := by
  simp [State.dataGrant, timely, waits, State.tryGrant, go]

theorem dataGrant_after_go {t : CoreTxn} (timely : s.isLate h = false) (waits : (s.core h.node).txn h.tag = some t)
    (want : t.want = 2) (go : t.go = true) :
    s.dataGrant h line st false d = (s.countRead h.node).granted h line { t with data := some d } .m d := by
  simp [State.dataGrant, timely, waits, State.tryGrant, go, want]

theorem dataGrant_late {whole : Bool} (late : s.isLate h = true) (both : (whole || (s.tag h.node h.tag).lateGo) = true) :
    s.dataGrant h line st whole d = (s.countRead h.node).lateGrant h line st d := by
  simp [State.dataGrant, late, both]

/-- Late forwarded data waits for its Go in the buffer that the timeout kept. -/
theorem dataGrant_late_reserved (late : s.isLate h = true) (go : (s.tag h.node h.tag).lateGo = false)
    (reserved : (s.tag h.node h.tag).reserved = true) : s.dataGrant h line st false d =
      ((s.countRead h.node).stat h.node fun x => { x with late := x.late + 1 }).setTag h.node h.tag
        { s.tag h.node h.tag with lateData := some d } := by
  simp [State.dataGrant, late, go, reserved]

theorem goGrant_of_data {t : CoreTxn} (timely : s.isLate h = false) (waits : (s.core h.node).txn h.tag = some t)
    (want : t.want = 2) (data : t.data = some d) : s.goGrant h line = s.granted h line { t with go := true } .m d := by
  simp [State.goGrant, timely, waits, State.tryGrant, want, data]

/-- Go of an Upg grants the copy that the core already holds. -/
theorem goGrant_of_own_copy {t : CoreTxn} {l : CLine} (timely : s.isLate h = false)
    (waits : (s.core h.node).txn h.tag = some t) (want : t.want = 3) (data : t.data = none)
    (own : (s.core h.node).l2Line line = some l) :
    s.goGrant h line = s.granted h line { t with go := true } .m ⟨l.bytes, l.poison⟩ := by
  simp [State.goGrant, timely, waits, State.tryGrant, want, data, Core.ownCopy, own]

/-- Go of a Claim needs no data. -/
theorem goGrant_of_claim {t : CoreTxn} (timely : s.isLate h = false) (waits : (s.core h.node).txn h.tag = some t)
    (want : t.want = 4) : s.goGrant h line = s.granted h line { t with go := true } .m ⟨0, false⟩ := by
  simp [State.goGrant, timely, waits, State.tryGrant, want]

theorem goGrant_late (late : s.isLate h = true) (data : (s.tag h.node h.tag).lateData = some d) :
    s.goGrant h line = s.lateGrant h line .m d := by
  simp [State.goGrant, late, data]

end

theorem grantsAtRequester : Claims.GrantsAtRequester := by
  intro h line d s hdr lt
  have wf : (hdrOk h && lineOk line) = true := by rw [hdr, lt]; rfl
  refine ⟨fun r hr may => ?whole, fun may => ?forwarded, fun may => ?go⟩
  case whole =>
    have gives : exec (r.1 h line d) s = .next ((s.arrive (r.1 h line d)).dataGrant h line r.2 true d) := by
      simp only [List.mem_cons, List.not_mem_nil, or_false] at hr
      rcases hr with rfl | rfl | rfl | rfl <;> exact onArrival_of_may (fun s => s.dataGrant h line _ true d) wf may
    exact ⟨fun t timely waits => gives.trans (congrArg _ (dataGrant_whole (s := s.arrive _) timely waits)),
      fun late => gives.trans (congrArg _ (dataGrant_late (s := s.arrive _) late rfl))⟩
  case forwarded =>
    have gives : exec (.fwdm h line d) s = .next ((s.arrive (.fwdm h line d)).dataGrant h line .m false d) :=
      onArrival_of_may (fun s => s.dataGrant h line .m false d) wf may
    refine ⟨fun t timely waits want => ⟨fun go => ?_, fun go => ?_⟩, fun late go => ?_, fun late go reserved => ?_⟩
    · exact gives.trans (congrArg _ (dataGrant_without_go (s := s.arrive _) timely waits go))
    · exact gives.trans (congrArg _ (dataGrant_after_go (s := s.arrive _) timely waits want go))
    · exact gives.trans (congrArg _ (dataGrant_late (s := s.arrive _) (whole := false) late go))
    · exact ⟨_, gives.trans (congrArg _ (dataGrant_late_reserved (s := s.arrive _) late go reserved)), setTag_tag_same ..,
        by simp⟩
  case go =>
    have gives : exec (.go h line) s = .next ((s.arrive (.go h line)).goGrant h line) :=
      onArrival_of_may (fun s => s.goGrant h line) wf may
    refine ⟨fun t timely waits => ⟨fun want data => ?_, fun l want data own => ?_, fun want => ?_⟩, fun late data => ?_⟩
    · exact gives.trans (congrArg _ (goGrant_of_data (s := s.arrive _) timely waits want data))
    · exact gives.trans (congrArg _ (goGrant_of_own_copy (s := s.arrive _) timely waits want data own))
    · exact gives.trans (congrArg _ (goGrant_of_claim (s := s.arrive _) timely waits want))
    · exact gives.trans (congrArg _ (goGrant_late (s := s.arrive _) late data))

/-! ### Where the arrays hold a line (R198) -/

theorem arrFind_place {t : Table CLine} {sets ways line k : Nat} {l : CLine} (h : arrFind t sets ways line = some (k, l)) :
    ∃ w < ways, k = line % sets * ways + w ∧ tfind? t k = some l ∧ l.line = line := by
  obtain ⟨w, within, found⟩ := List.exists_of_findSome?_eq_some h
  split at found
  next at_w =>
    split at found
    next same =>
      cases found
      exact ⟨w, List.mem_range.mp within, rfl, at_w, eq_of_beq same⟩
    next => cases found
  next => cases found

theorem line_ne_of_arrFind_none {t : Table CLine} {sets ways line w : Nat} {l : CLine} (h : arrFind t sets ways line = none)
    (within : w < ways) (at_w : tfind? t (line % sets * ways + w) = some l) : l.line ≠ line := by
  have absent := List.findSome?_eq_none_iff.mp h w (List.mem_range.mpr within)
  simpa [at_w] using absent

/-- A line that one way of its set holds and no other is found there. -/
theorem arrFind_of_only_way {t : Table CLine} {sets ways line w : Nat} {l : CLine} (within : w < ways)
    (at_w : tfind? t (line % sets * ways + w) = some l) (named : l.line = line)
    (only : ∀ j < ways, j ≠ w → ∀ m, tfind? t (line % sets * ways + j) = some m → m.line ≠ line) :
    arrFind t sets ways line = some (line % sets * ways + w, l) := by
  cases found : arrFind t sets ways line with
  | none => exact absurd named (line_ne_of_arrFind_none found within at_w)
  | some e =>
    obtain ⟨j, inside, place, at_j, same⟩ := arrFind_place found
    by_cases way : j = w
    · subst way
      rw [← place] at at_w ⊢
      rw [← Option.some.inj (at_j.symm.trans at_w)]
    · exact absurd same (only j inside way e.2 (place ▸ at_j))

theorem chooseWay_place (t : Table CLine) {sets ways line : Nat} (lf : BitVec 16) (some_way : 0 < ways) :
    ∃ w < ways, (chooseWay t sets ways line lf).1 = line % sets * ways + w := by
  unfold chooseWay
  dsimp only
  split
  next w low => exact ⟨w, List.mem_range.mp (List.mem_of_find?_eq_some low), rfl⟩
  next => exact ⟨_, Nat.mod_lt _ some_way, rfl⟩

/-- Merging another line's bytes leaves the L2's copy of a line. -/
theorem merge_inL2_ne (c : Core) {line other : Nat} (ne : other ≠ line) : (c.merge other).inL2 line = c.inL2 line := by
  unfold Core.merge
  split
  next k l j m _ held =>
    split
    · obtain ⟨-, -, -, at_j, named⟩ := arrFind_place held
      unfold Core.inL2 arrFind
      refine congrArg (List.findSome? · _) (funext fun w => ?_)
      by_cases here : line % 1024 * 16 + w = j
      · simp [here, at_j, named, ne]
      · rw [tfind_tput_ne _ _ _ _ here]
    · rfl
  next => rfl

/-! ### A fill and its core (R194, R198, R242) -/

/-- What a fill may change of its core: the arrays and what belongs to them, the choice of ways, and the note of a line that a
disabled cache kept. -/
structure Core.Filled (k k0 : Core) : Prop where
  rest : k = { k0 with
    l1d := k.l1d, l1i := k.l1i, l2 := k.l2, fmap := k.fmap, evict := k.evict, lostD := k.lostD, lost2 := k.lost2,
    ueDue := k.ueDue, lfsrI := k.lfsrI, lfsrC := k.lfsrC, kept := k.kept }

theorem Core.Filled.refl (k : Core) : k.Filled k := ⟨rfl⟩

theorem Core.Filled.trans {k j i : Core} (h : k.Filled j) (l : j.Filled i) : k.Filled i := by
  constructor
  rw [h.rest, l.rest]

theorem Core.Cached.filled {k k0 : Core} (h : k.Cached k0) : k.Filled k0 := by
  constructor
  rw [h.rest]

theorem Core.Filled.sameRegs {k k0 : Core} (h : k.Filled k0) : k.SameRegs k0 := by
  rw [h.rest]
  exact ⟨rfl, rfl, rfl, rfl, rfl, rfl, rfl, rfl, fun _ _ => rfl⟩

theorem fillL1d_filled (c : Core) (line : Nat) : (c.fillL1d line).Filled c := by
  unfold Core.fillL1d
  split
  · exact .refl c
  · split
    · exact .refl c
    · dsimp only
      split
      next v _ => exact Core.Filled.trans ⟨rfl⟩ ((dropFrames_cached _ _).trans (merge_cached c v.line)).filled
      next => exact ⟨rfl⟩

theorem fillL1i_filled (c : Core) (line : Nat) : (c.fillL1i line).Filled c := by
  unfold Core.fillL1i
  split
  · exact .refl c
  · split
    · exact .refl c
    · exact ⟨rfl⟩

theorem fillL1_filled (c : Core) (line : Nat) (l1 : L1) : (c.fillL1 line l1).Filled c := by
  cases l1 with
  | none => exact .refl c
  | data => exact fillL1d_filled c line
  | instr => exact fillL1i_filled c line

theorem fillL2_filled (c : Core) (line : Nat) (st : L2St) (d : LineData) : (c.fillL2 line st d).Filled c := by
  unfold Core.fillL2
  split
  · exact Core.Filled.trans ⟨rfl⟩ (leaveL1_cached c line).filled
  · exact ⟨rfl⟩

/-- The line that L1D displaces for a line it lacks is another one, so the L2's copy stands. -/
theorem fillL1d_inL2 (c : Core) (line : Nat) : (c.fillL1d line).inL2 line = c.inL2 line := by
  unfold Core.fillL1d
  split
  · rfl
  next lacks =>
    split
    · rfl
    · obtain ⟨w, within, place⟩ := chooseWay_place c.l1d (sets := 128) (line := line) c.lfsrC (show 0 < 8 by decide)
      obtain ⟨-, absent⟩ : c.l1dOn = true ∧ c.inL1d line = none := by simpa using lacks
      dsimp only
      split
      next v displaced =>
        rw [place] at displaced
        exact merge_inL2_ne c (line_ne_of_arrFind_none absent within displaced)
      next => rfl

theorem fillL1_inL2 (c : Core) (line : Nat) (l1 : L1) : (c.fillL1 line l1).inL2 line = c.inL2 line := by
  cases l1 with
  | none => rfl
  | data => exact fillL1d_inL2 c line
  | instr =>
    unfold Core.fillL1 Core.fillL1i
    dsimp only
    split
    · rfl
    · split <;> rfl

/-- A line that the L2 lacks comes to lie in the lowest invalid way. -/
theorem fillL2_inL2 {c : Core} {line w : Nat} (st : L2St) (d : LineData) (lacks : c.inL2 line = none)
    (free : lowest (fun w => (tfind? c.l2 (line % 1024 * 16 + w)).isNone) 16 = some w) :
    (c.fillL2 line st d).inL2 line = some (line % 1024 * 16 + w, ⟨line, st, d.bytes, d.poison, false, .none⟩) := by
  have within : w < 16 := List.mem_range.mp (List.mem_of_find?_eq_some free)
  simp only [Core.fillL2, lacks, chooseWay, free]
  refine arrFind_of_only_way within (tfind_tput_same ..) rfl fun j inside ne m at_j => ?_
  rw [tfind_tput_ne _ _ _ _ (by omega)] at at_j
  exact line_ne_of_arrFind_none lacks inside at_j

/-! ### The end of a grant (R242, R243) -/

/-- The transaction over, its tag free, CmpAck sent, and the line placed. -/
def State.placed (s : State) (h : Hdr) (line : Nat) (t : CoreTxn) (st : L2St) (d : LineData) : State :=
  (((s.modCore h.node fun c => c.dropTxn t.tag).finish h).send (.cmpack h line)).modCore h.node fun c =>
    (c.fillL2 line st d).fillL1 line t.fill

/-- The core that a grant leaves. -/
def Core.granted (c : Core) (line : Nat) (t : CoreTxn) (st : L2St) (d : LineData) : Core :=
  ((c.dropTxn t.tag).fillL2 line st d).fillL1 line t.fill

@[simp] theorem finish_core (s : State) (h : Hdr) (g : Nat) : (s.finish h).core g = s.core g := by simp [State.finish]
@[simp] theorem finish_inflight (s : State) (h : Hdr) : (s.finish h).inflight = s.inflight := by simp [State.finish]

theorem placed_core_same (s : State) (h : Hdr) (line : Nat) (t : CoreTxn) (st : L2St) (d : LineData) :
    (s.placed h line t st d).core h.node = (s.core h.node).granted line t st d := by
  simp [State.placed, Core.granted]

theorem placed_core_ne {s : State} {h : Hdr} {line g : Nat} {t : CoreTxn} {st : L2St} {d : LineData} (ne : g ≠ h.node) :
    (s.placed h line t st d).core g = s.core g := by
  simp [State.placed, State.modCore, setCore_core_ne _ _ _ _ ne]

theorem granted_filled (c : Core) (line : Nat) (t : CoreTxn) (st : L2St) (d : LineData) :
    (c.granted line t st d).Filled (c.dropTxn t.tag) :=
  (fillL1_filled ..).trans (fillL2_filled ..)

theorem granted_inL2 {c : Core} {line w : Nat} (t : CoreTxn) (st : L2St) (d : LineData) (lacks : c.inL2 line = none)
    (free : lowest (fun w => (tfind? c.l2 (line % 1024 * 16 + w)).isNone) 16 = some w) :
    (c.granted line t st d).inL2 line = some (line % 1024 * 16 + w, ⟨line, st, d.bytes, d.poison, false, .none⟩) :=
  (fillL1_inL2 ..).trans (fillL2_inL2 (c := c.dropTxn t.tag) st d lacks free)

/-- A grant that no store, prefetch, Haze entry or CZERO of the core waits for. -/
theorem granted_eq_placed {s : State} {h : Hdr} {line : Nat} {t : CoreTxn} {st : L2St} {d : LineData} (want : t.want ≠ 4)
    (kept : (t.prefetch && d.poison) = false) (stores : (s.core h.node).sb = []) (prefetches : (s.core h.node).pfWait = [])
    (haze : ((s.core h.node).haze.find? fun e => e.line == line && e.promoted) = none) :
    s.granted h line t st d = s.placed h line t st d := by
  have same := (granted_filled (s.core h.node) line t st d).rest
  have no_store : ((s.placed h line t st d).core h.node).sb = [] := by rw [placed_core_same, same]; exact stores
  have no_prefetch : ((s.placed h line t st d).core h.node).pfWait = [] := by rw [placed_core_same, same]; exact prefetches
  have no_haze : (((s.placed h line t st d).core h.node).haze.find? fun e => e.line == line && e.promoted) = none := by
    rw [placed_core_same, same]; exact haze
  have checked : (s.placed h line t st d).hazeCheck h.node line d = s.placed h line t st d := by
    rw [State.hazeCheck, no_haze]
  have performed : (s.placed h line t st d).afterGrant h.node line = s.placed h line t st d := by
    rw [State.afterGrant, no_store]
  have sent : (s.placed h line t st d).prefetchOn h.node = s.placed h line t st d := by
    rw [State.prefetchOn, no_prefetch]
    rfl
  have ends : s.granted h line t st d =
      (((s.placed h line t st d).hazeCheck h.node line d).afterGrant h.node line).prefetchOn h.node := by
    simp only [State.granted, kept, beq_iff_eq, want, Bool.false_eq_true, if_false]
    rfl
  rw [ends, checked, performed, sent]

theorem grantPlacesLine : Claims.GrantPlacesLine := by
  intro h line w t st d s tag want kept lacks stores prefetches haze free
  have filled := granted_filled (s.core h.node) line t st d
  simp only [granted_eq_placed want kept stores prefetches haze, placed_core_same]
  refine ⟨?_, ?_, ?_, granted_inL2 t st d lacks free, filled.sameRegs, fun g => placed_core_ne⟩
  · simp [State.placed]
  · rw [filled.rest, ← tag]
    simp [Core.txn, Core.dropTxn]
  · simp [State.placed, State.finish]

/-- Settles O32. -/
theorem grantTraffic : Obligations.GrantTraffic := ⟨grantsAtRequester, grantPlacesLine⟩

end Sys2Proof.Machine
end

section
/-! SUPPORT. The proofs of the statements about snoops at the holder and their answers at the home (R222, R229, R241, R245, R256,
R258, R278, R293). -/

namespace Sys2Proof.Machine

/-! ### A snoop at a core's door (R256, R257) -/

section
variable {s : State} {code g line : Nat} {req : Hdr}

theorem snoopArrive_fenced (fenced : s.unitFenced g = true) (not_closing : (s.dom g).st ≠ .closing) :
    s.snoopArrive code req g line =
      s.send (if s.hier.lost.contains (g, line) then .snpdata g line ⟨0, true⟩ .i else .notpresent g line) := by
  simp only [State.snoopArrive, fenced, bne_iff_ne.mpr not_closing, Bool.and_self, Bool.true_or, if_true]
  split <;> rfl

section
variable (unfenced : s.unitFenced g = false) (enabled : s.coreEnabled g = true)
include unfenced enabled

theorem snoopArrive_off (off : (s.dom g).st = .off) : s.snoopArrive code req g line = s.send (.notpresent g line) := by
  simp [State.snoopArrive, unfenced, enabled, off]

theorem snoopArrive_holds (waits : (s.dom g).st = .retained ∨ (s.dom g).st = .waking) :
    s.snoopArrive code req g line = (s.holdAt g (snoopMsg code req g line)).doorWake g := by
  rcases waits with st | st <;> simp [State.snoopArrive, unfenced, enabled, st]

theorem snoopArrive_runs (run : (s.dom g).st = .run) : s.snoopArrive code req g line = s.snoopL2 code req g line := by
  simp [State.snoopArrive, unfenced, enabled, run]

end

/-! ### A snoop at the L2 (Table 8-4, R206, R222) -/

/-- The core after a snoop of a line that its L2 holds in way `k`. -/
def Core.snooped (c : Core) (code line k : Nat) (l : CLine) : Core :=
  if (snoopRule code l.st).1 = .i then { c.leaveL1 line with l2 := tdel (c.leaveL1 line).l2 k }
  else { c with l2 := tput c.l2 k { l with st := (snoopRule code l.st).1 } }

section
variable (on : ((s.check g line).core g).l2On = true)
include on

section
variable {k : Nat} {e : Nat × CLine} {l : CLine} (held : ((s.check g line).core g).inL2 line = some e)
  (merged : (((s.check g line).core g).mergeOn line).inL2 line = some (k, l))
include held merged

theorem snoopL2_held (sound : ((s.check g line).core g).setLost line = false) : s.snoopL2 code req g line =
    ((s.check g line).setCore g ((((s.check g line).core g).mergeOn line).snooped code line k l)).sendAll
      (snoopAnswer code req g line l.st ⟨l.bytes, l.poison⟩) := by
  simp [State.snoopL2, on, held, merged, sound, Core.snooped]

theorem snoopL2_held_lost (lost : ((s.check g line).core g).setLost line = true) : s.snoopL2 code req g line =
    ((s.check g line).setCore g { (((s.check g line).core g).mergeOn line).leaveL1 line with
      l2 := tdel (((s.check g line).core g).mergeOn line).l2 k }).lostAnswer g line := by
  simp [State.snoopL2, on, held, merged, lost]

end

theorem snoopL2_absent (absent : ((s.check g line).core g).inL2 line = none) (given : ((s.check g line).core g).evict = []) :
    s.snoopL2 code req g line = if ((s.check g line).core g).setLost line then (s.check g line).lostAnswer g line
      else (s.check g line).send (.notpresent g line) := by
  simp [State.snoopL2, on, absent, given]

end

theorem snoopL2_disabled (off : (s.core g).l2On = false) (absent : (s.core g).inL2 line = none) :
    s.snoopL2 code req g line = s.send (.notpresent g line) := by
  have unchecked : s.check g line = s := by simp [State.check, off]
  simp [State.snoopL2, unchecked, off, absent]

end

/-- The six snoops with their codes in Table 8-3. -/
def snoops : List ((Hdr → Nat → Nat → Instr) × Nat) :=
  [(.snps, 1), (.snpx, 2), (.snpinv, 3), (.snpcur, 4), (.snpflush, 5), (.snpclean, 6)]

theorem snoop_arrives {req : Hdr} {g line : Nat} {s : State} {r : (Hdr → Nat → Nat → Instr) × Nat} (hdr : hdrOk req = true)
    (core : g < 576) (lt : lineOk line = true) (hr : r ∈ snoops) (may : s.mayArrive (r.1 req g line) = true) :
    exec (r.1 req g line) s = .next ((s.arrive (r.1 req g line)).snoopArrive r.2 req g line) ∧
      snoopMsg r.2 req g line = r.1 req g line := by
  have wf : (hdrOk req && coreOk g && lineOk line) = true := by rw [hdr, lt, coreOk_of_lt core]; rfl
  simp only [snoops, List.mem_cons, List.not_mem_nil, or_false] at hr
  rcases hr with rfl | rfl | rfl | rfl | rfl | rfl <;>
    exact ⟨onArrival_of_may (fun s => s.snoopArrive _ req g line) wf may, rfl⟩

theorem snoopAtHolder : Claims.SnoopAtHolder := by
  intro req g line s hdr core lt r hr m s1 c may
  obtain ⟨arrives, named⟩ := snoop_arrives hdr core lt hr may
  refine ⟨fun fenced not_closing => ?fenced, fun unfenced enabled => ⟨fun run on => ⟨fun kl k l held merged => ?held, ?absent⟩,
    fun run off absent => ?disabled, fun off => ?off, fun waits => ?holds⟩⟩
  case fenced => exact arrives.trans (congrArg _ (snoopArrive_fenced (s := s.arrive m) fenced not_closing))
  case off => exact arrives.trans (congrArg _ (snoopArrive_off (s := s.arrive m) unfenced enabled off))
  case holds =>
    refine arrives.trans (congrArg _ ?_)
    rw [snoopArrive_holds (s := s.arrive m) unfenced enabled waits, named]
  all_goals
    have reaches := arrives.trans (congrArg _ (snoopArrive_runs (s := s.arrive m) unfenced enabled run))
  case disabled => exact reaches.trans (congrArg _ (snoopL2_disabled (s := s.arrive m) off absent))
  case held =>
    exact ⟨fun sound => reaches.trans (congrArg _ (snoopL2_held (s := s.arrive m) on held merged sound)),
      fun lost => reaches.trans (congrArg _ (snoopL2_held_lost (s := s.arrive m) on held merged lost))⟩
  case absent =>
    exact fun absent given => reaches.trans (congrArg _ (snoopL2_absent (s := s.arrive m) on absent given))

/-! ### Transactions of the home -/

@[simp] theorem setTxn_txnAt_same (s : State) (line : Nat) (t : Txn) : (s.setTxn line t).txnAt line = some t := tfind_tput_same ..

/-- The message or the time that a transaction waits for lets it go on. -/
theorem resume_awaited {s : State} {line w : Nat} {t : Txn} {rest : List Act} (f : Txn → Txn) (txn : s.txnAt line = some t)
    (waits : t.plan = .await w :: rest) : s.resume line w f = (s.setTxn line { f t with plan := rest }).kick line := by
  simp [State.resume, txn, waits]

/-! ### Answers of holders (R245, R258) -/

/-- A transaction that has noted an answer to a snoop of code `code`, `os` being still owed. -/
def Txn.noted (t : Txn) (code : Nat) (os : List (Nat × Nat)) (a : Answer) : Txn :=
  { t with
    owed := os, forwarded := t.forwarded || ((code == 1 || code == 2) && a.data.isNone),
    answer := if code ≠ 3 then a.state else t.answer, data := a.data.or t.data, fresh := t.fresh || a.data.isSome }

theorem owed_without {g code : Nat} {os : List (Nat × Nat)} (others : ∀ o ∈ os, o.1 ≠ g) :
    ((g, code) :: os).filter (fun o => o.1 != g) = os := by
  rw [List.filter_cons_of_neg (by simp), List.filter_eq_self.mpr fun o ho => bne_iff_ne.mpr (others o ho)]

section
variable {s : State} {g line code : Nat} {t : Txn} {p : Place} {os : List (Nat × Nat)} (place : s.locate line = some p)
  (txn : s.txnAt line = some t) (owed : t.owed = (g, code) :: os) (others : ∀ o ∈ os, o.1 ≠ g)
include place txn owed others

theorem answered_noted {a : Answer} (present : a.present = true) (timely : a.late = false) (more : os ≠ []) :
    s.answered g line a = s.setTxn line (t.noted code os a) := by
  obtain ⟨st, data, pr, lt⟩ := a
  cases present
  cases timely
  cases data <;> simp [State.answered, place, txn, owed, owed_without others, more, Txn.noted]

theorem answered_last {a : Answer} {rest : List Act} (present : a.present = true) (timely : a.late = false) (last : os = [])
    (waits : t.plan = .await 0 :: rest) : s.answered g line a =
      ((s.setTxn line (t.noted code os a)).setTxn line { t.noted code os a with plan := rest }).kick line := by
  have goes := resume_awaited id (setTxn_txnAt_same s line (t.noted code os a)) waits
  obtain ⟨st, data, pr, lt⟩ := a
  cases present
  cases timely
  subst last
  cases data <;> simpa [State.answered, place, txn, owed, Txn.noted] using goes

/-- A sharer that had no copy is taken from the pointers of the entry (R222). -/
theorem answered_absent {a : Answer} {k : Nat} {l : List Nat} (entry : s.dirFind p.home line = some (k, .s (.ptr l)))
    (absent : a.present = false) (timely : a.late = false) (empty : a.data = none) (invalidated : code = 3) (more : os ≠ []) :
    s.answered g line a = (s.dirRemove p.home line g).setTxn line { t with owed := os } := by
  subst invalidated
  simp [State.answered, place, txn, owed, owed_without others, more, entry, absent, timely, empty]

/-- A holder that never answered is no holder any more. -/
theorem answered_never (more : os ≠ []) : s.answered g line ⟨.i, none, true, true⟩ =
    (s.dirRemove p.home line g).setTxn line { t with owed := os, answer := if code ≠ 3 then .i else t.answer } := by
  simp [State.answered, place, txn, owed, owed_without others, more]

end

theorem snoopAnswered_late {s : State} {g line : Nat} (a : Answer) (late : s.hier.lateSnoops.contains (g, line) = true) :
    s.snoopAnswered g line a = { s with hier := { s.hier with lateSnoops := s.hier.lateSnoops.erase (g, line) } } :=
  if_pos late

theorem snoopAnswered_timely {s : State} {g line : Nat} (a : Answer) (timely : s.hier.lateSnoops.contains (g, line) = false) :
    s.snoopAnswered g line a = s.answered g line a := by
  simp only [State.snoopAnswered, timely, Bool.false_eq_true, if_false]

/-- Removing a holder changes the directory alone. -/
theorem dirRemove_eq (s : State) (h line c : Nat) :
    ∃ ds, s.dirRemove h line c = { s with hier := { s.hier with dirs := ds } } := by
  unfold State.dirRemove
  split
  · split
    · unfold State.dirSet
      dsimp only
      split <;> exact ⟨_, rfl⟩
    · unfold State.dirFree
      split <;> exact ⟨_, rfl⟩
  · exact ⟨_, rfl⟩

/-! ### Expired waits of the home (R258, R278) -/

/-- The holder is the X holder or O owner of an entry. -/
def Dir.ownedBy : Dir → Nat → Bool
  | .x h, c => h == c
  | .o w _, c => w == c
  | .s _, _ => false

section
variable {s : State} {line : Nat} {t : Txn} {p : Place} (place : s.locate line = some p) (txn : s.txnAt line = some t)
include place txn

theorem snoopTimeout_early (g : Nat) (early : s.homeDue t.since = false) : s.snoopTimeout line g = s := by
  simp [State.snoopTimeout, place, txn, early]

/-- Besides the report and the count, a holder that did not answer in time leaves the directory, its answer is no longer owed, and
the line that it owned is poisoned. -/
theorem snoopTimeout_due {g code k : Nat} {os : List (Nat × Nat)} {dir : Dir} (owed : t.owed = (g, code) :: os) (more : os ≠ [])
    (others : ∀ o ∈ os, o.1 ≠ g) (entry : s.dirFind p.home line = some (k, dir)) (due : s.homeDue t.since = true) :
    ∃ ls ds a, s.snoopTimeout line g = { s with
      inflight := s.inflight ++ [.faultMessage (sliceSrc p.home) 0x10 (some (hdrOf t.req).tid) (64 * line % 2 ^ 52)]
      hier := { s.hier with
        slices := tput s.hier.slices p.home { s.slice p.home with
          snoopTimeouts := ((s.slice p.home).snoopTimeouts + 1) % 2 ^ 32 }
        lateSnoops := ls
        dirs := ds
        txns := tput s.hier.txns line { t with poison := t.poison || dir.ownedBy g, owed := os, answer := a } } } := by
  have owes : (!(t.owed.any fun o => o.1 == g) || !s.homeDue t.since) = false := by simp [owed, due]
  unfold State.snoopTimeout
  simp -zeta only [txn, place, owes, Bool.false_eq_true, if_false]
  extract_lets x counted reported owner coming _ noted
  have owns : owner = dir.ownedBy g := by
    simp only [owner]
    rw [show reported.dirFind p.home line = some (k, dir) from entry]
    cases dir <;> rfl
  obtain ⟨ls, kept⟩ : ∃ ls, noted = { reported with hier := { reported.hier with lateSnoops := ls } } := by
    simp only [noted]
    split <;> exact ⟨_, rfl⟩
  let marked : Txn := { t with poison := t.poison || owner }
  have placed : (noted.setTxn line marked).locate line = some p := by
    rw [kept]
    exact place
  obtain ⟨ds, removed⟩ := dirRemove_eq (noted.setTxn line marked) p.home line g
  refine ⟨ls, ds, if code ≠ 3 then .i else t.answer, ?_⟩
  rw [answered_never placed (setTxn_txnAt_same ..) owed others more, removed, kept, ← owns]
  simp only [State.setTxn, tput_tput]
  rfl

theorem waitExpired_early (early : s.homeDue t.since = false) : s.waitExpired line = s := by
  simp [State.waitExpired, place, txn, early]

/-- A wait for an acknowledgement, for given-up data or for DRAM ends with a report; data that did not come is poison. -/
theorem waitExpired_due {w : Nat} {rest : List Act} (waits : t.plan = .await w :: rest) (which : w = 1 ∨ w = 2 ∨ w = 3)
    (due : s.homeDue t.since = true) : s.waitExpired line =
      ((s.fault (sliceSrc p.home) 0x11 (some (hdrOf t.req).tid) (64 * line)).setTxn line { t with
        plan := rest, data := if w = 1 then t.data else some ⟨0, true⟩, fresh := if w = 2 then true else t.fresh }).kick
        line := by
  have goes (f : Txn → Txn) := resume_awaited (s := s.fault (sliceSrc p.home) 0x11 (some (hdrOf t.req).tid) (64 * line))
    f txn waits
  rcases which with rfl | rfl | rfl
  · simpa [State.waitExpired, place, txn, due, waits] using goes id
  · simpa [State.waitExpired, place, txn, due, waits] using goes fun t => { t with data := some ⟨0, true⟩, fresh := true }
  · simpa [State.waitExpired, place, txn, due, waits] using goes fun t => { t with data := some ⟨0, true⟩ }

end

/-- The answers of a holder that has or had a copy, with what each says. -/
def holderAnswers (g line : Nat) (d : LineData) (st : L2St) : List (Instr × Answer) :=
  [(.acki g line, ⟨.i, none, true, false⟩), (.acks g line, ⟨.s, none, true, false⟩), (.acke g line, ⟨.e, none, true, false⟩),
    (.acko g line, ⟨.o, none, true, false⟩), (.snpdata g line d st, ⟨st, some d, true, false⟩)]

theorem answer_arrives {g line : Nat} {d : LineData} {st : L2St} {s : State} {r : Instr × Answer} (core : g < 576)
    (lt : lineOk line = true) (hr : r ∈ holderAnswers g line d st) (may : s.mayArrive r.1 = true) :
    exec r.1 s = .next ((s.arrive r.1).snoopAnswered g line r.2) ∧ r.2.present = true ∧ r.2.late = false := by
  have wf : (coreOk g && lineOk line) = true := by rw [lt, coreOk_of_lt core]; rfl
  simp only [holderAnswers, List.mem_cons, List.not_mem_nil, or_false] at hr
  rcases hr with rfl | rfl | rfl | rfl | rfl <;>
    exact ⟨onArrival_of_may (fun s => s.snoopAnswered g line _) wf may, rfl, rfl⟩

theorem snoopAnswers : Claims.SnoopAnswers := by
  refine ⟨?answers, ?notPresent, ?never, ?expired⟩
  case answers =>
    intro g line s t p code os d st core lt place txn owed others r hr may u
    obtain ⟨arrives, present, timely⟩ := answer_arrives core lt hr may
    refine ⟨fun late => arrives.trans (congrArg _ (snoopAnswered_late (s := s.arrive r.1) _ late)), fun awaited => ?_⟩
    have answers := arrives.trans (congrArg _ (snoopAnswered_timely (s := s.arrive r.1) r.2 awaited))
    exact ⟨fun more => answers.trans (congrArg _ (answered_noted (s := s.arrive r.1) place txn owed others present timely more)),
      fun rest last waits =>
        answers.trans (congrArg _ (answered_last (s := s.arrive r.1) place txn owed others present timely last waits))⟩
  case notPresent =>
    intro g line k s t p os l core lt place txn owed more others entry may awaited
    have arrives : exec (.notpresent g line) s =
        .next ((s.arrive (.notpresent g line)).snoopAnswered g line ⟨.i, none, false, false⟩) :=
      onArrival_of_may (fun s => s.snoopAnswered g line ⟨.i, none, false, false⟩)
        (by rw [lt, coreOk_of_lt core]; rfl) may
    rw [arrives, snoopAnswered_timely (s := s.arrive _) _ awaited,
      answered_absent (s := s.arrive _) place txn owed others entry rfl rfl rfl rfl more]
  case never =>
    intro g line code k s t p os dir core lt place txn owed more others entry
    have runs : exec (.homeSnoopTimeout line g) s = .next (s.snoopTimeout line g) :=
      onWf_true _ (by rw [lt, coreOk_of_lt core]; rfl)
    refine ⟨fun early => runs.trans (congrArg _ (snoopTimeout_early place txn g early)), fun due => ?_⟩
    obtain ⟨ls, ds, a, ends⟩ := snoopTimeout_due place txn owed more others entry due
    refine ⟨_, runs.trans (congrArg _ ends), rfl, ?_, ?_, ?_⟩
    · simp [State.txnAt]
    · cases dir <;> simp [State.txnAt, Dir.ownedBy]
    · simp [State.slice]
  case expired =>
    intro line w s t p rest lt place txn waits which
    have runs : exec (.homeWaitExpired line) s = .next (s.waitExpired line) := onWf_true _ lt
    exact ⟨fun early => runs.trans (congrArg _ (waitExpired_early place txn early)),
      fun due => runs.trans (congrArg _ (waitExpired_due place txn waits which due))⟩

/-! ### What lets a transaction go on (R241, R293) -/

theorem grantAcked_eq {s : State} {line : Nat} {t : Txn} {a : Act} {rest : List Act} (txn : s.txnAt line = some t)
    (plan : t.plan = a :: rest) : s.grantAcked line = if a = .await 1 then (s.setTxn line { t with plan := rest }).kick line
      else s.setTxn line { t with acked := true } := by
  split
  next waits =>
    subst waits
    simpa [State.grantAcked, txn, plan] using resume_awaited id txn plan
  next waits =>
    unfold State.grantAcked
    simp only [txn, plan]
    split
    next same => exact absurd (List.cons.inj same).1 waits
    next => rfl

theorem layer1Answer_late {s : State} {line : Nat} (f : State → State) (late : s.hier.l1Late.contains line = true) :
    s.layer1Answer line f = { s with hier := { s.hier with l1Late := s.hier.l1Late.erase line } } := if_pos late

theorem layer1Answer_timely {s : State} {line : Nat} (f : State → State) (timely : s.hier.l1Late.contains line = false) :
    s.layer1Answer line f = f s := by
  simp only [State.layer1Answer, timely, Bool.false_eq_true, if_false]

theorem transactionEnds : Claims.TransactionEnds := by
  intro h line d s t a rest hdr lt txn plan
  have wf : (hdrOk h && lineOk line) = true := by rw [hdr, lt]; rfl
  have acks (may : s.mayArrive (.cmpack h line) = true) : exec (.cmpack h line) s =
      .next (if s.runsFor h line then (s.arrive (.cmpack h line)).grantAcked line else s.arrive (.cmpack h line)) :=
    onArrival_of_may (fun s => if s.runsFor h line then s.grantAcked line else s) wf may
  have brings : ∀ m ∈ [.wbdata h line d, .offerdata h line d], s.mayArrive m = true → exec m s =
      .next (if s.runsFor h line then (s.arrive m).resume line 2 fun t => { t with data := some d, fresh := true }
        else s.arrive m) := by
    intro m hm may
    simp only [List.mem_cons, List.not_mem_nil, or_false] at hm
    rcases hm with rfl | rfl <;> exact onArrival_of_may
      (fun s => if s.runsFor h line then s.resume line 2 fun t => { t with data := some d, fresh := true } else s) wf may
  refine ⟨fun runs => ⟨fun may => ?_, fun waits m hm may => ?_⟩, fun idle m hm may => ?_, fun may => ?memory⟩
  · rw [acks may, if_pos runs, grantAcked_eq (s := s.arrive _) txn plan]
  · rw [brings m hm may, if_pos runs, resume_awaited (s := s.arrive _) _ txn (waits ▸ plan)]
  · rcases List.mem_cons.mp hm with rfl | hm
    · rw [acks may, if_neg (by rw [idle]; decide)]
    · rw [brings m hm may, if_neg (by rw [idle]; decide)]
  case memory =>
    let s1 := s.arrive (.mdata line d)
    have arrives : exec (.mdata line d) s = .next (s1.layer1Answer line fun s =>
        (s.layer1Over line (· == 1)).resume line 3 fun t => { t with data := some d }) :=
      onArrival_of_may (fun s => s.layer1Answer line fun s =>
        (s.layer1Over line (· == 1)).resume line 3 fun t => { t with data := some d }) lt may
    refine ⟨fun awaited waits => ?_, fun late => arrives.trans (congrArg _ (layer1Answer_late (s := s1) _ late))⟩
    rw [arrives, layer1Answer_timely (s := s1) _ awaited,
      resume_awaited (s := s1.layer1Over line (· == 1)) _ txn (waits ▸ plan)]

/-- Settles O33. -/
theorem snoopTraffic : Obligations.SnoopTraffic := ⟨snoopAtHolder, snoopAnswers, transactionEnds⟩

end Sys2Proof.Machine
end

section
/-! SUPPORT. The proofs of the statements about the admission of requests at their home (R206, R235–R240, R282, R283, R337, R445):
what a home does with a request that its slice tags, the owner check and the fences let through, and what a grant of the order
channel does.

Where a definition looks a line's place up, the proofs name the lookup (`look`) before they rewrite its answer: unfolded, it compares
the line with the size of DRAM, a number that the kernel would count to. -/

namespace Sys2Proof.Machine

/-! ### The check of a slice's tags (R206) -/

/-- The check sends messages and changes the memory hierarchy, and nothing else. -/
theorem sliceCheck_eq (s : State) (h line : Nat) :
    ∃ ms hr, s.sliceCheck h line = { s with inflight := ms, hier := hr } := by
  unfold State.sliceCheck
  extract_lets b bad
  split
  · exact ⟨s.inflight, s.hier, rfl⟩
  · refine List.foldlRecOn bad _ (motive := fun u : State => ∃ ms hr, u = { s with inflight := ms, hier := hr })
      ⟨s.inflight, s.hier, rfl⟩ ?_
    rintro t ⟨ms, hr, rfl⟩ e -
    extract_lets x dropped
    split
    · exact ⟨_, _, rfl⟩
    · split <;> exact ⟨_, _, rfl⟩

section
variable (s : State) (h line : Nat)

@[simp] theorem sliceCheck_locate (l : Nat) : (s.sliceCheck h line).locate l = s.locate l := by
  obtain ⟨ms, hr, checked⟩ := sliceCheck_eq s h line
  rw [checked]
  rfl

@[simp] theorem sliceCheck_bases : (s.sliceCheck h line).bases = s.bases := by
  obtain ⟨ms, hr, checked⟩ := sliceCheck_eq s h line
  rw [checked]
  rfl

@[simp] theorem sliceCheck_denied (node l : Nat) : (s.sliceCheck h line).denied node l = s.denied node l := by
  obtain ⟨ms, hr, checked⟩ := sliceCheck_eq s h line
  rw [checked]
  rfl

end

/-! ### A request at its home (R235, R238, R337, R445) -/

/-- The order channel is between base dies: with one of them no request passes it. -/
theorem farOrdered_of_one_base {s : State} (m : Instr) (one : s.bases.length < 2) : s.farOrdered m = false := by
  unfold State.farOrdered
  split
  · rfl
  · split
    · rfl
    · split
      · rfl
      · simp [Nat.not_le.mpr one]

section
variable {s : State} {m : Instr} {h : Hdr} {line : Nat} {wl : Bool} {p : Place}
  (info : reqInfo m = some (h, line, wl)) (place : s.locate line = some p)
include info place

theorem homeArrive_denied (denied : s.denied h.node line = true) : s.homeArrive m =
    ((s.sliceCheck p.home line).withdraw h line wl).send (.err h (64 * line) 9) := by
  unfold State.homeArrive
  obtain ⟨l, look⟩ : ∃ l, s.locate = l := ⟨_, rfl⟩
  rw [look] at place ⊢
  simp [info, place, denied]

theorem homeArrive_admits (allowed : s.denied h.node line = false) (one : s.bases.length < 2) : s.homeArrive m =
    ((s.sliceCheck p.home line).enqueue p.base line (.of h wl (some m) false none)).kick line := by
  have near : (s.sliceCheck p.home line).farOrdered m = false := farOrdered_of_one_base m (by simpa using one)
  unfold State.homeArrive
  obtain ⟨l, look⟩ : ∃ l, s.locate = l := ⟨_, rfl⟩
  rw [look] at place ⊢
  simp [info, place, allowed, near, Nat.not_le.mpr one]

/-- A base die that does not run answers where it has no power or is in reset, and keeps the request where it is only held. -/
theorem homeReq_eq : s.homeReq m =
    if s.isFenced (1400 + p.base) then (s.withdraw h line wl).send (.err h (64 * line) 6)
    else if s.runs (baseUncore p.base) then s.homeArrive m
    else if (s.dom (baseUncore p.base)).inReset || (s.dom (baseUncore p.base)).st == .off ||
        (s.dom (baseUncore p.base)).st == .retained
    then (s.withdraw h line wl).send (.err h (64 * line) 3) else s.holdAt (baseUncore p.base) m := by
  unfold State.homeReq
  obtain ⟨l, look⟩ : ∃ l, s.locate = l := ⟨_, rfl⟩
  rw [look] at place ⊢
  simp only [info, place]

end

/-- DRAM ends below device space (R27, R29). -/
theorem not_device_of_locate {s : State} {line : Nat} {p : Place} (place : s.locate line = some p) :
    isDevice (64 * line) = false := by
  have populated : line < s.dramLines := Decidable.byContradiction fun beyond => by
    rw [State.locate, if_neg beyond] at place
    cases place
  have dies : s.bases.length ≤ 4 := List.length_filter_le ..
  have most : s.dramLines ≤ 4 * quarterLines := Nat.mul_le_mul_right _ dies
  refine decide_eq_false (Nat.not_le.mpr ?_)
  unfold quarterLines at most
  omega

theorem served_of_locate {s : State} {line : Nat} {p : Place} (h : Hdr) (op : GuestOp) (m : Instr)
    (place : s.locate line = some p) : s.served h line op m = s.homeReq m := by
  rw [State.served, not_device_of_locate place, if_neg Bool.false_ne_true]

theorem paOk_of_lineOk {line off : Nat} (lt : lineOk line = true) (within : off < 64) : paOk (64 * line + off) = true := by
  have below : line < 2 ^ 46 := of_decide_eq_true lt
  exact decide_eq_true (by omega)

/-- Each of the thirteen requests for a populated line, when it may arrive, is a request at the line's home. -/
theorem homeRequest_arrives {h : Hdr} {line off : Nat} {sh : Bool} {d : LineData} {q : Part} {a : AtomOp} {s : State} {m : Instr}
    {p : Place} (hdr : hdrOk h = true) (lt : lineOk line = true) (within : off < 64) (place : s.locate line = some p)
    (hm : m ∈ homeRequests h line off sh d q a) (may : s.mayArrive m = true) :
    (∃ wl, reqInfo m = some (h, line, wl)) ∧ exec m s = .next ((s.arrive m).homeReq m) := by
  have wf : (hdrOk h && lineOk line) = true := by rw [hdr, lt]; rfl
  have atHome (m : Instr) (op : GuestOp) : (s.arrive m).served h line op m = (s.arrive m).homeReq m :=
    served_of_locate h op m (p := p) place
  simp only [homeRequests, List.mem_cons, List.not_mem_nil, or_false] at hm
  rcases hm with rfl | rfl | rfl | rfl | rfl | rfl | rfl | rfl | rfl | rfl | rfl | rfl | rfl
  iterate 4 exact ⟨⟨_, rfl⟩, onArrival_of_may (fun s => s.homeReq _) wf may⟩
  · exact ⟨⟨_, rfl⟩, (onArrival_of_may (fun s => s.served h line .rd _) wf may).trans (congrArg _ (atHome _ _))⟩
  · exact ⟨⟨_, rfl⟩, (onArrival_of_may (fun s => s.served h line (.wr d) _) wf may).trans (congrArg _ (atHome _ _))⟩
  · exact ⟨⟨_, rfl⟩, (onArrival_of_may (fun s => s.served h line (.wrp q) _) wf may).trans (congrArg _ (atHome _ _))⟩
  · have named : (64 * line + off) / 64 = line := by omega
    exact ⟨⟨false, by rw [reqInfo, named]⟩,
      onArrival_of_may (fun s => s.homeReq _) (by rw [hdr, paOk_of_lineOk lt within]; rfl) may⟩
  iterate 5 exact ⟨⟨_, rfl⟩, onArrival_of_may (fun s => s.homeReq _) wf may⟩

theorem homeAdmission : Claims.HomeAdmission := by
  intro h line off sh d q a s p hdr lt within place m hm may
  obtain ⟨⟨wl, info⟩, arrives⟩ := homeRequest_arrives hdr lt within place hm may
  refine ⟨wl, info, ?_⟩
  intro s0 s1 u
  have place0 : s0.locate line = some p := place
  have comes := arrives.trans (congrArg Host.Outcome.next (homeReq_eq info place0))
  refine ⟨fun fenced => comes.trans (congrArg _ (if_pos fenced)), fun unfenced stopped => ?stopped, fun unfenced runs => ?runs⟩
  case stopped =>
    have stays := comes.trans (congrArg _ ((if_neg (Bool.eq_false_iff.mp unfenced)).trans (if_neg (Bool.eq_false_iff.mp stopped))))
    exact ⟨fun dark => stays.trans (congrArg _ (if_pos dark)),
      fun held => stays.trans (congrArg _ (if_neg (Bool.eq_false_iff.mp held)))⟩
  case runs =>
    have enters := comes.trans (congrArg _ ((if_neg (Bool.eq_false_iff.mp unfenced)).trans (if_pos runs)))
    exact ⟨fun denied => enters.trans (congrArg _ (homeArrive_denied info place0 denied)),
      fun allowed one => enters.trans (congrArg _ (homeArrive_admits info place0 allowed one))⟩

/-! ### A grant of the order channel (R239, R240, R282, R283) -/

/-- The grant to a station: its token leaves the queue and takes one of the station's credits for the home's base die, the turn
moves past the station, and the waveguide carries the token. -/
abbrev State.tokenGranted (s : State) (st base : Nat) (tk : Token) (ts : List Token) : State :=
  { s with hier := { s.hier with order := { s.hier.order with
    posted := tput s.hier.order.posted st ts, turn := (st + 1) % 5,
    used := tmod s.hier.order.used (4 * st + base) 0 (· + 1),
    frame := ringFrame (tk.word.setWidth 592) 0 0 false false } } }

theorem nextToken_of_none {s : State} (none : ∀ st, st < 5 → s.mayPost st = none) : s.nextToken = .none := by
  unfold State.nextToken
  rw [Option.map_eq_none_iff, List.findSome?_eq_none_iff]
  simp only [List.mem_map, List.mem_range]
  rintro st ⟨i, -, rfl⟩
  rw [none _ (Nat.mod_lt _ (by decide)), Option.map_none]

/-- A station that lost a grant admits no ordered request any more. -/
theorem grantLost_lost (s : State) (st : Nat) : (s.grantLost st).hier.order.lost.contains st = true := by
  unfold State.grantLost
  extract_lets fb counted o
  split
  next already => exact already
  next => simp

theorem grantLost_locate (s : State) (st line : Nat) : (s.grantLost st).locate line = s.locate line := by
  unfold State.grantLost
  extract_lets fb counted o
  split <;> rfl

section
variable {s : State} {st : Nat} {tk : Token} {ts : List Token} {p : Place}
  (within : st < 5) (turn : s.hier.order.turn = st) (posted : tget s.hier.order.posted st [] = tk :: ts)
  (place : s.locate tk.line = some p) (credit : tget s.hier.order.used (4 * st + p.base) 0 < s.creditShare)

include posted place credit in
theorem mayPost_of_credit : s.mayPost st = some (tk, ts) := by
  unfold State.mayPost
  obtain ⟨l, look⟩ : ∃ l, s.locate = l := ⟨_, rfl⟩
  rw [look] at place ⊢
  simp [posted, place, credit]

include within turn posted place credit

/-- The station whose turn it is comes first. -/
theorem nextToken_of_turn : s.nextToken = some (tk, { s with hier := { s.hier with order := { s.hier.order with
    posted := tput s.hier.order.posted st ts, turn := (st + 1) % 5,
    used := tmod s.hier.order.used (4 * st + p.base) 0 (· + 1) } } }) := by
  have first : (s.hier.order.turn + 0) % 5 = st := by omega
  have may := mayPost_of_credit posted place credit
  unfold State.nextToken
  obtain ⟨l, look⟩ : ∃ l, s.locate = l := ⟨_, rfl⟩
  rw [look] at place ⊢
  simp only [List.range_succ_eq_map, List.map_cons, List.findSome?_cons, first, may, Option.map_some, place]

/-- A grant that every station can correct. -/
theorem grantToken_seen : s.grantToken none =
    if s.hier.order.lost.contains p.base then s.tokenGranted st p.base tk ts
    else (s.tokenGranted st p.base tk ts).takeIn tk := by
  have placed : (s.tokenGranted st p.base tk ts).locate tk.line = some p := place
  unfold State.grantToken
  rw [nextToken_of_turn within turn posted place credit]
  obtain ⟨l, look⟩ : ∃ l, State.locate = l := ⟨_, rfl⟩
  rw [look] at placed ⊢
  dsimp only
  split
  next q same =>
    obtain rfl : p = q := Option.some.inj (placed.symm.trans same)
    rfl
  next absent => cases placed.symm.trans absent

/-- A grant that the home's station cannot correct. -/
theorem grantToken_lost (enabled : s.baseEn p.base = true) :
    s.grantToken (some p.base) = (s.tokenGranted st p.base tk ts).grantLost p.base := by
  have on : (p.base == 4 || (s.tokenGranted st p.base tk ts).baseEn p.base) = true :=
    Bool.or_eq_true_iff.mpr (.inr enabled)
  have placed := (grantLost_locate (s.tokenGranted st p.base tk ts) p.base tk.line).trans place
  unfold State.grantToken
  rw [nextToken_of_turn within turn posted place credit]
  obtain ⟨l, look⟩ : ∃ l, State.locate = l := ⟨_, rfl⟩
  rw [look] at placed ⊢
  dsimp only
  rw [if_pos on]
  split
  next q same =>
    obtain rfl : p = q := Option.some.inj (placed.symm.trans same)
    exact if_pos (grantLost_lost ..)
  next absent => cases placed.symm.trans absent

end

theorem orderGrant : Claims.OrderGrant := by
  refine ⟨fun s l none => ?_, fun s st tk ts p within turn posted place credit => ⟨fun admits => ?_, fun lost => ?_,
    fun enabled => congrArg Host.Outcome.next (grantToken_lost within turn posted place credit enabled)⟩⟩
  · show Host.Outcome.next (s.grantToken l) = _
    rw [State.grantToken, nextToken_of_none none]
  · exact congrArg Host.Outcome.next ((grantToken_seen within turn posted place credit).trans
      (if_neg (Bool.eq_false_iff.mp admits)))
  · exact congrArg Host.Outcome.next ((grantToken_seen within turn posted place credit).trans (if_pos lost))

/-- Settles O31. -/
theorem homeAdmits : Obligations.HomeAdmits := ⟨homeAdmission, orderGrant⟩

end Sys2Proof.Machine
end

section
/-! SUPPORT. The proofs of the statements about layer-1 requests, line writes and memory (R253, R254, R290–R301, R416): what a stack
controller does with a request that its door lets through, that a stored line reads back, and that every command that stores keeps
memory's canonical form. As in the section before, a proof names the lookup of a line's place (`look`) before it rewrites its
answer. -/

namespace Sys2Proof.Machine

/-! ### Bytes and values (R6) -/

theorem leNat_append (l m : List Byte) : leNat (l ++ m) = leNat l + 256 ^ l.length * leNat m := by
  induction l with
  | nil => simp [leNat]
  | cons b l ih =>
    simp only [List.cons_append, leNat, ih, List.length_cons]
    rw [Nat.mul_add, Nat.pow_succ', Nat.mul_assoc, Nat.add_assoc]

theorem byteOf_toNat {w : Nat} (x : BitVec w) (i : Nat) : (byteOf x i).toNat = x.toNat / 256 ^ i % 256 := by
  rw [byteOf, BitVec.extractLsb'_toNat, Nat.shiftRight_eq_div_pow, Nat.pow_mul]

theorem leNat_toBytes {w : Nat} (x : BitVec w) (n : Nat) : leNat (toBytes x n) = x.toNat % 256 ^ n := by
  induction n with
  | zero => simp [toBytes, leNat, Nat.mod_one]
  | succ n ih =>
    have snoc : toBytes x (n + 1) = toBytes x n ++ [byteOf x n] := by simp [toBytes, List.range_succ]
    rw [snoc, leNat_append, ih, Nat.pow_succ, Nat.mod_mul]
    simp [toBytes, leNat, byteOf_toNat]

/-- A value is the value of its bytes. -/
theorem ofBytes_toBytes {w n : Nat} (x : BitVec w) (width : w = 8 * n) : ofBytes w (toBytes x n) = x := by
  subst width
  have fits : x.toNat < 256 ^ n := Nat.lt_of_lt_of_eq x.isLt (Nat.pow_mul ..)
  rw [ofBytes, leNat_toBytes, Nat.mod_eq_of_lt fits, BitVec.ofNat_toNat, BitVec.setWidth_eq]

/-! ### A stored line (R295–R297, R301) -/

/-- The line's bytes, written into memory of canonical form, are what its location reads. -/
theorem readRaw_memWriteBytes {m : List Host.Cell} (wf : memWf m = true) (loc : Nat) (v : Line) :
    readRaw (memWriteBytes m (64 * loc) v 64) loc = v := by
  have bytes : (List.range 64).map (fun i => memRead (memWriteBytes m (64 * loc) v 64) (64 * loc + i)) = toBytes v 64 :=
    List.map_congr_left fun i hi => memRead_writeBytes_in m (64 * loc) v 64 i wf (List.mem_range.mp hi)
  rw [readRaw, bytes, ofBytes_toBytes v rfl]

theorem cipher_of_unowned {m : Mc} {line : Nat} (enc : Bool) (l : Line) (unowned : rangeOwner m.ranges line = none) :
    m.cipher enc line l = l := by
  simp only [Mc.cipher, unowned]

theorem storeRaw_unarmed {s : State} {k : Nat} (loc : Nat) (data : Line) (delta : BitVec 64) (unarmed : (s.mc k).armed = false) :
    s.storeRaw k loc data delta = { s with hier := { s.hier with
      dram := memWriteBytes s.hier.dram (64 * loc) data 64,
      chk := if delta == 0 then tdel s.hier.chk loc else tput s.hier.chk loc delta } } := by
  simp [State.storeRaw, unarmed]

/-- The check difference stored for a line; 0 is not listed. -/
theorem tget_check (t : Table (BitVec 64)) (loc : Nat) (delta : BitVec 64) :
    tget (if delta == 0 then tdel t loc else tput t loc delta) loc 0 = delta := by
  split
  next zero => rw [tget, tfind_tdel_same, Option.getD_none, eq_of_beq zero]
  next => exact tget_tput_same ..

theorem dramLoc_of_mcs {s t : State} (same : t.hier.mcs = s.hier.mcs) (k a : Nat) : t.dramLoc k a = s.dramLoc k a := by
  simp only [State.dramLoc, State.mc, same]

/-- A line whose location holds its bytes and their check difference reads as that line. -/
theorem dramPeek_of_stored {s : State} {p : Place} {line loc : Nat} {d : LineData} (lies : s.dramLoc p.stack p.local_ = loc)
    (raw : readRaw s.hier.dram loc = d.bytes) (check : tget s.hier.chk loc 0 = if d.poison then poisonMark else 0)
    (unowned : rangeOwner (s.mc p.stack).ranges line = none) : s.dramPeek p line = d := by
  have looks : s.dramLook p = (d.bytes, if d.poison then .poisoned else .clean) := by
    simp only [State.dramLook, lies, raw, check]
    split <;> rfl
  have plain := cipher_of_unowned false d.bytes unowned
  unfold State.dramPeek
  rw [looks]
  obtain ⟨bytes, poison⟩ := d
  cases poison <;> simp [correctLine, plain]

theorem dramPeek_dramWrite {s : State} {p : Place} {line : Nat} (d : LineData) (wf : memWf s.hier.dram = true)
    (unarmed : (s.mc p.stack).armed = false) (unowned : rangeOwner (s.mc p.stack).ranges line = none) :
    (s.dramWrite p line d).dramPeek p line = d := by
  rw [State.dramWrite, cipher_of_unowned true d.bytes unowned, storeRaw_unarmed _ _ _ unarmed]
  refine dramPeek_of_stored (loc := s.dramLoc p.stack p.local_) (dramLoc_of_mcs ?_ ..) ?_ ?_ ?_ <;> dsimp only
  · exact readRaw_memWriteBytes wf ..
  · exact tget_check ..
  · simpa only [State.mc] using unowned

/-- A coded write changes the bytes and the check of its location, and its stack's controller, which spends an armed mask. -/
theorem storeRaw_eq (s : State) (k loc : Nat) (data : Line) (delta : BitVec 64) : ∃ (stored : Line) (ms : Table Mc)
    (cs : Table (BitVec 64)), s.storeRaw k loc data delta = { s with hier := { s.hier with
      dram := memWriteBytes s.hier.dram (64 * loc) stored 64, mcs := ms, chk := cs } } := by
  unfold State.storeRaw
  dsimp only
  split <;> exact ⟨_, _, _, rfl⟩

theorem storeRaw_other (s : State) (k : Nat) {loc a : Nat} (data : Line) (delta : BitVec 64) (other : a / 64 ≠ loc) :
    memRead (s.storeRaw k loc data delta).hier.dram a = memRead s.hier.dram a := by
  obtain ⟨stored, ms, cs, eq⟩ := storeRaw_eq s k loc data delta
  rw [eq]
  dsimp only
  rw [memRead_writeBytes_out _ _ _ _ _ (by omega)]

theorem storedLines : Claims.StoredLines := fun s _ _ d wf =>
  ⟨dramPeek_dramWrite d wf, fun _ other => storeRaw_other s _ (Mc.cipher _ true _ d.bytes) _ other⟩

/-! ### What accesses to a stack leave of the home (R265, R266) -/

/-- A controller's answer names the transaction of the line, so it is the same while the transactions are. -/
theorem homeHdr_of_txns {s t : State} (same : t.hier.txns = s.hier.txns) (p : Place) (line : Nat) :
    t.homeHdr p line = s.homeHdr p line := by
  rw [State.homeHdr, State.txnAt, same, State.homeHdr, State.txnAt]

theorem storeRaw_txns (s : State) (k loc : Nat) (data : Line) (delta : BitVec 64) :
    (s.storeRaw k loc data delta).hier.txns = s.hier.txns := by
  obtain ⟨stored, ms, cs, eq⟩ := storeRaw_eq s k loc data delta
  rw [eq]

theorem countCorrected_txns (s : State) (k line sym : Nat) (message : Bool) :
    (s.countCorrected k line sym message).hier.txns = s.hier.txns := by
  unfold State.countCorrected
  extract_lets m recent n
  split <;> rfl

theorem setMc_txns (s : State) (k : Nat) (m : Mc) : (s.setMc k m).hier.txns = s.hier.txns := rfl

theorem recordPoison_txns (s : State) (k loc line : Nat) (raw : Line) :
    (s.recordPoison k loc line raw).hier.txns = s.hier.txns := by
  rw [State.recordPoison, fault_hier, setMc_txns, storeRaw_txns]

theorem dramRead_txns (s : State) (p : Place) (line : Nat) : (s.dramRead p line).2.hier.txns = s.hier.txns := by
  unfold State.dramRead
  extract_lets r d
  split
  · exact countCorrected_txns ..
  · exact recordPoison_txns ..
  · rfl

/-- Only power changes at a door. -/
theorem startWake_hier (s : State) (d : Nat) : (s.startWake d).hier = s.hier := by
  unfold State.startWake
  extract_lets x ok t u
  have same : t.hier = s.hier := by
    simp only [t]
    split <;> rfl
  rw [← same]
  split
  · split <;> rfl
  · rfl

theorem door_hier (s : State) (d : Nat) (vn1 : Bool) : (s.door d vn1).2.hier = s.hier := by
  unfold State.door
  extract_lets x
  split
  · rfl
  · split
    · split
      · rfl
      · split <;> rfl
    · split <;> rfl
    · rfl
    · split
      · rfl
      · exact startWake_hier s d

/-! ### A layer-1 request at its stack (R416, R439, R500) -/

theorem door_fenced {s : State} {d : Nat} (vn1 : Bool) (fenced : s.unitFenced d = true) : s.door d vn1 = (.fenced, s) :=
  if_pos fenced

theorem door_serves {s : State} {d : Nat} (unfenced : s.unitFenced d = false) (run : (s.dom d).st = .run)
    (awake : (s.dom d).inReset = false) : s.door d true = (.serve, s) := by
  simp [State.door, unfenced, run, awake]

/-- A stack that serves a request has left self-refresh and counts the grant. -/
def State.granting (s : State) (k : Nat) : State :=
  s.setMc k { s.mc k with selfRefresh := false, grants := (s.mc k).grants + 1 }

/-- What a layer-1 request comes to. The definition is opened as a function (`layer`), before it has a line to look up. -/
theorem layer1_eq (s : State) (line : Nat) (serve : Place → State → State) :
    s.layer1 line serve = (s.locate line).elim s fun p =>
      let r := s.door (stackDomain p.stack) true
      if r.1 = .serve then serve p (r.2.granting p.stack)
      else r.2.send (.err (r.2.homeHdr p line) (64 * line) (BitVec.ofNat 16 r.1.code)) := by
  obtain ⟨f, layer⟩ : ∃ f, @State.layer1 = f := ⟨_, rfl⟩
  obtain ⟨l, look⟩ : ∃ l, State.locate = l := ⟨_, rfl⟩
  rw [layer, look]
  delta State.layer1 at layer
  rw [look] at layer
  subst layer
  dsimp only
  cases l s line with
  | none => rfl
  | some p =>
    dsimp only [Option.elim_some]
    obtain ⟨d, asks⟩ : ∃ d, s.door (stackDomain p.stack) true = d := ⟨_, rfl⟩
    rw [asks]
    obtain ⟨a, t⟩ := d
    cases a <;> rfl

theorem layer1_unplaced {s : State} {line : Nat} (serve : Place → State → State) (place : s.locate line = none) :
    s.layer1 line serve = s := by
  rw [layer1_eq, place, Option.elim_none]

section
variable {s : State} {line : Nat} {p : Place} (serve : Place → State → State) (place : s.locate line = some p)
include place

theorem layer1_serves {t : State} (opened : s.door (stackDomain p.stack) true = (.serve, t)) :
    s.layer1 line serve = serve p (t.granting p.stack) := by
  rw [layer1_eq, place, Option.elim_some, opened]
  exact if_pos rfl

theorem layer1_refuses {a : DoorAns} {t : State} (answer : s.door (stackDomain p.stack) true = (a, t)) (refused : a ≠ .serve) :
    s.layer1 line serve = t.send (.err (s.homeHdr p line) (64 * line) (BitVec.ofNat 16 a.code)) := by
  have same : t.homeHdr p line = s.homeHdr p line := by
    have kept := door_hier s (stackDomain p.stack) true
    rw [answer] at kept
    exact homeHdr_of_txns (congrArg Hier.txns kept) p line
  rw [layer1_eq, place, Option.elim_some, answer, ← same]
  exact if_neg refused

end

section
variable {s : State} {m : Instr} {line : Nat} {p : Place} {ok : Bool} (serve : Place → State → State) (wf : ok = true)
  (may : s.mayArrive m = true) (place : s.locate line = some p)
include wf may place

theorem layer1_arrives (opened : (s.arrive m).door (stackDomain p.stack) true = (.serve, s.arrive m)) :
    onArrival ok m s (fun s => s.layer1 line serve) = .next (serve p ((s.arrive m).granting p.stack)) :=
  (onArrival_of_may _ wf may).trans (congrArg _ (layer1_serves (s := s.arrive m) serve place opened))

theorem layer1_arrives_refused {a : DoorAns} {t : State} (answer : (s.arrive m).door (stackDomain p.stack) true = (a, t))
    (refused : a ≠ .serve) : onArrival ok m s (fun s => s.layer1 line serve) =
      .next (t.send (.err (s.homeHdr p line) (64 * line) (BitVec.ofNat 16 a.code))) :=
  (onArrival_of_may _ wf may).trans (congrArg _ (layer1_refuses (s := s.arrive m) serve place answer refused))

end

theorem layerOneRequests : Claims.LayerOneRequests := by
  intro line s p lt place k awake
  refine ⟨fun unfenced run up => ?served, fun fenced m hm may => ?fenced, fun m hm may a t answer refused => ?refused⟩
  case fenced =>
    have answer : (s.arrive m).door (stackDomain p.stack) true = (.fenced, s.arrive m) := door_fenced true fenced
    simp only [List.mem_cons, List.not_mem_nil, or_false] at hm
    rcases hm with rfl | rfl <;> exact layer1_arrives_refused _ lt may place answer (by decide)
  case refused =>
    simp only [List.mem_cons, List.not_mem_nil, or_false] at hm
    rcases hm with rfl | rfl <;> exact layer1_arrives_refused _ lt may place answer refused
  case served =>
    have opened (m : Instr) : (s.arrive m).door (stackDomain p.stack) true = (.serve, s.arrive m) :=
      door_serves (s := s.arrive m) unfenced run up
    have header {m : Instr} {d : LineData} {s2 : State} (read : (awake (s.arrive m)).dramRead p line = (d, s2)) :
        s2.homeHdr p line = s.homeHdr p line := by
      have kept := dramRead_txns (awake (s.arrive m)) p line
      rw [read] at kept
      exact homeHdr_of_txns kept p line
    refine ⟨fun may d s2 read => ?read, fun may => layer1_arrives _ lt may place (opened _), fun q d s2 may read => ?merge,
      fun req off a d s2 hdr within may read => ?atom⟩
    case read =>
      refine (layer1_arrives _ lt may place (opened _)).trans (congrArg _ ?_)
      have read : ((s.arrive (.mrd line)).granting p.stack).dramRead p line = (d, s2) := read
      simp only [read]
    case merge =>
      refine (layer1_arrives _ lt may place (opened _)).trans (congrArg _ ?_)
      rw [← header read]
      have read : ((s.arrive (.mmerge line q)).granting p.stack).dramRead p line = (d, s2) := read
      simp only [read]
    case atom =>
      have named : (64 * line + off) / 64 = line := by omega
      have byte : (64 * line + off) % 64 = off := by omega
      refine (layer1_arrives (line := (64 * line + off) / 64) _ (by rw [hdr, paOk_of_lineOk lt within]; rfl) may
        (named.symm ▸ place) (opened _)).trans (congrArg _ ?_)
      have written : (if d.poison || a.poison then s2 else s2.dramWrite p line ⟨(atomLine a d.bytes off).2, false⟩).homeHdr p
          line = s.homeHdr p line := by
        refine (homeHdr_of_txns ?_ p line).trans (header read)
        split
        · rfl
        · exact storeRaw_txns ..
      rw [← written]
      have read : ((s.arrive (.matom req (64 * line + off) a)).granting p.stack).dramRead p line = (d, s2) := read
      simp only [named, byte, read]

/-! ### Line writes (R294) -/

theorem lineWrites : Claims.LineWrites := by
  intro line d s p lt place
  refine ⟨fun may kept => ?go, fun may waits => ?data, fun may absent => ?stray, fun t rest waits txn plan => ?tokens⟩
  case go =>
    show execMwrgo line s = _
    rw [execMwrgo, onArrival_of_may _ lt may]
    have kept : tfind? (s.arrive (.mwrgo line)).hier.wq line = some d := kept
    simp only [kept]
  case tokens =>
    have runs : exec (.dramTokenWaitEnd line) s = .next (({ s with qos := { s.qos with
        waiting := s.qos.waiting.erase line } } : State).resume line 5 id) :=
      (onWf_true _ lt).trans (congrArg _ (if_pos waits))
    rw [runs, resume_awaited (s := { s with qos := { s.qos with waiting := s.qos.waiting.erase line } }) id txn plan]
    rfl
  all_goals
    show execMwrdata line d s = _
    rw [execMwrdata, onArrival_of_may _ lt may]
    have placed : (s.arrive (.mwrdata line d)).locate line = some p := place
    obtain ⟨l, look⟩ : ∃ l, (s.arrive (.mwrdata line d)).locate = l := ⟨_, rfl⟩
    rw [look] at placed ⊢
    simp only [placed]
  case data => exact congrArg _ (if_pos waits)
  case stray => exact congrArg _ (if_neg (Bool.eq_false_iff.mp absent))

/-! ### The canonical form (R501) -/

theorem onWf_next {ok : Bool} {s t : State} (ends : onWf ok s = .next t) : t = s := by
  unfold onWf at ends
  split at ends
  · exact (Host.Outcome.next.inj ends).symm
  · cases ends

/-- A message leaves memory in form when its arrival does. -/
theorem arrival_wf {ok : Bool} {m : Instr} {s t : State} {f : State → State} (ends : onArrival ok m s f = .next t)
    (wf : memWf s.hier.dram = true) (arrives : memWf (f (s.arrive m)).hier.dram = true) : memWf t.hier.dram = true := by
  rw [onWf_next ends]
  split
  · exact arrives
  · exact wf

theorem layer1_wf {s : State} {line : Nat} {serve : Place → State → State}
    (serves : ∀ p u, memWf u.hier.dram = true → memWf (serve p u).hier.dram = true) (wf : memWf s.hier.dram = true) :
    memWf (s.layer1 line serve).hier.dram = true := by
  rcases place : s.locate line with _ | p
  case none => rwa [layer1_unplaced serve place]
  case some =>
    rcases answer : s.door (stackDomain p.stack) true with ⟨a, t⟩
    have same : t.hier = s.hier := by rw [← door_hier s (stackDomain p.stack) true, answer]
    have kept : memWf t.hier.dram = true := by rwa [same]
    by_cases served : a = .serve
    · subst served
      rw [layer1_serves serve place answer]
      exact serves p _ kept
    · rw [layer1_refuses serve place answer served]
      exact kept

theorem layer1_arrival_wf {ok : Bool} {m : Instr} {s t : State} {line : Nat} {serve : Place → State → State}
    (ends : onArrival ok m s (fun s => s.layer1 line serve) = .next t)
    (serves : ∀ p u, memWf u.hier.dram = true → memWf (serve p u).hier.dram = true) (wf : memWf s.hier.dram = true) :
    memWf t.hier.dram = true := by
  have left : t = if s.mayArrive m then (s.arrive m).layer1 line serve else s := onWf_next ends
  rw [left]
  split
  · exact layer1_wf (s := s.arrive m) serves wf
  · exact wf

theorem recordPoison_wf {s : State} (k loc line : Nat) (raw : Line) (wf : memWf s.hier.dram = true) :
    memWf (s.recordPoison k loc line raw).hier.dram = true := by
  rw [State.recordPoison, fault_hier, setMc_dram]
  exact storeRaw_wf s k loc raw poisonMark wf

theorem scrubLine_wf {s : State} (k line : Nat) (p : Place) (repair : Bool) (wf : memWf s.hier.dram = true) :
    memWf (s.scrubLine k line p repair).hier.dram = true := by
  unfold State.scrubLine
  dsimp only
  split
  · exact wf
  · rw [countCorrected_dram, setMc_dram]
    split
    · exact storeRaw_wf _ _ _ _ _ wf
    · exact wf
  · exact wf
  · rw [setMc_dram]
    split
    · exact recordPoison_wf _ _ _ _ wf
    · exact wf

theorem scrubStep_wf {s : State} (k : Nat) (wf : memWf s.hier.dram = true) : memWf (s.scrubStep k).hier.dram = true := by
  unfold State.scrubStep
  obtain ⟨l, look⟩ : ∃ l, State.locate = l := ⟨_, rfl⟩
  rw [look]
  split
  · exact wf
  next q _ =>
    extract_lets m1 s1 m s2 m2
    have stepped : memWf s2.hier.dram = true := by
      simp only [s2]
      split
      · split
        · exact scrubLine_wf (s := s1) k _ _ _ wf
        · exact wf
      · exact wf
    split
    · split <;> exact stepped
    · exact stepped

theorem remapCopy_wf {s : State} (k : Nat) (wf : memWf s.hier.dram = true) : memWf (s.remapCopy k).hier.dram = true := by
  unfold State.remapCopy
  extract_lets m s1
  split
  · exact wf
  next n row i rest _ =>
    extract_lets a loc line raw cl dst s2 m2
    have copied : memWf s2.hier.dram = true := by
      simp only [s2]
      clear_value cl
      split
      · exact storeRaw_wf s1 _ _ _ _ wf
      · rw [countCorrected_dram]
        exact storeRaw_wf s1 _ _ _ _ wf
      · exact storeRaw_wf s1 _ _ _ _ wf
      · exact recordPoison_wf (s := s1) _ _ _ _ wf
    split <;> exact copied

section
variable {s t : State} (wf : memWf s.hier.dram = true)
include wf

theorem execMrd_wf {line : Nat} (ends : execMrd line s = .next t) : memWf t.hier.dram = true :=
  layer1_arrival_wf ends (fun p u kept => dramRead_wf u p line kept) wf

theorem execMwr_wf {line : Nat} (ends : execMwr line s = .next t) : memWf t.hier.dram = true :=
  layer1_arrival_wf ends (fun _ _ kept => kept) wf

theorem execMmerge_wf {line : Nat} {q : Part} (ends : execMmerge line q s = .next t) : memWf t.hier.dram = true := by
  refine layer1_arrival_wf ends (fun p u kept => ?_) wf
  dsimp only [send_hier]
  exact dramWrite_wf _ p line _ (dramRead_wf u p line kept)

theorem execMatom_wf {req : Hdr} {pa : Nat} {a : AtomOp} (ends : execMatom req pa a s = .next t) :
    memWf t.hier.dram = true := by
  refine layer1_arrival_wf ends (fun p u kept => ?_) wf
  have read := dramRead_wf u p (pa / 64) kept
  dsimp only [send_hier]
  split
  · exact read
  · exact dramWrite_wf _ p (pa / 64) _ read

theorem execMwrgo_wf {line : Nat} (ends : execMwrgo line s = .next t) : memWf t.hier.dram = true := by
  rw [execMwrgo] at ends
  refine arrival_wf ends wf ?_
  split <;> exact wf

theorem execMwrdata_wf {line : Nat} {d : LineData} (ends : execMwrdata line d s = .next t) : memWf t.hier.dram = true := by
  rw [execMwrdata] at ends
  obtain ⟨l, look⟩ : ∃ l, State.locate = l := ⟨_, rfl⟩
  rw [look] at ends
  refine arrival_wf ends wf ?_
  split
  · exact wf
  · dsimp only
    split
    · dsimp only [send_hier]
      exact dramWrite_wf _ _ line d wf
    · exact wf

theorem execScrubStep_wf {k : Nat} (ends : execScrubStep k s = .next t) : memWf t.hier.dram = true := by
  rw [onWf_next ends]
  split
  · exact scrubStep_wf k wf
  · exact wf

theorem execRemapCopyStep_wf {k : Nat} (ends : execRemapCopyStep k s = .next t) : memWf t.hier.dram = true := by
  rw [onWf_next ends]
  split
  · exact remapCopy_wf k wf
  · exact wf

end

theorem memoryForm : Claims.MemoryForm := by
  refine ⟨reset_memory_wf, fun line k req pa a q d s t wf m hm ends => ?_⟩
  simp only [List.mem_cons, List.not_mem_nil, or_false] at hm
  rcases hm with rfl | rfl | rfl | rfl | rfl | rfl | rfl | rfl
  · exact execMrd_wf wf ends
  · exact execMwr_wf wf ends
  · exact execMmerge_wf wf ends
  · exact execMatom_wf wf ends
  · exact execMwrgo_wf wf ends
  · exact execMwrdata_wf wf ends
  · exact execScrubStep_wf wf ends
  · exact execRemapCopyStep_wf wf ends

/-- Settles O35. -/
theorem memoryTraffic : Obligations.MemoryTraffic := ⟨layerOneRequests, lineWrites, storedLines, memoryForm⟩

end Sys2Proof.Machine
end

section
/-! SUPPORT. The statement about the fabric and the ring (R262–R281): what a flit at a router, a tag after a timeout and a frame
on the ring do; and its refutation, since a timed-out tag does not always take down the time at which the timeout began. -/

namespace Sys2Proof.Machine

/-! ### Flits at routers (R267, R272) -/

/-- What a router finds in a flit's nine words and in the route word, counted in MESH_ERR. -/
def State.countWords (s : State) (die : Nat) (ws : List WordErr) (routeOk : Bool) : State :=
  s.setFab die { s.fabBlock die with
    meshCe := min ((s.fabBlock die).meshCe + ws.countP (· == .corrected)) (2 ^ 32 - 1)
    meshUe := min ((s.fabBlock die).meshUe + ws.countP (· == .uncorrectable) + (!routeOk).toNat) (2 ^ 32 - 1) }

/-- The header, the address or the route word of a flit is uncorrectable. -/
def FlitInfo.Lost (f : FlitInfo) (ws : List WordErr) (routeOk : Bool) : Prop :=
  ws[0]? = some .uncorrectable ∨ (f.addressed = true ∧ ws[8]? = some .uncorrectable) ∨ routeOk = false

/-- A flit is at an input of a running router of a die, and the arbiter grants it. -/
def State.FlitGranted (s : State) (die : Nat) (g : Flight) : Prop :=
  (g.path.head?).bind (·.1.die) = some die ∧ s.routersRun die = true ∧ s.granted? g = true

section
variable {die : Nat} {m : Instr} {f : FlitInfo} {ws : List WordErr} {routeOk : Bool}

theorem checked_of_lost (s : State) (nine : ws.length = 9) (lost : f.Lost ws routeOk) : s.checked die m f ws routeOk =
    (none, ((s.countWords die ws routeOk).arrive m).fault (fabSrc die) 0x20 none 0) := by
  have all : ws.take 9 = ws := List.take_of_length_le (Nat.le_of_eq nine)
  have bad : (ws[0]? == some .uncorrectable || (f.addressed && ws[8]? == some .uncorrectable) || !routeOk) = true := by
    simpa [FlitInfo.Lost, or_assoc] using lost
  simp only [State.checked, all, bad]
  rfl

theorem checked_of_kept (s : State) (nine : ws.length = 9) (kept : ¬ f.Lost ws routeOk) : s.checked die m f ws routeOk =
    if 0 < ws.countP (· == .uncorrectable) then (some (poisonMsg m), (s.countWords die ws routeOk).poisonFlit m)
    else (some m, s.countWords die ws routeOk) := by
  have all : ws.take 9 = ws := List.take_of_length_le (Nat.le_of_eq nine)
  have good : (ws[0]? == some .uncorrectable || (f.addressed && ws[8]? == some .uncorrectable) || !routeOk) = false := by
    rw [← Bool.not_eq_true]
    simpa [FlitInfo.Lost, or_assoc] using kept
  simp only [State.checked, all, good]
  rfl

variable {i : Nat} {s : State} {g : Flight} (part : die < 17) (sent : s.inflight[i]? = some m) (flit : s.flitOf m = some f)
  (flight : ((s.enter m f).settle m).hier.flights.find? (·.msg == m) = some g)
include part sent flit flight

theorem flitHop_stays (stays : ¬ ((s.enter m f).settle m).FlitGranted die g) : exec (.flitHop die i ws routeOk) s = .next s := by
  have blocked : ((g.path.head?).bind (·.1.die) != some die || !((s.enter m f).settle m).routersRun die ||
      !((s.enter m f).settle m).granted? g) = true := by
    rw [← Bool.not_eq_false]
    simpa [State.FlitGranted] using stays
  refine (onWf_true _ (decide_eq_true part)).trans ?_
  simp only [State.flitHop, sent, flit, flight, blocked]
  rfl

theorem flitHop_checks {r : Option Instr × State} (granted : ((s.enter m f).settle m).FlitGranted die g)
    (finds : ((s.enter m f).settle m).checked die m f ws routeOk = r) : exec (.flitHop die i ws routeOk) s =
      .next (r.1.elim r.2 fun m' => r.2.grant { g with msg := m' } { f with poison := f.poison || m' != m }) := by
  obtain ⟨here, runs, grants⟩ := granted
  refine (onWf_true _ (decide_eq_true part)).trans ?_
  simp only [State.flitHop, sent, flit, flight, here, runs, grants, finds]
  obtain ⟨_ | m', t⟩ := r <;> simp

end

theorem flitsAtRouters : Claims.FlitsAtRouters := by
  intro die i ws routeOk s m f g part sent flit nine t flight ce ue s1 lost here
  refine ⟨flitHop_stays part sent flit flight,
    fun granted gone => flitHop_checks part sent flit flight granted (checked_of_lost t nine gone),
    fun granted kept => ⟨fun sound => ?_, fun poisoned => ?_⟩⟩
  · have clean : t.checked die m f ws routeOk = (some m, s1) := by
      rw [checked_of_kept t nine kept, if_neg (by omega)]
      rfl
    simpa using flitHop_checks part sent flit flight granted clean
  · have marked : t.checked die m f ws routeOk = (some (poisonMsg m), s1.poisonFlit m) := by
      rw [checked_of_kept t nine kept, if_pos poisoned]
      rfl
    exact flitHop_checks part sent flit flight granted marked

/-! ### Frames on the ring (R279–R281) -/

theorem setPair_got {s : State} {a b : Nat} {p : Pair} (same : p.got = (s.pair a b).got) (c d : Nat) :
    ((s.setPair a b p).pair c d).got = (s.pair c d).got := by
  by_cases key : 5 * c + d = 5 * a + b
  · simpa [State.setPair, State.pair, key] using same
  · simp [State.setPair, State.pair, tget_tput_ne, key]

@[simp] theorem setFab_fabBlock_same (s : State) (die : Nat) (f : FabBlock) : (s.setFab die f).fabBlock die = f := by
  simp [State.setFab, State.fabBlock]

/-- An update of the ring leaves what the stations count of bad frames, and what each pair has received in order. -/
structure RingFrame (s t : State) : Prop where
  fab : ∀ die, t.fabBlock die = s.fabBlock die
  got : ∀ a b, (t.pair a b).got = (s.pair a b).got

theorem RingFrame.refl (s : State) : RingFrame s s := ⟨fun _ => rfl, fun _ _ => rfl⟩
theorem RingFrame.trans {s t u : State} (h : RingFrame s t) (k : RingFrame t u) : RingFrame s u :=
  ⟨fun die => (k.fab die).trans (h.fab die), fun a b => (k.got a b).trans (h.got a b)⟩
theorem RingFrame.setPair {s t : State} {a b : Nat} {p : Pair} (h : RingFrame s t) (same : p.got = (t.pair a b).got) :
    RingFrame s (t.setPair a b p) :=
  ⟨h.fab, fun c d => (setPair_got same c d).trans (h.got c d)⟩
theorem RingFrame.send {s t : State} (h : RingFrame s t) (m : Instr) : RingFrame s (t.send m) := ⟨h.fab, h.got⟩

theorem ringPut_frame (s : State) (a b : Nat) (flit : BitVec 592) (seq : BitVec 7) (nak idle : Bool) :
    RingFrame s (s.ringPut a b flit seq nak idle) := by
  unfold State.ringPut
  extract_lets p
  split
  · exact .refl s
  · exact .send (.setPair (.setPair (.refl s) (by rfl)) (by rfl)) _

theorem removeChannel_frame (s : State) (a b ch : Nat) : RingFrame s (s.removeChannel a b ch) := by
  unfold State.removeChannel
  extract_lets p act s1 s2 s3
  have off : RingFrame s s1 := (RingFrame.refl s).setPair rfl
  have few : RingFrame s s3 := by
    simp only [s3]
    split
    · exact (off.send _).send _
    · exact off.send _
  split
  · exact few.send _
  · exact few

theorem ringReceive_unused {s : State} {src dst ch : Nat} (fr : BitVec 768) (unused : (s.pair src dst).active.contains ch = false) :
    s.ringReceive src dst ch fr = s := by
  unfold State.ringReceive
  exact if_pos (by simp only [unused, Bool.not_false, Bool.or_true])

/-- A frame that its code cannot correct is counted, and is discarded whatever else its channel suffers. -/
theorem ringReceive_uncorrectable {s : State} {src dst ch : Nat} {fr : BitVec 768} (ne : src ≠ dst)
    (used : (s.pair src dst).active.contains ch = true) (bad : rsCorrect ((toBytes fr 96).map (·.toNat)) = none) :
    RingFrame (s.setFab (stationFab dst) { s.fabBlock (stationFab dst) with
      crcFail := satInc 32 (s.fabBlock (stationFab dst)).crcFail }) (s.ringReceive src dst ch fr) := by
  unfold State.ringReceive
  extract_lets fb p discard
  rw [if_neg (by simp only [p, beq_eq_false_iff_ne.mpr ne, used]; decide), bad]
  dsimp only [discard]
  refine .trans ?_ (ringPut_frame ..)
  split
  · exact .trans (.setPair (.refl _) (by rfl)) (removeChannel_frame ..)
  · exact .setPair (.refl _) (by rfl)

theorem ringReplay_of_none {s : State} {src dst : Nat} (none : (s.pair src dst).unacked = []) : s.ringReplay src dst = s := by
  simp [State.ringReplay, none]

theorem ringReplay_of_one {s : State} {src dst : Nat} {u : BitVec 7 × BitVec 592 × Instr} (one : (s.pair src dst).unacked = [u]) :
    s.ringReplay src dst = (s.setPair src dst { s.pair src dst with
      replays := satInc 32 (s.pair src dst).replays }).ringPut src dst u.2.1 u.1 false false := by
  simp [State.ringReplay, one]

theorem ringFrames : Claims.RingFrames := by
  intro src dst ch fr s from_ to_ channel
  have pair : (stationOk src && stationOk dst) = true := by simp [stationOk, from_, to_]
  have link : (stationOk src && stationOk dst && channelOk ch) = true := by simp [pair, channelOk, channel]
  refine ⟨fun may unused => ?unused, fun may ne used bad => ?bad, fun none => ?noneDue, fun due => ?due, fun none => ?noReplay,
    fun u one => ?replay⟩
  case unused =>
    exact (onArrival_of_may (fun s => s.ringReceive src dst ch fr) link may).trans (congrArg _ (ringReceive_unused fr unused))
  case bad =>
    have frame := ringReceive_uncorrectable (s := s.arrive (.ringFrameReceive src dst ch fr)) ne used bad
    have counted := (frame.fab (stationFab dst)).trans (setFab_fabBlock_same ..)
    exact ⟨_, onArrival_of_may (fun s => s.ringReceive src dst ch fr) link may, congrArg FabBlock.crcFail counted,
      frame.got src dst⟩
  case noneDue => exact (onWf_true _ pair).trans (by simp [none])
  case due => exact (onWf_true _ pair).trans (by simp [due])
  case noReplay => exact (onWf_true _ pair).trans (congrArg _ (ringReplay_of_none none))
  case replay => exact (onWf_true _ pair).trans (congrArg _ (ringReplay_of_one one))

/-! ### Tags after their timeouts (R269, R275–R277) -/

theorem timedOut_eq {node : Nat} (core : node < 576) (s : State) (pa : Nat) (tid : Option (BitVec 12)) :
    ∃ l, s.timedOut node pa tid = { s with
      inflight := s.inflight ++ [.faultMessage (s.coreSrc node) 0x21 tid (pa % 2 ^ 52)], hier := { s.hier with stats := l } } := by
  obtain ⟨l, counted⟩ := stat_eq s node fun x => { x with timeouts := x.timeouts + 1 }
  refine ⟨l, ?_⟩
  rw [State.timedOut, counted, State.nodeSource, if_pos core]
  rfl

theorem release_of_quiet {s : State} (quiet : s.junction = []) (node : Nat) (w : Nat × Nat) : s.release node w = s := by
  simp only [State.release, State.letGo, quiet, List.map_nil, List.filter_nil, List.append_nil]
  exact congrArg (fun js => { s with junction := js }) quiet.symm

/-- A failed WrLine of a core for which nothing waits is over. -/
theorem wrLineErr_of_quiet {s : State} {h : Hdr} (core : h.node < 576) (quiet : s.junction = [])
    (free : (s.core h.node).stall = .none) (line code : Nat) : s.wrLineErr h (64 * line) code = s.wrLineOver h.node line := by
  have given : (s.wrLineOver h.node line).release h.node (256, line) = s.wrLineOver h.node line :=
    release_of_quiet (s := s.wrLineOver h.node line) quiet _ _
  have waits : ((s.wrLineOver h.node line).core h.node).errAddr 256 = none := by
    rw [Core.errAddr, show ((s.wrLineOver h.node line).core h.node).stall = .none from free]
  simp only [State.wrLineErr, Nat.mul_div_cancel_left line (by decide : 0 < 64), core, if_true, given, quiet, List.any_nil,
    Bool.false_eq_true, if_false, waits]

section
variable {node tag : Nat} {s : State} (core : node < 576) (part : tag < 256)
include core part

theorem tag_wf : (nodeOk node && tagOk tag) = true := by
  simp [nodeOk, tagOk, part]
  omega

theorem tagReserveExpiry_outcome : exec (.tagReserveExpiry node tag) s =
    .next (if (s.tag node tag).reserved = true ∧ (s.tag node tag).since + s.drainLimit ≤ s.now then
      s.setTag node tag { s.tag node tag with reserved := false, req := none, lateData := none, lateGo := false } else s) := by
  refine (onWf_true _ (tag_wf core part)).trans ?_
  simp only [Bool.and_eq_true, decide_eq_true_eq]

theorem retryReissue_outcome {m : Instr} (asks : (s.tag node tag).req = some m) : exec (.retryReissue node tag none) s =
    .next (if (s.tag node tag).retry then (s.setTag node tag { s.tag node tag with retry := false }).send m else s) := by
  refine (onWf_true _ (tag_wf core part)).trans ?_
  rw [if_neg (by omega)]
  simp only [asks]

theorem readTimeout_early {h : Hdr} {line : Nat} {sh : Bool} {hash : Option (BitVec 10)}
    (asks : (s.tag node tag).req = some (.rds h line sh hash))
    (early : s.timeoutDue node (64 * line) (s.tag node tag).since = false) :
    exec (.initiatorTimeout node tag none) s = .next s := by
  refine (onWf_true _ (tag_wf core part)).trans ?_
  simp [State.timeoutAt, asks, reqAddr, reqInfo, early]

/-- The tag takes down the time at which the timeout has ended, whatever the failed read let go on. -/
theorem readTimeout_due {h : Hdr} {line : Nat} {sh : Bool} {hash : Option (BitVec 10)}
    (asks : (s.tag node tag).req = some (.rds h line sh hash)) (open_ : (s.tag node tag).reserved = false)
    (due : s.timeoutDue node (64 * line) (s.tag node tag).since = true) :
    ∃ t, exec (.initiatorTimeout node tag none) s = .next t ∧ (t.tag node tag).reserved = true ∧
      (t.tag node tag).gen = (s.tag node tag).gen + 1 ∧ (t.tag node tag).req = none ∧ (t.tag node tag).since = t.now := by
  refine ⟨_, onWf_true _ (tag_wf core part), ?_⟩
  simp [State.timeoutAt, asks, open_, reqAddr, reqInfo, due, State.now]

theorem wrLineTimeout_outcome {line : Nat} (quiet : s.junction = []) (free : (s.core node).stall = .none)
    (due : (s.hier.wrLines.any fun w => w.1 == node && w.2.1 == line && s.timeoutDue node (64 * line) w.2.2) = true)
    (unblocked : s.hier.wrBlocked.contains (node, line) = false) :
    ∃ t, exec (.initiatorTimeout node tag (some line)) s = .next t ∧
      t.inflight = s.inflight ++ [.faultMessage (s.coreSrc node) 0x21 none (64 * line % 2 ^ 52)] ∧
      t.hier.wrBlocked = s.hier.wrBlocked ++ [(node, line)] ∧
      t.hier.wrLines = s.hier.wrLines.eraseP fun w => w.1 == node && w.2.1 == line := by
  obtain ⟨l, reported⟩ := timedOut_eq core s (64 * line) none
  have home : isHomeNode node = false := by simp [isHomeNode]; omega
  refine ⟨_, onWf_true _ (tag_wf core part), ?_⟩
  simp only [State.timeoutAt, home, due, reported, unblocked, Bool.false_eq_true, if_true, if_false]
  rw [wrLineErr_of_quiet (by exact core) (by exact quiet) (by exact free)]
  exact ⟨rfl, rfl, rfl⟩

end

/-! ### A core's last slot waits for its store when the store's request times out (R97, R275) -/

/-- Core 0 has stored one slot, and keeps the next, TB_STEP, until that store is visible. The request for the store's line, under
tag 3, is an RdS, which no store sends. -/
def slotWaitsState : State := (coreState fun c => { c with
    sw := 2
    sb := [⟨64, 0, 0, false, false, 0, none, 0, 0⟩]
    txns := [⟨3, 1, 2, none, false, false, .none⟩]
    stall := .slots [(timeBlock + 0x18, true, 0, 5)] }).setTag 0 3 { TagInfo.initial with req := some (.rds req0 1 true none) }

theorem slotWaitsState_due : (slotWaitsState.tag 0 3).req = some (.rds req0 1 true none) ∧
    (slotWaitsState.tag 0 3).reserved = false ∧
    slotWaitsState.timeoutDue 0 (64 * 1) (slotWaitsState.tag 0 3).since = true := by decide +kernel

/-- The store is given up, the slot that waited for it steps TIME by 5 ns, and the tag takes the new time down. -/
theorem slotWaitsState_steps : nextIs (exec (.initiatorTimeout 0 3 none) slotWaitsState) (fun t =>
    (t.tag 0 3).since == slotWaitsState.now + 5) = true := by decide +kernel

/-- Refutes O37: a tag that times out stays reserved from the time at which the timeout has ended (`readTimeout_due`); the
statement, which names the time at which it began, also speaks of states in which the failed request lets a waiting store step
TIME. All else that it says holds (`flitsAtRouters`, `ringFrames`, `tagReserveExpiry_outcome`, `retryReissue_outcome`,
`readTimeout_early`, `wrLineTimeout_outcome`). -/
theorem not_fabricTraffic : ¬ Obligations.FabricTraffic := by
  rintro ⟨-, tags, -⟩
  obtain ⟨asks, open_, due⟩ := slotWaitsState_due
  obtain ⟨-, -, -, -, reads, -⟩ := tags 0 3 slotWaitsState (by decide) (by decide)
  obtain ⟨-, timesOut⟩ := reads _ _ _ _ asks open_
  obtain ⟨t, ends, -, -, -, began⟩ := timesOut due
  have stepped := slotWaitsState_steps
  simp [ends, nextIs, began] at stepped

end Sys2Proof.Machine
end

section
/-! SUPPORT. The proofs of the statements about the security block (R309, R310, R335–R350): how the Warden takes a command and
what each request record comes to, the steps that install and remove ranges, the health of the Warden and of the entropy source,
held cuts and the end of their grace period. -/

namespace Sys2Proof.Machine

/-! ### Tables and their units -/

theorem tfind_tmap {α : Type} (f : α → α) (t : Table α) (k : Nat) : tfind? (tmap f t) k = (tfind? t k).map f := by
  induction t with
  | nil => rfl
  | cons e t ih =>
    obtain ⟨j, u⟩ := e
    simp only [tmap, List.map_cons, tfind?] at ih ⊢
    split
    · rfl
    · exact ih

@[simp] theorem setEnclave_enclave_same (s : State) (e : Nat) (x : Enclave) : (s.setEnclave e x).enclave e = x :=
  tget_tput_same ..

@[simp] theorem setMc_mc_same (s : State) (k : Nat) (m : Mc) : (s.setMc k m).mc k = m := tget_tput_same ..

theorem stackOk_of_lt {k : Nat} (stack : k < 12) : stackOk k = true := decide_eq_true stack

/-! ### The end of a command (R35, R345) -/

section
variable {s : State} (busy : s.sec.res.status = 1)
include busy

theorem wardenEnd_of_busy (f : Chan → Chan) : s.wardenEnd f = { s with sec := { s.sec with res := f s.sec.res } } :=
  if_pos (beq_iff_eq.mpr busy)

theorem wardenEnd_res (f : Chan → Chan) : (s.wardenEnd f).sec.res = f s.sec.res := by rw [wardenEnd_of_busy busy]

theorem wardenFail_of_busy (code : Nat) :
    s.wardenFail code = { s with sec := { s.sec with res := s.sec.res.fail code 0 } } := wardenEnd_of_busy busy _

theorem wardenDone_of_busy (v : Nat) : s.wardenDone v = { s with sec := { s.sec with res := s.sec.res.done v } } :=
  wardenEnd_of_busy busy _

end

theorem wardenEnd_cuts (s : State) (f : Chan → Chan) : (s.wardenEnd f).sec.cuts = s.sec.cuts := by
  unfold State.wardenEnd
  split <;> rfl

theorem wardenEnd_enclave (s : State) (f : Chan → Chan) (e : Nat) : (s.wardenEnd f).enclave e = s.enclave e := by
  unfold State.wardenEnd
  split <;> rfl

theorem wardenEnd_hier (s : State) (f : Chan → Chan) : (s.wardenEnd f).hier = s.hier := by
  unfold State.wardenEnd
  split <;> rfl

theorem wardenEnd_running (s : State) (f : Chan → Chan) : (s.wardenEnd f).sec.running = s.sec.running := by
  unfold State.wardenEnd
  split <;> rfl

/-! ### Held cuts (R349) -/

theorem releaseCuts_of_none {s : State} (none : s.sec.cuts = []) : s.releaseCuts = s := by
  simp only [State.releaseCuts, none, List.filter_nil, List.foldl_nil, List.map_nil, List.eraseDups_nil]
  exact congrArg (fun l => { s with sec := { s.sec with cuts := l } }) none.symm

theorem doCut_of_closed {s : State} {d c : Nat} (code : c < 16) (closed : (s.dom d).st ≠ .run) : s.doCut d c = s := by
  simp [State.doCut, code, closed]

/-- A cut of a domain that no enclave uses any more is dropped where the domain has left RUN by itself. -/
theorem releaseCuts_of_closed {s : State} {d c t : Nat} (held : s.sec.cuts = [(d, c, t)]) (unused : s.inEnclaveUse d = false)
    (code : c < 16) (closed : (s.dom d).st ≠ .run) : s.releaseCuts = { s with sec := { s.sec with cuts := [] } } := by
  have dropped : State.doCut { s with sec := { s.sec with cuts := [] } } d c = { s with sec := { s.sec with cuts := [] } } :=
    doCut_of_closed code closed
  simp [State.releaseCuts, held, unused, code, dropped]

/-! ### Reads of the engines without caches (R249) -/

/-- A request for a populated line is all that its sender adds to what is under way. -/
theorem request_inflight {s : State} {m : Instr} {h : Hdr} {line : Nat} {wl : Bool} (info : reqInfo m = some (h, line, wl))
    (populated : line < s.dramLines) : (s.request m).inflight = s.inflight ++ [m] := by
  simp only [State.request, info, populated, decide_true, Bool.true_or, if_true, send_inflight, State.postToken,
    apply_ite State.inflight, stat_inflight, State.setTag_inflight, ite_self]

theorem issue_keeps {s t : State} {node : Nat} {tid : BitVec 12} {cls : BitVec 3} {mk : Hdr → Instr} {h : Hdr}
    (sent : s.issue node tid cls mk = some (h, t)) : t.sec = s.sec ∧ t.cores = s.cores := by
  simp only [State.issue, Option.map_eq_some_iff, Prod.mk.injEq] at sent
  obtain ⟨_, -, -, rfl⟩ := sent
  exact ⟨request_sec .., request_cores ..⟩

theorem askReader_keeps (s : State) (r : Reader) : (s.askReader r).2.sec = s.sec ∧ (s.askReader r).2.cores = s.cores := by
  unfold State.askReader
  split
  · split
    next sent => exact issue_keeps sent
    next => exact ⟨rfl, rfl⟩
  · exact ⟨rfl, rfl⟩

theorem askAll_keeps (l : List Reader) (s : State) : (askAll l s).2.sec = s.sec ∧ (askAll l s).2.cores = s.cores := by
  induction l generalizing s with
  | nil => exact ⟨rfl, rfl⟩
  | cons r l ih =>
    obtain ⟨firstSec, firstCores⟩ := askReader_keeps s r
    obtain ⟨restSec, restCores⟩ := ih (s.askReader r).2
    exact ⟨restSec.trans firstSec, restCores.trans firstCores⟩

theorem startRead_keeps (s : State) (node : Nat) (tid : BitVec 12) (cls : BitVec 3) (why : ReadFor) (todo : List (Nat × Nat)) :
    (s.startRead node tid cls why todo).sec = s.sec ∧ (s.startRead node tid cls why todo).cores = s.cores := by
  let s0 : State := { s with readers := s.readers ++ [⟨node, tid, cls, why, todo, [], none⟩] }
  exact askAll_keeps s0.readers s0

theorem askAll_one {s t : State} {r q : Reader} (asked : s.askReader r = (q, t)) : askAll [r] s = ([q], t) := by
  simp only [askAll, asked]

theorem pumpReaders_of_askAll {s t : State} {l : List Reader} (asked : askAll s.readers s = (l, t)) :
    s.pumpReaders.inflight = t.inflight ∧ s.pumpReaders.readers = l := by
  rw [State.pumpReaders, asked]
  exact ⟨rfl, rfl⟩

/-- The only reader there is, with no request out, sends the RdCur of its next line. -/
theorem pumpReaders_alone {s : State} {r : Reader} {tag pa n : Nat} {l : List (Nat × Nat)} (alone : s.readers = [r])
    (idle : r.tag = none) (next : r.todo = (pa, n) :: l) (free : s.freeTag r.node = some tag)
    (populated : pa / 64 < s.dramLines) :
    s.pumpReaders.inflight = s.inflight ++ [.rdcur ⟨r.node, tag, (s.tag r.node tag).gen, r.tid, r.cls⟩ (pa / 64)] ∧
      s.pumpReaders.readers = [{ r with tag := some tag }] := by
  have asked : s.askReader r = ({ r with tag := some tag },
      s.request (.rdcur ⟨r.node, tag, (s.tag r.node tag).gen, r.tid, r.cls⟩ (pa / 64))) := by
    simp only [State.askReader, idle, next, State.issue, State.newHdr, free, Option.map_some]
  obtain ⟨sent, waits⟩ := pumpReaders_of_askAll ((congrArg (askAll · s) alone).trans (askAll_one asked))
  exact ⟨sent.trans (request_inflight rfl populated), waits⟩

/-- Where no other read is under way, a read begins with the RdCur of its first line. -/
theorem startRead_alone {s : State} {node tag pa n : Nat} {tid : BitVec 12} {cls : BitVec 3} {why : ReadFor}
    {l : List (Nat × Nat)} (alone : s.readers = []) (free : s.freeTag node = some tag) (populated : pa / 64 < s.dramLines) :
    (s.startRead node tid cls why ((pa, n) :: l)).inflight =
        s.inflight ++ [.rdcur ⟨node, tag, (s.tag node tag).gen, tid, cls⟩ (pa / 64)] ∧
      (s.startRead node tid cls why ((pa, n) :: l)).readers = [⟨node, tid, cls, why, (pa, n) :: l, [], some tag⟩] := by
  let r : Reader := ⟨node, tid, cls, why, (pa, n) :: l, [], none⟩
  have one : s.readers ++ [r] = [r] := by rw [alone, List.nil_append]
  exact pumpReaders_alone (s := { s with readers := s.readers ++ [r] }) one rfl rfl free populated

theorem chunksOf_line (line : Nat) : chunksOf (64 * line) 64 = [(64 * line, 64)] := by
  simp [chunksOf, lineChunks]

/-- The last CurData of a read hands what was read to the engine that asked. -/
theorem curdata_of_readEnds {s s1 : State} {h : Hdr} {line : Nat} {d : LineData} {r : Reader} (ends : s.ReadEnds h line d r s1) :
    exec (.curdata h line d) s = .next (s1.readDone h.tag r) := by
  obtain ⟨hdr, lt, engine, current, may, got⟩ := ends
  have now : ((s.arrive (.curdata h line d)).countRead h.node).current h = true := by
    rw [State.current, countRead_tag, arrive_tag]
    exact current
  have timely : ((s.arrive (.curdata h line d)).countRead h.node).isLate h = false := by
    simp only [State.current, Bool.and_eq_true, Bool.not_eq_true', beq_iff_eq] at current
    obtain ⟨⟨-, unreserved⟩, same⟩ := current
    rw [countRead_isLate, arrive_isLate]
    simp [State.isLate, unreserved, same]
  show execCurdata h line d s = _
  rw [execCurdata, onArrival_of_may _ (by rw [hdr, lt]; rfl) may, State.curData]
  simp only [timely, now, Bool.not_true, Bool.false_eq_true, if_false, Nat.not_lt.mpr engine, got]

/-! ### The Warden's reads (R345) -/

section
variable {s : State} {r : Reader} (tag : Nat)

theorem readDone_request (why : r.why = .wardenReq) : s.readDone tag r = s.wardenRecord r.got := by
  simp only [State.readDone, why]

theorem readDone_ranges {e : Nat} (why : r.why = .wardenRanges e) : s.readDone tag r = s.createRanges e r.got := by
  simp only [State.readDone, why]

theorem readDone_page {e dst : Nat} {m : Bool} (why : r.why = .wardenPage e dst m) :
    s.readDone tag r = s.pageRead e dst m r.got := by
  simp only [State.readDone, why]

theorem readDone_report {e dst : Nat} (why : r.why = .wardenReport e dst) : s.readDone tag r = s.reportRead e dst r.got := by
  simp only [State.readDone, why]

end

theorem wardenRead_of_fits {s : State} {pa n : Nat} {why : ReadFor} (fits : fits52 pa n = true) :
    s.wardenRead pa n why = s.startRead secNode 0 0 why (chunksOf pa n) := by
  simp [State.wardenRead, fits]

/-- Every request line lies below 2^52. -/
theorem wardenRun_reads {s : State} (part : s.sec.req < 2 ^ 46) :
    s.wardenRun = s.startRead secNode 0 0 .wardenReq [(64 * s.sec.req, 64)] := by
  have fits : fits52 (64 * s.sec.req) 64 = true := by
    simp only [fits52, decide_eq_true_eq]
    omega
  rw [State.wardenRun, wardenRead_of_fits fits, chunksOf_line]

/-! ### GO (R345, R347) -/

/-- The request line of a GO is taken down. -/
def State.wardenNamed (s : State) (req : Nat) : State := { s with sec := { s.sec with req := req % 2 ^ 46 } }

/-- A GO that is accepted. -/
def State.wardenAccepts (s : State) (req : Nat) : State :=
  { s with sec := { s.sec with req := req % 2 ^ 46, res := s.sec.res.accept } }

section
variable {s : State} (req : Nat)

theorem wardenGo_busy (busy : s.sec.res.status = 1) : s.wardenGo req = (s.wardenNamed req).violate secBlock :=
  if_pos (beq_iff_eq.mpr busy)

variable (idle : s.sec.res.status ≠ 1)
include idle

theorem wardenGo_accepts : s.wardenGo req =
    (if !s.sec.up then (s.wardenAccepts req).wardenFail codeWardenDown
     else if s.sec.running.isSome then s.wardenAccepts req else (s.wardenAccepts req).wardenRun) :=
  if_neg (mt beq_iff_eq.mp idle)

theorem wardenGo_down (down : s.sec.up = false) : s.wardenGo req =
    { s.wardenAccepts req with sec := { (s.wardenAccepts req).sec with res := s.sec.res.accept.fail codeWardenDown 0 } } := by
  rw [wardenGo_accepts req idle, down]
  exact wardenFail_of_busy rfl _

variable (up : s.sec.up = true)
include up

theorem wardenGo_waits (running : s.sec.running.isSome = true) : s.wardenGo req = s.wardenAccepts req := by
  simp [wardenGo_accepts req idle, up, running]

theorem wardenGo_reads (free : s.sec.running = none) : s.wardenGo req =
    (s.wardenAccepts req).startRead secNode 0 0 .wardenReq [(64 * (req % 2 ^ 46), 64)] := by
  rw [wardenGo_accepts req idle, up, free]
  exact wardenRun_reads (s := s.wardenAccepts req) (Nat.mod_lt _ (by decide))

end

/-- Each command of Table 12-5 is a GO. -/
theorem wardenCommands_go (req : Nat) (s : State) {P : State → Prop} (ends : P (s.wardenGo req)) :
    (∃ t, exec (.wardenCreate req) s = .next t ∧ P t) ∧ (∃ t, exec (.addPage req) s = .next t ∧ P t) ∧
      (∃ t, exec (.addEntry req) s = .next t ∧ P t) ∧ (∃ t, exec (.sealRow req) s = .next t ∧ P t) ∧
      (∃ t, exec (.attest req) s = .next t ∧ P t) ∧ (∃ t, exec (.wardenDestroy req) s = .next t ∧ P t) :=
  ⟨⟨_, rfl, ends⟩, ⟨_, rfl, ends⟩, ⟨_, rfl, ends⟩, ⟨_, rfl, ends⟩, ⟨_, rfl, ends⟩, ⟨_, rfl, ends⟩⟩

/-! ### Request records (Table 12-5) -/

/-- What a request record asks for by its operation. -/
def State.wardenOp (s : State) (b : List Byte) : Nat → State
  | 1 => s.create (recLe b 4 2) b
  | 2 => s.addPage (recLe b 4 2) b
  | 3 => s.addEntry (recLe b 4 2) b
  | 4 => s.sealEnclave (recLe b 4 2)
  | 5 => s.attestEnclave (recLe b 4 2) b
  | 6 => s.destroyEnclave (recLe b 4 2)
  | _ => s.wardenFail codeFieldInvalid

/-- A record whose reserved fields are 0 and whose EID exists is run by its operation. -/
theorem wardenRecord_wf {s : State} {b : List Byte} (named : recLe b 4 2 < 1024) (low : recLe b 2 2 = 0)
    (high : recLe b 6 2 = 0) : s.wardenRecord b = s.wardenOp b (recLe b 0 2) := by
  simp only [State.wardenRecord, low, high, Nat.not_le.mpr named, decide_false, bne_self_eq_false, Bool.or_self,
    Bool.false_eq_true, if_false]
  rfl

section
variable {s : State} {e : Nat} {b : List Byte}

theorem create_taken (taken : (s.enclave e).st ≠ .free) : s.create e b = s.wardenFail codeBadState := by
  simp [State.create, taken]

section
variable (free : (s.enclave e).st = .free) (quiet : s.sec.running = none)
include free quiet

theorem create_empty (empty : recLe b 8 1 = 0) : s.create e b = s.wardenDone 0 := by
  simp [State.create, free, quiet, empty]

theorem create_unhealthy (listed : recLe b 8 1 ≠ 0) (sick : s.sec.healthy = false) : s.create e b = s.wardenFail codeEntropy := by
  simp [State.create, free, quiet, listed, sick]

theorem create_reads (listed : recLe b 8 1 ≠ 0) (healthy : s.sec.healthy = true)
    (fits : fits52 (recLe b 16 8) (16 * recLe b 8 1) = true) : s.create e b =
      s.startRead secNode 0 0 (.wardenRanges e) (chunksOf (recLe b 16 8) (16 * recLe b 8 1)) := by
  simp [State.create, free, quiet, listed, healthy, wardenRead_of_fits fits]

end

theorem addPage_unbuilt (unbuilt : (s.enclave e).st ≠ .build) : s.addPage e b = s.wardenFail codeBadState := by
  simp [State.addPage, unbuilt]

theorem addEntry_unbuilt (unbuilt : (s.enclave e).st ≠ .build) : s.addEntry e b = s.wardenFail codeBadState := by
  simp [State.addEntry, unbuilt]

theorem sealEnclave_unbuilt (unbuilt : (s.enclave e).st ≠ .build) : s.sealEnclave e = s.wardenFail codeBadState := by
  simp [State.sealEnclave, unbuilt]

/-- The entry that ADD_ENTRY makes of its record (R339). -/
def recEntry (b : List Byte) : Entry :=
  ⟨BitVec.ofNat 16 (recLe b 10 2), BitVec.ofNat 64 (recLe b 16 8), BitVec.ofNat 64 (recLe b 24 8), recLe b 32 8, .idle⟩

section
variable (build : (s.enclave e).st = .build)
include build

theorem addPage_reads (src : fits52 (recLe b 8 8) 4096 = true) (dst : fits52 (recLe b 16 8) 4096 = true)
    (unowned : s.anyOwned (recLe b 8 8) 4096 = false) (owned : allOwned (s.enclave e).ranges (recLe b 16 8) 4096 = true)
    (there : s.rangesGone [(recLe b 8 8, 4096), (recLe b 16 8, 4096)] = false) : s.addPage e b =
      s.startRead secNode 0 0 (.wardenPage e (recLe b 16 8) ((b.getD 24 0).getLsbD 0)) (chunksOf (recLe b 8 8) 4096) := by
  simp only [State.addPage, build, src, dst, unowned, owned, there, bne_self_eq_false, Bool.not_true, Bool.or_self,
    Bool.false_eq_true, if_false, wardenRead_of_fits src]

theorem addEntry_enters (index : recLe b 8 1 < 16) (new : tfind? (s.enclave e).entries (recLe b 8 1) = none)
    (line : recLe b 32 8 % 64 = 0) (owned : allOwned (s.enclave e).ranges (recLe b 32 8) 128 = true)
    (word : recLe b 16 8 % 4 = 0) : ∃ m : BitVec 384, s.addEntry e b = (s.setEnclave e { s.enclave e with
      entries := tput (s.enclave e).entries (recLe b 8 1) (recEntry b), meas := m }).wardenDone (recLe b 8 1) := by
  simp only [State.addEntry, build, Nat.not_le.mpr index, new, line, owned, word, decide_false, Option.isSome_none,
    bne_self_eq_false, Bool.not_true, Bool.or_self, Bool.false_eq_true, if_false]
  exact ⟨_, rfl⟩

theorem sealEnclave_readies (uncut : s.sec.cuts = []) :
    s.sealEnclave e = (s.setEnclave e { s.enclave e with st := .ready }).wardenDone 0 := by
  simp only [State.sealEnclave, build, bne_self_eq_false, Bool.false_eq_true, if_false]
  exact releaseCuts_of_none ((wardenEnd_cuts ..).trans uncut)

end

theorem attestEnclave_unready (unready : (s.enclave e).st ≠ .ready) : s.attestEnclave e b = s.wardenFail codeBadState := by
  simp [State.attestEnclave, unready]

theorem attestEnclave_reads (ready : (s.enclave e).st = .ready) (src : fits52 (recLe b 8 8) 64 = true)
    (dst : fits52 (recLe b 16 8) 256 = true) (unowned : s.anyOwned (recLe b 16 8) 256 = false)
    (there : s.rangesGone [(recLe b 8 8, 64), (recLe b 16 8, 256)] = false) : s.attestEnclave e b =
      s.startRead secNode 0 0 (.wardenReport e (recLe b 16 8)) (chunksOf (recLe b 8 8) 64) := by
  simp only [State.attestEnclave, ready, src, dst, unowned, there, bne_self_eq_false, Bool.not_true, Bool.or_self,
    Bool.false_eq_true, if_false, wardenRead_of_fits src]

theorem destroyEnclave_free (free : (s.enclave e).st = .free) : s.destroyEnclave e = s.wardenFail codeBadState := by
  simp [State.destroyEnclave, free]

theorem destroyEnclave_begins (held : (s.enclave e).st ≠ .free)
    (idle : ((s.enclave e).entries.any fun n => match n.2.run with
      | .running _ => true
      | _ => false) = false) :
    s.destroyEnclave e = s.beginStep ⟨false, e, (s.enclave e).ranges, 0, 0, false, false⟩ 1 := by
  have free : ((s.enclave e).st == .free) = false := beq_eq_false_iff_ne.mpr held
  rw [State.destroyEnclave]
  exact (if_neg (Bool.eq_false_iff.mp free)).trans (if_neg (Bool.eq_false_iff.mp idle))

end

/-! ### What CREATE, ADD_PAGE and ATTEST do with what they read (R335, R346, R467) -/

/-- The ranges that CREATE's list gives: its records with a length other than 0. -/
def listedRanges (b : List Byte) : List (Nat × Nat) :=
  ((List.range (b.length / 16)).map fun i => (recLe b (16 * i) 8, recLe b (16 * i + 8) 8)).filter fun r => r.2 != 0

theorem createRanges_invalid {s : State} {e : Nat} {b : List Byte}
    (bad : (listedRanges b).length > 8 ∨ (listedRanges b).all s.rangeFits = false ∨ pairwiseApart (listedRanges b) = false) :
    s.createRanges e b = s.wardenFail codeRangeInvalid :=
  if_pos (show (decide ((listedRanges b).length > 8) || !(listedRanges b).all s.rangeFits ||
    !pairwiseApart (listedRanges b)) = true by
      simpa only [Bool.or_eq_true, decide_eq_true_eq, Bool.not_eq_true', or_assoc] using bad)

theorem createRanges_begins {s : State} {e : Nat} {b : List Byte} (few : (listedRanges b).length ≤ 8)
    (fit : (listedRanges b).all s.rangeFits = true) (apart : pairwiseApart (listedRanges b) = true)
    (there : s.rangesGone (listedRanges b) = false) :
    s.createRanges e b = s.beginStep ⟨true, e, listedRanges b, 0, 0, false, false⟩ 1 :=
  (if_neg (show ¬(decide ((listedRanges b).length > 8) || !(listedRanges b).all s.rangeFits ||
    !pairwiseApart (listedRanges b)) = true by simp only [fit, apart, Nat.not_lt.mpr few, decide_false]; decide)).trans
    (if_neg (Bool.eq_false_iff.mp there))

theorem reportRead_writes (s : State) (e dst : Nat) (data : List Byte) : ∃ sig, s.reportRead e dst data =
    ({ s with free := s.free + 1 } : State).wardenWrite dst (s.reportBody e data ++ sig) 256 := ⟨_, rfl⟩

/-! ### Warden commands, as the statement puts them -/

/-- A GO, whatever command it asks for. -/
theorem wardenGo_outcomes (req tag : Nat) (s : State) :
    let s0 := s.wardenNamed req
    let s1 := s.wardenAccepts req
    let t := s.wardenGo req
    (s.sec.res.status = 1 → t = s0.violate secBlock) ∧
    (s.sec.res.status ≠ 1 → s.sec.up = false →
      t = { s1 with sec := { s1.sec with res := s.sec.res.accept.fail codeWardenDown 0 } }) ∧
    (s.sec.res.status ≠ 1 → s.sec.up = true → s.sec.running.isSome = true → t = s1) ∧
    (s.sec.res.status ≠ 1 → s.sec.up = true → s.sec.running = none →
      t.sec = s1.sec ∧ t.cores = s.cores ∧ (s.readers = [] → s.freeTag secNode = some tag → req % 2 ^ 46 < s.dramLines →
        t.inflight = s.inflight ++ [.rdcur ⟨secNode, tag, (s.tag secNode tag).gen, 0, 0⟩ (req % 2 ^ 46)] ∧
        t.readers = [⟨secNode, 0, 0, .wardenReq, [(64 * (req % 2 ^ 46), 64)], [], some tag⟩])) := by
  refine ⟨wardenGo_busy req, wardenGo_down req, wardenGo_waits req, fun idle up free => ?_⟩
  simp only [wardenGo_reads req idle up free]
  obtain ⟨sec, cores⟩ := startRead_keeps (s.wardenAccepts req) secNode 0 0 .wardenReq [(64 * (req % 2 ^ 46), 64)]
  refine ⟨sec, cores, fun alone given populated => ?_⟩
  have line : 64 * (req % 2 ^ 46) / 64 = req % 2 ^ 46 := Nat.mul_div_cancel_left _ (by decide)
  have begun := startRead_alone (s := s.wardenAccepts req) (tid := 0) (cls := 0) (why := .wardenReq) (n := 64) (l := [])
    alone given (line.symm ▸ populated : 64 * (req % 2 ^ 46) / 64 < s.dramLines)
  rwa [line] at begun

theorem wardenCommands : Claims.WardenCommands := by
  refine ⟨fun req tag s => ?go, fun h line d r s s1 ends busy => ?came⟩
  case go =>
    obtain ⟨running, down, waits, reads⟩ := wardenGo_outcomes req tag s
    exact ⟨fun b => wardenCommands_go req s (running b), fun i u => wardenCommands_go req s (down i u),
      fun i u w => wardenCommands_go req s (waits i u w), fun i u w => wardenCommands_go req s (reads i u w)⟩
  case came =>
    have fails := wardenFail_of_busy busy
    intro b e x failed gives
    have reaches {t : State} (done : s1.readDone h.tag r = t) : gives t := done ▸ curdata_of_readEnds ends
    refine ⟨fun why named low high => ?request, fun n why => ?ranges, fun n dst m why => ?page, fun n dst why => ?report⟩
    case request =>
      have runs {op : Nat} {t : State} (is : recLe b 0 2 = op) (done : s1.wardenOp b op = t) : gives t :=
        reaches ((readDone_request h.tag why).trans ((wardenRecord_wf named low high).trans (is ▸ done)))
      refine ⟨fun op taken => runs op ((create_taken taken).trans (fails _)), fun op free quiet => ?create,
        fun op unbuilt => ?unbuilt,
        fun op build src dst unowned owned there => runs op (addPage_reads build src dst unowned owned there),
        fun op build index new line owned word => ?entry, fun op build uncut => ?sealed,
        fun op unready => runs op ((attestEnclave_unready unready).trans (fails _)),
        fun op ready src dst unowned there => runs op (attestEnclave_reads ready src dst unowned there),
        fun op free => runs op ((destroyEnclave_free free).trans (fails _)),
        fun op held idle => runs op (destroyEnclave_begins held idle)⟩
      case create =>
        exact ⟨fun zero => runs op ((create_empty free quiet zero).trans (wardenDone_of_busy busy 0)),
          fun listed sick => runs op ((create_unhealthy free quiet listed sick).trans (fails _)),
          fun listed healthy fits => runs op (create_reads free quiet listed healthy fits)⟩
      case unbuilt =>
        rcases op with op | op | op
        · exact runs op ((addPage_unbuilt unbuilt).trans (fails _))
        · exact runs op ((addEntry_unbuilt unbuilt).trans (fails _))
        · exact runs op ((sealEnclave_unbuilt unbuilt).trans (fails _))
      case entry =>
        obtain ⟨m, entered⟩ := addEntry_enters (s := s1) build index new line owned word
        refine ⟨_, runs op entered, ?_⟩
        rw [State.wardenDone, wardenEnd_enclave, setEnclave_enclave_same]
        exact ⟨tfind_tput_same .., build, wardenEnd_res (s := s1.setEnclave e _) busy _⟩
      case sealed =>
        refine ⟨_, runs op (sealEnclave_readies build uncut), ?_⟩
        rw [State.wardenDone, wardenEnd_enclave, setEnclave_enclave_same]
        exact ⟨rfl, wardenEnd_res (s := s1.setEnclave e _) busy _, wardenEnd_hier ..⟩
    case ranges =>
      have runs := readDone_ranges (s := s1) h.tag why
      exact ⟨fun bad => reaches (runs.trans ((createRanges_invalid bad).trans (fails _))),
        fun few fit apart there => reaches (runs.trans (createRanges_begins few fit apart there))⟩
    case page => exact reaches (readDone_page h.tag why)
    case report =>
      obtain ⟨sig, writes⟩ := reportRead_writes s1 n dst b
      exact ⟨sig, reaches ((readDone_report h.tag why).trans writes)⟩

/-! ### The steps of a range (R309, R310, R338) -/

theorem rangeStepAck_arrives {s : State} (may : s.mayArrive .rangeStepAck = true) :
    exec .rangeStepAck s = .next (s.arrive .rangeStepAck).stepEnds := onArrival_of_may _ rfl may

theorem stepEnds_of_none {s : State} (idle : s.sec.running = none) : s.stepEnds = s := by
  simp only [State.stepEnds, idle]

/-- A request whose Warden has not restarted goes on to its next step. -/
theorem stepEnds_of_run {s : State} {r : WardenRun} (running : s.sec.running = some r) (owned : r.orphan = false) :
    s.stepEnds = s.stepOn r := by
  simp only [State.stepEnds, running, owned, Bool.false_and, Bool.false_eq_true, if_false]

/-- What an enclave is once its CREATE or DESTROY has ended all its steps. -/
def WardenRun.leaves (r : WardenRun) : Enclave := if r.install then ⟨.build, r.ranges, [], 0⟩ else Enclave.initial

theorem endRun_uncut {s : State} {r : WardenRun} (owned : r.orphan = false) (uncut : s.sec.cuts = []) :
    (s.endRun r).enclave r.eid = r.leaves ∧ (s.endRun r).sec.running = none := by
  let v : State := (s.setRun none).setEnclave r.eid r.leaves
  have ended : s.endRun r =
      v.wardenEnd fun c => if r.gone then c.fail codeDieLost 0 else c.done r.ranges.length := by
    refine Eq.trans ?_ (releaseCuts_of_none ((wardenEnd_cuts v _).trans uncut))
    simp only [State.endRun, owned, v, WardenRun.leaves, Bool.false_eq_true, if_false]
    split <;> rfl
  rw [ended, wardenEnd_enclave, wardenEnd_running]
  exact ⟨setEnclave_enclave_same .., rfl⟩

/-- While its stacks can be reached a request goes from step to step. -/
theorem stepOn_there {s : State} {r : WardenRun} (there : s.rangesGone r.ranges = false) :
    s.stepOn r = match r.install, r.step with
    | true, 1 => if s.rangeStored r.ranges then s.beginStep r 2 else s.stepAcked
    | true, 3 => s.flushRanges r 4
    | true, 5 => s.endRun r
    | false, 1 => s.flushRanges r 2
    | false, 5 => if s.rangeStored r.ranges then s.endRun r else s.stepAcked
    | _, n => s.beginStep r (n + 1) := by
  rw [State.stepOn, there, Bool.and_false]
  rfl

/-- What a controller holds once it has taken a KEY_UPDATE of a request. -/
def WardenRun.updates (r : WardenRun) (m : Mc) : Mc :=
  let others := m.ranges.filter fun x => x.1 != r.eid
  if r.install then { m with keys := tput m.keys r.eid r.key, ranges := others ++ r.ranges.map fun x => (r.eid, x.1, x.2) }
  else { m with keys := tdel m.keys r.eid, ranges := others }

theorem ite_stepAcked_mc {p : Prop} [Decidable p] (s : State) (k : Nat) :
    (if p then s else s.stepAcked).mc k = s.mc k := by split <;> rfl

section
variable {s : State} {k : Nat} (stack : k < 12) (may : s.mayArrive (.keyUpdate k) = true)
include stack may

theorem keyUpdate_of_none (idle : s.sec.running = none) : exec (.keyUpdate k) s = .next (s.arrive (.keyUpdate k)) := by
  show execKeyUpdate k s = _
  rw [execKeyUpdate, onArrival_of_may _ (stackOk_of_lt stack) may]
  simp only [State.arrive_sec, idle]

theorem keyUpdate_updates {r : WardenRun} (running : s.sec.running = some r)
    (due : (r.install && r.step == 4 || !r.install && r.step == 2) = true) :
    ∃ t, exec (.keyUpdate k) s = .next t ∧ t.mc k = r.updates (s.mc k) := by
  show ∃ t, execKeyUpdate k s = .next t ∧ _
  rw [execKeyUpdate, onArrival_of_may _ (stackOk_of_lt stack) may]
  refine ⟨_, rfl, ?_⟩
  simp only [State.arrive_sec, running, due, if_true]
  exact (ite_stepAcked_mc _ k).trans (setMc_mc_same ..)

end

theorem rangeSteps : Claims.RangeSteps := by
  intro s r k stack mayStep mayKey
  have acks := rangeStepAck_arrives mayStep
  refine ⟨fun idle => ⟨acks.trans (congrArg _ (stepEnds_of_none idle)), keyUpdate_of_none stack mayKey idle⟩,
    fun running owned _ there => ?_⟩
  rw [stepEnds_of_run (s := s.arrive .rangeStepAck) running owned, stepOn_there (s := s.arrive .rangeStepAck) there] at acks
  have updates := keyUpdate_updates stack mayKey running
  refine ⟨fun install step => ?follows, fun install step stored => ?visible, fun install step stored uncut _ => ?removed,
    fun install step empty uncut => ?built, fun install step => ?loads, fun install step => ?zeroes⟩
  all_goals simp only [install, step] at acks
  case follows => exact acks
  case visible => exact acks.trans (congrArg _ (if_pos stored))
  case removed =>
    obtain ⟨gone, ended⟩ := endRun_uncut (s := s.arrive .rangeStepAck) owned uncut
    exact ⟨_, acks.trans (congrArg _ (if_pos stored)), by rw [gone, WardenRun.leaves, install]; rfl, ended⟩
  case built =>
    obtain ⟨built, ended⟩ := endRun_uncut (s := s.arrive .rangeStepAck) owned uncut
    exact ⟨_, acks, by rw [built, WardenRun.leaves, install, empty]; rfl, ended⟩
  case loads =>
    obtain ⟨t, taken, loaded⟩ := updates (by simp [install, step])
    simp only [WardenRun.updates, install, if_true] at loaded
    exact ⟨t, taken, by rw [loaded]; exact tfind_tput_same .., by rw [loaded]⟩
  case zeroes =>
    obtain ⟨t, taken, zeroed⟩ := updates (by simp [install, step])
    simp only [WardenRun.updates, install, Bool.false_eq_true, if_false] at zeroed
    exact ⟨t, taken, by rw [zeroed]; exact tfind_tdel_same .., by rw [zeroed]⟩

/-! ### The Warden's health, held cuts and evictions (R344, R347–R351) -/

theorem wardenRestart_outcome (s : State) : ∃ t, exec .wardenRestart s = .next t ∧ t.sec.up = false ∧
    t.sec.restarts = s.sec.restarts + 1 ∧ (s.sec.res.status = 1 → t.sec.res = s.sec.res.fail codeWardenRestarted 0) ∧
    (∀ e x, tfind? s.sec.enclaves e = some x → tfind? t.sec.enclaves e = some (breakBuild x)) ∧
    t.inflight = s.inflight ++ [.faultMessage secSrc 0x51 none ((s.sec.restarts + 1).toNat % 2 ^ 52)] ∧ t.hier = s.hier := by
  refine ⟨_, rfl, rfl, rfl, fun busy => if_pos (beq_iff_eq.mpr busy), fun e x found => ?_, rfl, rfl⟩
  exact (tfind_tmap breakBuild s.sec.enclaves e).trans (congrArg _ found)

section
variable {s : State} {d c : Nat} (part : d < 712)
include part

theorem cutHold_held (used : s.inEnclaveUse d = true) :
    exec (.cutHold d c) s = .next { s with sec := { s.sec with cuts := s.sec.cuts ++ [(d, c, s.now)] } } :=
  (onWf_true _ (decide_eq_true part)).trans (congrArg _ (if_pos used))

theorem cutHold_closes (unused : s.inEnclaveUse d = false) (code : c < 16) (runs : (s.dom d).st = .run) :
    exec (.cutHold d c) s = .next (s.beginClose d (c == 2)) := by
  refine (onWf_true _ (decide_eq_true part)).trans (congrArg _ ?_)
  simp [State.cut, unused, State.doCut, code, runs]

theorem graceExpiry_none (uncut : s.sec.cuts = []) : exec (.enclaveGraceExpiry d) s = .next s :=
  (onWf_true _ (decide_eq_true part)).trans (congrArg _ (if_neg (by simp [uncut])))

end

theorem inEnclaveUse_of_normal {s : State} {g : Nat} (core : g < 576) (normal : swEm (s.core g).sw = false) :
    s.inEnclaveUse g = false := by simp [State.inEnclaveUse, core, normal]

/-- Core `k` stopped at the end of a grace period: what the enclave held in it is gone (R350). -/
def Core.stoppedOut (k : Core) : Core :=
  let c := { k with
    a := 0, x := 0, y := 0, l := 0, f := 0, va := 0, p := 0, sw := 0, sb := [], fmap := [], run := .stopped, stall := .none }
  (c.predFlush.setReg 0x100 0).setReg 0x101 0

/-- An evicted enclave's cores are to be forced out; no register of a core changes (R351). -/
theorem evictEnclave_core (s : State) (e g : Nat) : ∃ b, (s.evictEnclave e).core g = { s.core g with forced := b } := by
  unfold State.evictEnclave
  extract_lets x
  split
  · exact ⟨_, rfl⟩
  · show ∃ b, tget (tmap (fun c : Core => if swEm c.sw && c.eid == e then { c with forced := true } else c) s.cores) g
      Core.initial = { tget s.cores g Core.initial with forced := b }
    simp only [tget, tfind_tmap]
    cases tfind? s.cores g with
    | none => exact ⟨_, rfl⟩
    | some k =>
      dsimp only [Option.map_some, Option.getD_some]
      split <;> exact ⟨_, rfl⟩

theorem evictEnclave_evicted (s : State) (e : Nat) : ((s.evictEnclave e).enclave e).st = .evicted := by
  unfold State.evictEnclave
  extract_lets x
  split
  next already => exact beq_iff_eq.mp already
  next => exact congrArg Enclave.st (setEnclave_enclave_same s e _)

theorem evictEnclave_cuts (s : State) (e : Nat) : (s.evictEnclave e).sec.cuts = s.sec.cuts := by
  unfold State.evictEnclave
  extract_lets x
  split <;> rfl

theorem evictEnclave_dom (s : State) (e d : Nat) : (s.evictEnclave e).dom d = s.dom d := by
  unfold State.evictEnclave
  extract_lets x
  split <;> rfl

section
variable {s : State} {g c t : Nat} (core : g < 576) (held : s.sec.cuts = [(g, c, t)])
include core held

theorem graceExpiry_early (early : s.now < t + s.enclaveGrace) : exec (.enclaveGraceExpiry g) s = .next s := by
  refine (onWf_true _ (decide_eq_true (by omega))).trans (congrArg _ (if_neg ?_))
  simp [held, early]

theorem graceExpiry_evicts (due : t + s.enclaveGrace ≤ s.now) : exec (.enclaveGraceExpiry g) s =
    .next ((s.setCore g (s.core g).stoppedOut).evictEnclave (s.core g).eid).releaseCuts := by
  refine (onWf_true _ (decide_eq_true (by omega))).trans (congrArg _ ((if_pos ?_).trans (if_pos core)))
  simp [held, due]

/-- The core is stopped, so the cut that waited for it ends with the eviction. -/
theorem graceExpiry_outcome (due : t + s.enclaveGrace ≤ s.now) (code : c < 16) (closed : (s.dom g).st ≠ .run) :
    ∃ u b, exec (.enclaveGraceExpiry g) s = .next u ∧ u.core g = { (s.core g).stoppedOut with forced := b } ∧
      (u.enclave (s.core g).eid).st = .evicted ∧ u.sec.cuts = [] := by
  let v : State := (s.setCore g (s.core g).stoppedOut).evictEnclave (s.core g).eid
  obtain ⟨b, left⟩ := evictEnclave_core (s.setCore g (s.core g).stoppedOut) (s.core g).eid g
  rw [setCore_core_same] at left
  have normal : swEm (v.core g).sw = false := by
    rw [left]
    exact (by decide : swEm 0 = false)
  have released : v.releaseCuts = { v with sec := { v.sec with cuts := [] } } :=
    releaseCuts_of_closed ((evictEnclave_cuts ..).trans held) (inEnclaveUse_of_normal core normal) code
      (by rw [evictEnclave_dom]; exact closed)
  exact ⟨_, b, (graceExpiry_evicts core held due).trans (congrArg _ released), left, evictEnclave_evicted .., rfl⟩

end

theorem securityHealth : Claims.SecurityHealth := by
  intro s
  refine ⟨wardenRestart_outcome s, rfl, rfl, rfl, fun _ _ part used => cutHold_held part used,
    fun _ _ part unused code runs => cutHold_closes part unused code runs, fun _ part uncut => graceExpiry_none part uncut,
    fun _ _ _ core held early => graceExpiry_early core held early, fun g c t core held due code closed => ?_⟩
  obtain ⟨u, b, ends, left, evicted, uncut⟩ := graceExpiry_outcome core held due code closed
  exact ⟨u, ends, by rw [left]; rfl, by rw [left]; rfl, by rw [left]; rfl, by rw [left]; rfl, by rw [left]; rfl,
    by rw [left]; rfl, evicted, uncut⟩

/-- Settles O45, from the Warden's commands, the steps of a range and the health of the security block. -/
theorem enclaveSecurity : Obligations.EnclaveSecurity := ⟨wardenCommands, rangeSteps, securityHealth⟩

end Sys2Proof.Machine
end

section
/-! SUPPORT. The proofs of the statements about the block: a step takes the front of the queue, every command answers through the
check of the indices it names, and every word of a Gliwin instruction is read back (R85, R86, Tables 3-2 to 3-14). -/

namespace Sys2Proof.Machine

/-! ### The queue and well-formed commands -/

/-- Settles O1: the queue's front is taken. -/
theorem stepRunsFront : Obligations.StepRunsFront := fun _ _ _ => rfl

/-- With nothing under way the package lets one reference period pass. -/
theorem idle_of_quiet {s : State} (quiet : s.inflight = []) : idle s = s.advance 1 := by
  have stays : s.hopAll = s := by simp [State.hopAll, quiet]
  simp only [idle, stays, quiet, List.find?_nil]

/-- Settles O2: an empty queue's step is `idle`, whose one period keeps the reference's time. -/
theorem emptyQueueStep : Obligations.EmptyQueueStep := by
  have step_idle (s : State) (none : s.pending = []) : step s = .next (idle s) := by simp only [step, none]
  refine ⟨fun s none => ⟨idle s, step_idle s none⟩, fun s none quiet clocks => ?_⟩
  rw [step_idle s none, idle_of_quiet quiet, State.advance_of_reference s 1 (by rw [clocks]; rfl)]

/-- Every command is an effect of its own on what its check of indices lets through. -/
theorem exec_eq_onWf (i : Instr) (s : State) : ∃ t, exec i s = onWf i.wf t := by
  cases i <;> exact ⟨_, rfl⟩

/-- Settles O3, since every command answers through the check of its indices. -/
theorem wellFormedCompletes : Obligations.WellFormedCompletes := by
  intro i s
  obtain ⟨t, answer⟩ := exec_eq_onWf i s
  rw [answer]
  exact ⟨fun wf => ⟨t, onWf_true t wf⟩, onWf_false t⟩

/-! ### The fields of a Gliwin word, by format (Table 3-2) -/

section
variable {c : Nat} {major : BitVec 6}

theorem tWord_fields {d sa sb : BitVec 5} {fn : BitVec 11} :
    (tWord major d sa sb fn).extractLsb' 26 6 = major ∧ (tWord major d sa sb fn).extractLsb' 21 5 = d ∧
    (tWord major d sa sb fn).extractLsb' 16 5 = sa ∧ (tWord major d sa sb fn).extractLsb' 11 5 = sb ∧
    (tWord major d sa sb fn).extractLsb' 0 11 = fn := by
  refine ⟨?_, ?_, ?_, ?_, ?_⟩ <;> unfold tWord
  · exact BitVec.extractLsb'_append_eq_left
  · rw [BitVec.extractLsb'_append_eq_of_add_le (by decide)]
    exact BitVec.extractLsb'_append_eq_left
  · iterate 2 rw [BitVec.extractLsb'_append_eq_of_add_le (by decide)]
    exact BitVec.extractLsb'_append_eq_left
  · iterate 3 rw [BitVec.extractLsb'_append_eq_of_add_le (by decide)]
    exact BitVec.extractLsb'_append_eq_left
  · iterate 3 rw [BitVec.extractLsb'_append_eq_of_add_le (by decide)]
    exact BitVec.extractLsb'_append_eq_right

theorem vectorFn_fields {ty : BitVec 3} {op : BitVec 8} :
    (ty ++ op : BitVec 11).extractLsb' 0 8 = op ∧ (ty ++ op : BitVec 11).extractLsb' 8 3 = ty :=
  ⟨BitVec.extractLsb'_append_eq_right, BitVec.extractLsb'_append_eq_left⟩

theorem atomFn_fields {z op : BitVec 4} {order : BitVec 2} {wide : Bool} :
    (atomFn z order wide op).extractLsb' 7 4 = z ∧ (atomFn z order wide op).extractLsb' 5 2 = order ∧
    (atomFn z order wide op).getLsbD 4 = wide ∧ (atomFn z order wide op).extractLsb' 0 4 = op := by
  refine ⟨BitVec.extractLsb'_append_eq_left, ?_, ?_, ?_⟩ <;> unfold atomFn
  · rw [BitVec.extractLsb'_append_eq_of_add_le (by decide)]
    exact BitVec.extractLsb'_append_eq_left
  · simp only [BitVec.getLsbD_append]
    rw [if_pos (by decide), if_pos (by decide), if_neg (by decide)]
    simp
  · iterate 2 rw [BitVec.extractLsb'_append_eq_of_add_le (by decide)]
    exact BitVec.extractLsb'_append_eq_right

theorem kWord_fields {kf : BitVec 2} {imm : BitVec 24} :
    (kWord major kf imm).extractLsb' 26 6 = major ∧ (kWord major kf imm).extractLsb' 24 2 = kf ∧
    (kWord major kf imm).extractLsb' 0 24 = imm := by
  refine ⟨BitVec.extractLsb'_append_eq_left, ?_, ?_⟩ <;> unfold kWord <;>
    rw [BitVec.extractLsb'_append_eq_of_add_le (by decide)]
  · exact BitVec.extractLsb'_append_eq_left
  · exact BitVec.extractLsb'_append_eq_right

theorem aWord_fields {base size : BitVec 2} {disp : BitVec 22} :
    (aWord major base size disp).extractLsb' 26 6 = major ∧ (aWord major base size disp).extractLsb' 24 2 = base ∧
    (aWord major base size disp).extractLsb' 22 2 = size ∧ (aWord major base size disp).extractLsb' 0 22 = disp := by
  refine ⟨BitVec.extractLsb'_append_eq_left, ?_, ?_, ?_⟩ <;> unfold aWord <;>
    rw [BitVec.extractLsb'_append_eq_of_add_le (by decide)]
  · exact BitVec.extractLsb'_append_eq_left
  · rw [BitVec.extractLsb'_append_eq_of_add_le (by decide)]
    exact BitVec.extractLsb'_append_eq_left
  · rw [BitVec.extractLsb'_append_eq_of_add_le (by decide)]
    exact BitVec.extractLsb'_append_eq_right

theorem bWord_fields {cond : BitVec 3} {slot : BitVec 5} {disp : BitVec 18} :
    (bWord cond slot disp).extractLsb' 26 6 = 0x30 ∧ (bWord cond slot disp).extractLsb' 23 3 = cond ∧
    (bWord cond slot disp).extractLsb' 18 5 = slot ∧ (bWord cond slot disp).extractLsb' 0 18 = disp := by
  refine ⟨BitVec.extractLsb'_append_eq_left, ?_, ?_, ?_⟩ <;> unfold bWord <;>
    rw [BitVec.extractLsb'_append_eq_of_add_le (by decide)]
  · exact BitVec.extractLsb'_append_eq_left
  · rw [BitVec.extractLsb'_append_eq_of_add_le (by decide)]
    exact BitVec.extractLsb'_append_eq_left
  · rw [BitVec.extractLsb'_append_eq_of_add_le (by decide)]
    exact BitVec.extractLsb'_append_eq_right

theorem jWord_fields {disp : BitVec 26} :
    (jWord major disp).extractLsb' 26 6 = major ∧ (jWord major disp).extractLsb' 0 26 = disp :=
  ⟨BitVec.extractLsb'_append_eq_left, BitVec.extractLsb'_append_eq_right⟩

theorem sWord_fields {sfn : BitVec 10} {opnd : BitVec 16} :
    (sWord sfn opnd).extractLsb' 26 6 = 0x3F ∧ (sWord sfn opnd).extractLsb' 16 10 = sfn ∧
    (sWord sfn opnd).extractLsb' 0 16 = opnd := by
  refine ⟨BitVec.extractLsb'_append_eq_left, ?_, ?_⟩ <;> unfold sWord <;>
    rw [BitVec.extractLsb'_append_eq_of_add_le (by decide)]
  · exact BitVec.extractLsb'_append_eq_left
  · exact BitVec.extractLsb'_append_eq_right

/-! ### What the decoder reads from the word of each format (R85, R86) -/

theorem decodeGliwin_group {d sa sb : BitVec 5} {fn : BitVec 11} (group : major.toNat < 4) :
    decodeGliwin c (tWord major d sa sb fn) = tInstr major fn c d sa sb := by
  obtain ⟨hm, hd, ha, hb, hf⟩ := @tWord_fields major d sa sb fn
  simp only [decodeGliwin, hm, hd, ha, hb, hf, group, if_true]

theorem decodeGliwin_vector {d sa sb : BitVec 5} {ty : BitVec 3} {op : BitVec 8} :
    decodeGliwin c (tWord 0x04 d sa sb (ty ++ op)) = vInstr op c ty d sa sb := by
  obtain ⟨hm, hd, ha, hb, hf⟩ := @tWord_fields 0x04 d sa sb (ty ++ op)
  obtain ⟨ho, ht⟩ := @vectorFn_fields ty op
  simp only [decodeGliwin, hm, hd, ha, hb, hf, ho, ht]
  rfl

theorem decodeGliwin_atomic {d sa sb : BitVec 5} {z op : BitVec 4} {order : BitVec 2} {wide : Bool} :
    decodeGliwin c (tWord 0x05 d sa sb (atomFn z order wide op)) = atomInstr op c z order wide d sa sb := by
  obtain ⟨hm, hd, ha, hb, hf⟩ := @tWord_fields 0x05 d sa sb (atomFn z order wide op)
  obtain ⟨hz, ho, hw, hop⟩ := @atomFn_fields z op order wide
  simp only [decodeGliwin, hm, hd, ha, hb, hf, hz, ho, hw, hop]
  rfl

theorem decodeGliwin_immediate {kf : BitVec 2} {imm : BitVec 24} (group : 8 ≤ major.toNat ∧ major.toNat ≤ 0x0C) :
    decodeGliwin c (kWord major kf imm) = kInstr major kf c imm := by
  obtain ⟨hm, hk, hi⟩ := @kWord_fields major kf imm
  simp only [decodeGliwin, hm, hk, hi]
  rw [if_neg (by omega), if_neg (by omega), if_neg (by omega), if_pos group]

theorem decodeGliwin_memory {base size : BitVec 2} {disp : BitVec 22} (group : 0x10 ≤ major.toNat ∧ major.toNat ≤ 0x1F) :
    decodeGliwin c (aWord major base size disp) = aInstr major c base size disp := by
  obtain ⟨hm, hb, hs, hd⟩ := @aWord_fields major base size disp
  simp only [decodeGliwin, hm, hb, hs, hd]
  rw [if_neg (by omega), if_neg (by omega), if_neg (by omega), if_neg (by omega), if_pos group]

theorem decodeGliwin_branch {cond : BitVec 3} {slot : BitVec 5} {disp : BitVec 18} :
    decodeGliwin c (bWord cond slot disp) = some (.bCond c cond slot disp) := by
  obtain ⟨hm, hc, hs, hd⟩ := @bWord_fields cond slot disp
  simp only [decodeGliwin, hm, hc, hs, hd]
  rfl

theorem decodeGliwin_jmp {disp : BitVec 26} : decodeGliwin c (jWord 0x31 disp) = some (.jmp c disp) := by
  obtain ⟨hm, hd⟩ := @jWord_fields 0x31 disp
  simp only [decodeGliwin, hm, hd]
  rfl

theorem decodeGliwin_call {disp : BitVec 26} : decodeGliwin c (jWord 0x32 disp) = some (.call c disp) := by
  obtain ⟨hm, hd⟩ := @jWord_fields 0x32 disp
  simp only [decodeGliwin, hm, hd]
  rfl

theorem decodeGliwin_system {sfn : BitVec 10} {opnd : BitVec 16} : decodeGliwin c (sWord sfn opnd) = sInstr sfn c opnd := by
  obtain ⟨hm, hf, ho⟩ := @sWord_fields sfn opnd
  simp only [decodeGliwin, hm, hf, ho]
  rfl

end

/-- Settles O4: the decoder takes each format apart into the fields it was put together from, and each table row gives the
instruction back; what is no instruction of a core has no word. -/
theorem gliwinRoundTrip : Obligations.GliwinRoundTrip := by
  intro i c w core word
  cases i
  case add | sub | andT | orT | xor | shl | shr | sar | ror | min | max | minu | maxu | slt | sltu | movs | clz | ctz | popc |
      bswap | mul | mulh | mulhu | div | divu | rem | remu | aese | aesel | aesd | aesdl | aessub | sha256r | sha256w | sha512r
      | sha512w | crc32cb | crc32ch | crc32cw | crc32cd | fadd | fsub | fmul | fdiv | fsqrt | fmin | fmax | fma | fcvti | fcvtf
      | flt | feq =>
    cases core; cases word
    exact decodeGliwin_group (by decide)
  case vadd | vsub | vmul | vand | vor | vxor | vmin | vmax | vminu | vmaxu | vshl | vshr | vsar | vcmpeq | vcmplt | vcmpltu |
      vfma | vlds | vsts | vbcast | vext | vins | vradd | vrmin | vrmax =>
    cases core; cases word
    exact decodeGliwin_vector
  case afadd | aswap | acas | amin | amax | aminu | amaxu | aand | aor | axor =>
    cases core; cases word
    exact decodeGliwin_atomic
  case li | addi | shi | andi | lix | addx | liy | addy | addf | ori | xori | shifti | mov | ret | ja | calla =>
    cases core; cases word
    exact decodeGliwin_immediate (by decide)
  case ld | lds | st | addMem | subMem | andMem | orMem | xorMem | mulMem | ldx | stx | ldy | sty | lea | vld | vst =>
    cases core; cases word
    exact decodeGliwin_memory (by decide)
  case mfsr | mtsr | mfsw | mtsw | sync | ifence | fence | trap | svc | hvc | eret | wfi | brk | gate | enter | exit | pflush |
      pbar | pmrd | pmstop | pmgo | tlbiv | tlbiall | tlbivb | tlbiallb | tlbitid | cwb | cflush | cinv | czero | cpf | cwbset |
      cflushset | cinvset | tswitch | iclr | vinj =>
    cases core; cases word
    exact decodeGliwin_system
  case bCond =>
    cases core; cases word
    exact decodeGliwin_branch
  case jmp =>
    cases core; cases word
    exact decodeGliwin_jmp
  case call =>
    cases core; cases word
    exact decodeGliwin_call
  all_goals cases core

end Sys2Proof.Machine
end

section
/-! SUPPORT. The proofs of the statements about the counter instructions, ICLR, VINJ and TSWITCH (R312, R315, R316, R322, Tables 5-11
and 11-2). -/

namespace Sys2Proof.Machine

/-! ### Counters, latches and vectors (Tables 5-11 and 11-2) -/

section
variable {c : Nat} {s s1 : State} {x : Ctx}

theorem pmEnable_writes (on : Bool) (level : 1 ≤ x.pl) : pmEnable x 0 on s =
    .ok (some (x.pc + 4)) (s.srWrite x.g 0xE0 (setBit ((s.core x.g).reg 0xE0) 0 on) 1) := by
  simp [pmEnable, exec_bind, needLevel_of_le level]

theorem pmEnable_low (on : Bool) (level : x.pl = 0) : pmEnable x 0 on s = .error (.exc { code := 0x02 }) s := by
  simp [pmEnable, exec_bind, needLevel_of_lt (show x.pl < 1 by omega)]

/-- An operand of two bits, which ICLR's two latches take. -/
theorem iclr_form {opnd : BitVec 16} (two : opnd.toNat < 4) : fld opnd 2 14 = 0 := by
  simp [fld, bitsOf, Nat.div_eq_of_lt two]

end

theorem counterAndTenantInstructions : Claims.CounterAndTenantInstructions := by
  intro c opnd s s1 s2 x v h
  obtain rfl := ctx_core_of_fetches h
  refine ⟨fun level => coreStep_completes h (pmEnable_writes false level),
    fun level => coreStep_completes h (pmEnable_writes true level),
    fun low => ⟨coreStep_raises h (pmEnable_low false low), coreStep_raises h (pmEnable_low true low)⟩,
    fun level two => coreStep_completes h ?iclr, fun level high low read => coreStep_completes h ?vinj⟩
  case iclr =>
    have enough : (if bit opnd 1 then 2 else 1) ≤ x.pl := by split <;> omega
    simp [exec_bind, iclr_form two, needLevel_of_le enough]
  case vinj => simp [exec_bind, high, low, needLevel_of_le (Nat.le_of_eq level.symm), read]

/-! ### TSWITCH (R312, R322) -/

/-- A group without a pending vector pushes nothing. -/
theorem pushGroup_of_none {x : Ctx} {k : Core} {g : Nat} (t : BitVec 12) (none : k.reg (0x84 + g) = 0) :
    pushGroup x k t g = [] := by
  simp [pushGroup, vectorBytes, none, fld, bitsOf]

/-- The core of a TSWITCH whose vectors have been taken out, with nothing to push. -/
def Core.vectorsTaken (k : Core) (new : BitVec 12) : Core :=
  { (List.range 8).foldl (fun c g => c.setReg (0x84 + g) 0) k with sb := [], stall := .tpush k.tid new }

/-- The state in which TSWITCH has changed TID and told the router (R322 steps 1 to 4). -/
def State.tenantSwitched (s : State) (c : Nat) (new : BitVec 12) : State :=
  (s.setCore c ((s.core c).vectorsTaken new)).tenantGo c (s.core c).tid new

theorem storesGo_tpush {s : State} {c : Nat} {old new : BitVec 12} (visible : (s.core c).sb = [])
    (pushes : (s.core c).stall = .tpush old new) : s.storesGo c = s.tenantGo c old new := by
  simp [State.storesGo, visible, pushes]

theorem tswitch_stalls {c : Nat} {opnd : BitVec 16} {s s1 s2 : State} {x : Ctx} {v : Word} (h : Fetches c s x s1)
    (operand : slotOperand x opnd 2 s1 = .ok v s2) (visible : (s2.core c).sb = [])
    (none : ∀ g, g < 8 → (s2.core c).reg (0x84 + g) = 0) :
    exec (.tswitch c opnd) s = .next (s2.tenantSwitched c (v.setWidth 12)) := by
  obtain rfl := ctx_core_of_fetches h
  have pushes : ((List.range 8).map fun g => pushGroup x (s2.core x.g) (s2.core x.g).tid g).flatten = [] := by
    simp only [List.flatten_eq_nil_iff, List.mem_map, List.mem_range]
    rintro l ⟨g, within, rfl⟩
    exact pushGroup_of_none _ (none g within)
  refine coreStep_stalls h ((exec_bind_ok operand).trans ((exec_bind_ok (drained_of_empty visible)).trans ?_))
  simp only [exec_bind, exec_get, exec_set, exec_modify, exec_pure, pushes]
  exact congrArg _ (storesGo_tpush (by simp) (by simp))

/-- Clearing registers changes nothing else of a core. -/
theorem foldl_setReg (f : Nat → Nat) (l : List Nat) (k : Core) :
    l.foldl (fun c g => c.setReg (f g) 0) k = { k with sr := (l.foldl (fun c g => c.setReg (f g) 0) k).sr } := by
  induction l generalizing k with
  | nil => rfl
  | cons g l ih => exact ih (k.setReg (f g) 0)

theorem vectorsTaken_eq (k : Core) (new : BitVec 12) :
    k.vectorsTaken new = { k with sb := [], stall := .tpush k.tid new, sr := (k.vectorsTaken new).sr } := by
  rw [Core.vectorsTaken, foldl_setReg]

theorem tenantSwitched_core {s : State} {c : Nat} (new : BitVec 12) (closed : (s.core c).win = []) :
    ∃ k, (s.tenantSwitched c new).core c = k ∧ k.stall = .tswitch (s.core c).tid new [] ∧ k.tid = new ∧
      k.itlb = [] ∧ k.dtlb = [] ∧ k.l2tlb = [] := by
  simp only [State.tenantSwitched, State.tenantGo, send_core, modCore_core_same, setCore_core_same]
  refine ⟨_, rfl, rfl, ?_, rfl, rfl, rfl⟩
  rw [vectorsTaken_eq, Core.tid, eff_of_no_window (by simp [Core.setNow, Core.tlbFlush, Core.setReg, closed])]
  exact (congrArg _ (tget_tput_same ..)).trans (by simp)

/-- The answer of a tenant with no group to pull: TSWITCH's pulls are done (R322 step 7). -/
theorem residencyAnswer_completes {c : Nat} {cls : BitVec 3} {old new : BitVec 12} {s : State} (core : c < 576)
    (stalls : (s.core c).stall = .tswitch old new []) (may : s.mayArrive (.residencyAnswer c cls 0) = true) :
    exec (.residencyAnswer c cls 0) s = .next
      (((s.arrive (.residencyAnswer c cls 0)).modCore c fun k => k.setNow srQos (cls.setWidth 64)).pullsDone c) := by
  have none : ((List.range 64).filter fun i => bit (0 : BitVec 8) (i / 8)) = [] := by decide
  show execResidencyAnswer c cls 0 s = _
  rw [execResidencyAnswer, onArrival_of_may _ (coreOk_of_lt core) may]
  simp only [arrive_core, stalls, none]
  rfl

theorem tenantSwitch : Claims.TenantSwitch := by
  refine ⟨fun c opnd s s1 s2 x v h level high low read visible closed none => ?switch,
    fun c cls old new s core stalls free may => ?answer⟩
  case switch =>
    have operand := slotOperand_reads high low (Nat.le_of_eq level.symm) read
    obtain ⟨k, rfl, stall, tid, itlb, dtlb, l2tlb⟩ := tenantSwitched_core (v.setWidth 12) closed
    exact ⟨_, tswitch_stalls h operand visible none, stall, tid, itlb, dtlb, l2tlb, rfl, rfl⟩
  case answer =>
    rw [residencyAnswer_completes core stalls may, State.pullsDone]
    have none_held : (((s.arrive (.residencyAnswer c cls 0)).modCore c
        fun k => k.setNow srQos (cls.setWidth 64)).core c).heldDel = [] := by
      rw [modCore_core_same]
      exact free
    rw [none_held]
    rfl

/-- Settles O29, from the counter instructions, ICLR, VINJ and TSWITCH. -/
theorem tenantInstructions : Obligations.TenantInstructions := ⟨counterAndTenantInstructions, tenantSwitch⟩

end Sys2Proof.Machine
end

section
/-! SUPPORT. The proofs of the statement about TESTMODE (R487, R489): the sample at the end of a cold reset, the ports that are silent in it,
and the instructions of the JTAG port. -/

namespace Sys2Proof.Machine

/-! ### JTAG instructions in cold reset (R489) -/

section
variable {s : State}

theorem tap_of_powered (vaon : s.board.vaon = true) (n : Nat) :
    s.tap n = { s with board := ({ s.board with jtag := n } : Board).redrive } := if_pos vaon

theorem tdo_of_powered (vaon : s.board.vaon = true) (bits : List Bool) :
    s.tdo bits = { s with out := s.out ++ [.tdo bits] } := if_pos vaon

theorem shiftBoundary_of_powered (vaon : s.board.vaon = true) (v : BitVec 41) :
    s.shiftBoundary v = { s with board := ({ s.board with boundary := v } : Board).redrive } := if_pos vaon

/-- What the lands show in cold reset under each instruction. -/
theorem drive_of_cold {b : Board} (cold : b.cold = true) (vaon : b.vaon = true) : b.drive =
    if b.jtag == 3 || b.jtag == 4 then some (some b.boundary) else if b.jtag == 5 then some none else none := by
  simp [Board.drive, cold, vaon]

/-- The state after an instruction is loaded and bits have left TDO. -/
def State.shifted (s : State) (n : Nat) (bits : List Bool) : State :=
  { s with board := ({ s.board with jtag := n } : Board).redrive, out := s.out ++ [.tdo bits] }

theorem tap_tdo (vaon : s.board.vaon = true) (n : Nat) (bits : List Bool) : (s.tap n).tdo bits = s.shifted n bits := by
  have still : (s.tap n).board.vaon = true := by rw [tap_of_powered vaon]; exact vaon
  rw [tdo_of_powered still, tap_of_powered vaon]
  rfl

/-- The boundary register is shifted behind an instruction. -/
theorem shifted_shiftBoundary (vaon : s.board.vaon = true) (n : Nat) (bits : List Bool) (v : BitVec 41) :
    (s.shifted n bits).shiftBoundary v = { s.shifted n bits with
      board := ({ (s.shifted n bits).board with boundary := v } : Board).redrive } :=
  shiftBoundary_of_powered (s := s.shifted n bits) vaon v

theorem jtag_in_cold (cold : s.board.cold = true) (vaon : s.board.vaon = true) :
    (∃ u, exec .jtagIdcode s = .next u ∧ u.out = s.out ++ [.tdo (bitList idcode)]) ∧
      (∀ l, (∃ u, exec (.jtagBypass l) s = .next u ∧ u.out = s.out ++ [.tdo (throughBypass l)]) ∧
        (∃ u, exec (.jtagClamp l) s = .next u ∧ u.out = s.out ++ [.tdo (throughBypass l)] ∧
          u.board.driven = some (some s.board.boundary)) ∧
        ∃ u, exec (.jtagHighz l) s = .next u ∧ u.out = s.out ++ [.tdo (throughBypass l)] ∧ u.board.driven = some none) ∧
      (∀ v w, (∃ u, exec (.jtagSamplePreload v w) s = .next u ∧ u.out = s.out ++ [.tdo (bitList v)] ∧ u.board.boundary = w) ∧
        ∃ u, exec (.jtagExtest v w) s = .next u ∧ u.out = s.out ++ [.tdo (bitList v)] ∧ u.board.boundary = w ∧
          u.board.driven = some (some w)) ∧
      ∃ u, exec .jtagTapReset s = .next u ∧ u.board.jtag = 1 ∧ u.board.driven = none ∧ u.out = s.out := by
  have shift (n : Nat) (bits : List Bool) : Host.Outcome.next (φ := Fault) (ρ := Refusal) ((s.tap n).tdo bits) =
      .next (s.shifted n bits) := congrArg _ (tap_tdo vaon n bits)
  refine ⟨⟨_, shift 1 _, rfl⟩, fun l => ⟨⟨_, shift 0 _, rfl⟩, ⟨_, shift 4 _, rfl, drive_of_cold cold vaon⟩,
    ⟨_, shift 5 _, rfl, drive_of_cold cold vaon⟩⟩, fun v w => ⟨⟨_, rfl, ?_⟩, ⟨_, rfl, ?_⟩⟩, ⟨_, rfl, ?_⟩⟩
  · rw [tap_tdo vaon, shifted_shiftBoundary vaon]
    exact ⟨rfl, rfl⟩
  · have still : (s.tap 3).board.cold = true := by rw [tap_of_powered vaon]; exact cold
    rw [if_pos still, tap_tdo vaon, shifted_shiftBoundary vaon]
    exact ⟨rfl, rfl, drive_of_cold cold vaon⟩
  · rw [tap_of_powered vaon]
    exact ⟨rfl, drive_of_cold cold vaon, rfl⟩

/-! ### What is silent in cold reset (R487) -/

theorem steward_of_cold (cold : s.board.cold = true) : s.steward = false := by simp [State.steward, cold]

theorem silent_in_cold (cold : s.board.cold = true) :
    (∀ bytes, exec (.mgmtFrameReceive bytes) s = .next s) ∧
    (∀ ip port bytes, s.mayArrive (.brixmenRequest ip port bytes) = true →
      exec (.brixmenRequest ip port bytes) s = .next (s.arrive (.brixmenRequest ip port bytes))) ∧
    (∀ a w, exec (.smbusQuickCommand a w) s = .next s) ∧ ∀ a b, exec (.smbusReadByte a b) s = .next s := by
  refine ⟨fun bytes => congrArg _ (if_pos ?_), fun ip port bytes may => ?_, fun a w => congrArg _ (if_neg ?_),
    fun a b => congrArg _ (if_neg ?_)⟩
  · rw [steward_of_cold cold]
    rfl
  · have still : (s.arrive (.brixmenRequest ip port bytes)).steward = false := steward_of_cold cold
    show execBrixmenRequest ip port bytes s = _
    rw [execBrixmenRequest, onArrival_of_may _ rfl may, still]
    rfl
  · simp [cold]
  · simp [cold]

/-- A span from a noted moment has passed. -/
theorem any_due {o : Option Nat} {t n now : Nat} (noted : o = some t) (due : t + n ≤ now) :
    (o.any fun t => decide (t + n ≤ now)) = true := by
  subst noted
  exact decide_eq_true due

/-- The sample at the end of a cold reset with TESTMODE 1 (R487). -/
theorem coldResetEnd_testMode {t : Nat} (id : BitVec 16) (a : BitVec 3) (cold : s.board.cold = true)
    (free : s.board.held = false) (released : s.board.released = some t) (due : t + 20000000 ≤ s.now) :
    exec (.coldResetEnd id a true) s = .next { s with
      board := { s.board with mgmtId := id, smbAddr := a, testMode := true, released := none } } := by
  have rested := any_due released due
  have ends : (s.board.cold && !s.board.held && s.board.released.any fun t => decide (t + 20000000 ≤ s.now)) = true := by
    simp only [cold, free, rested, Bool.not_false, Bool.and_self]
  show execColdResetEnd id a true s = _
  simp only [execColdResetEnd, ends, if_true]

end

/-- Settles O44, from the sample, the silent ports and the JTAG instructions. -/
theorem testModeSilence : Obligations.TestModeSilence := by
  refine ⟨fun s id a t cold free released due =>
    ⟨_, coldResetEnd_testMode id a cold free released due, cold, rfl, rfl⟩, fun s cold => ?_⟩
  obtain ⟨mgmt, brixmen, quick, read⟩ := silent_in_cold cold
  exact ⟨mgmt, brixmen, quick, read, jtag_in_cold cold⟩

end Sys2Proof.Machine
end

section
/-! SUPPORT. The proofs of the statements about voltage requests and wakes of the package (R373, R418, R419, R425, R426, R444): what each
answer on an AVSBus makes of the oldest request of its master, and which sources ask for EXIT_HOLD. -/

namespace Sys2Proof.Machine

/-! ### Requests at an AVSBus master (R425, R426, R444) -/

@[simp] theorem setAvs_avsQueue_same (s : State) (m : Nat) (q : List AvsReq) : (s.setAvs m q).avsQueue m = q :=
  tget_tput_same ..

@[simp] theorem setRail_rail_same (s : State) (r : Nat) (x : Rail) : (s.setRail r x).rail r = x := tget_tput_same ..

theorem masterOk_of_lt {m : Nat} (master : m < 4) : masterOk m = true := decide_eq_true master

section
variable {m : Nat} {s : State} {x : AvsReq} {q : List AvsReq}

theorem avsResponse_eq (good : Bool) (master : m < 4) (front : s.avsQueue m = x :: q) (writes : x.polling = false) :
    exec (.avsResponse m good) s = .next (
      if good then { s.setAvs m ({ x with polling := true } :: q) with out := s.out ++ [.avsStatus m (avsSelect x.rail)] }
      else if x.second then s.avsFail m x
      else (s.setAvs m ({ x with second := true } :: q)).avsDrive m) := by
  show execAvsResponse m good s = _
  rw [execAvsResponse, onWf_true _ (masterOk_of_lt master)]
  simp only [front, writes]
  rfl

theorem avsStatusRead_eq (done : Bool) (master : m < 4) (front : s.avsQueue m = x :: q) (polls : x.polling = true) :
    exec (.avsStatusRead m done) s = .next (
      if done then
        let t := s.setRail x.rail { s.rail x.rail with nowMv := x.mv }
        (if x.row then t.seqAnswer 1 else t).avsNext m
      else { s with out := s.out ++ [.avsStatus m (avsSelect x.rail)] }) := by
  show execAvsStatusRead m done s = _
  rw [execAvsStatusRead, onWf_true _ (masterOk_of_lt master)]
  simp only [front, polls]
  rfl

theorem avsRequestFail_eq (master : m < 4) (front : s.avsQueue m = x :: q) :
    exec (.avsRequestFail m) s = .next (if x.deadline ≤ s.now then s.avsFail m x else s) := by
  show execAvsRequestFail m s = _
  rw [execAvsRequestFail, onWf_true _ (masterOk_of_lt master)]
  simp only [front]

/-- The end of the only request leaves the master idle. -/
theorem avsNext_of_last {t : State} (last : t.avsQueue m = [x]) : t.avsNext m = t.setAvs m [] := by
  rw [State.avsNext, last]
  simp [State.avsDrive]

theorem avsFail_of_request (asked : x.row = false) (last : s.avsQueue m = [x]) : ∃ u, s.avsFail m x = u ∧
    (u.rail x.rail).fails = satInc 16 (s.rail x.rail).fails ∧ u.avsQueue m = [] ∧
    u.inflight = s.inflight ++ [.faultMessage (srcCode 0 0 (0x1B + m)) 0x71 none (x.rail % 2 ^ 52)] := by
  refine ⟨_, rfl, ?_⟩
  simp only [State.avsFail, asked, Bool.false_eq_true, if_false]
  rw [avsNext_of_last (x := x)]
  · exact ⟨congrArg Rail.fails (setRail_rail_same ..), setAvs_avsQueue_same .., rfl⟩
  · exact last

end

theorem voltageRequests : Claims.VoltageRequests := by
  intro m s x q master front
  have response (good : Bool) := avsResponse_eq good master front
  refine ⟨response true, fun writes first => ?_, fun writes second => ?_, fun polls asked last => ?_,
    avsStatusRead_eq false master front, fun early => ?_, fun due asked last => ?_⟩
  · simpa [first] using response false writes
  · simpa [second] using response false writes
  · subst last
    refine ⟨_, avsStatusRead_eq true master front polls, ?_⟩
    simp only [asked, if_true, Bool.false_eq_true, if_false]
    rw [avsNext_of_last (x := x)]
    · exact ⟨congrArg Rail.nowMv (setRail_rail_same ..), setAvs_avsQueue_same .., rfl⟩
    · exact front
  · rw [avsRequestFail_eq master front, if_neg (Nat.not_le.mpr early)]
  · subst last
    obtain ⟨u, fails, counts⟩ := avsFail_of_request asked front
    exact ⟨u, by rw [avsRequestFail_eq master front, if_pos due, fails], counts⟩

/-! ### What wakes the package (R373, R418, R419) -/

section
variable {s : State}

theorem wake_of_hold (hold : s.power.pkg = 2) (idle : s.runningPurpose = 0) :
    s.wake = s.wakeEvent.queueReq ⟨purposeExitHold, 0, 0⟩ := by
  simp only [State.wake, idle, hold]
  rfl

theorem wakeCounts_of_hold (hold : s.power.pkg = 2) : s.wakeCounts = true := by simp [State.wakeCounts, hold]

theorem smbusReadByte_at (b : Byte) (warm : s.board.cold = false) : exec (.smbusReadByte s.smbAddress b) s =
    .next { s with out := s.out ++ [.smbus (
      if b == 0 then some (BitVec.ofNat 8 s.pkgState)
      else if b == 1 then some (if s.unacked == 0 then 0 else 1)
      else if b == 2 then some 0x48
      else none)] } := by
  show execSmbusReadByte s.smbAddress b s = _
  simp only [execSmbusReadByte, warm, beq_self_eq_true, Bool.not_false, Bool.and_self, if_true]

end

theorem packageWakes : Claims.PackageWakes := by
  intro a b s
  refine ⟨fun hold idle due waits => ?_, fun early => ?_, fun hold idle at_package warm => ?_, fun other => ?_,
    fun at_package warm => ?_⟩
  · show execWakeTimer s = _
    simp only [execWakeTimer, due, waits, wakeCounts_of_hold hold]
    exact congrArg _ (wake_of_hold hold idle)
  · show execWakeTimer s = _
    simp [execWakeTimer, Nat.not_le.mpr early]
  · show execSmbusQuickCommand a true s = _
    simp only [execSmbusQuickCommand, at_package, warm, wakeCounts_of_hold hold]
    simp only [beq_self_eq_true, Bool.not_false, Bool.and_self, if_true]
    exact congrArg _ (wake_of_hold hold idle)
  · have differs : (a == s.smbAddress) = false := beq_false_of_ne other
    constructor
    · show execSmbusQuickCommand a true s = _
      simp [execSmbusQuickCommand, differs]
    · show execSmbusReadByte a b s = _
      simp [execSmbusReadByte, differs]
  · subst at_package
    refine ⟨smbusReadByte_at 0 warm, smbusReadByte_at 2 warm, fun high => ?_⟩
    have ne (k : Byte) (low : k.toNat < 3) : (b == k) = false := beq_false_of_ne (by rintro rfl; omega)
    rw [smbusReadByte_at b warm, ne 0 (by decide), ne 1 (by decide), ne 2 (by decide)]
    rfl

/-- Settles O41, from the masters' requests and the sources of a wake. -/
theorem railsAndWakes : Obligations.RailsAndWakes := ⟨voltageRequests, packageWakes⟩

end Sys2Proof.Machine
end

section
/-! SUPPORT. The proofs of the statements about frames at the Ethernet ports and at the management port (R352, R354, R362, R363, R368, R372,
R443, R471, R473, R474). -/

namespace Sys2Proof.Machine

/-! ### Frames received at an Ethernet port (R352, R354, R362, R363) -/

@[simp] theorem setPort_port_same (s : State) (p : Nat) (x : Port) : (s.setPort p x).port p = x := tget_tput_same ..

@[simp] theorem portCount_port_same (s : State) (p : Nat) (f : Port → Port) : (s.portCount p f).port p = f (s.port p) :=
  setPort_port_same ..

@[simp] theorem portCount_qp (s : State) (p n : Nat) (f : Port → Port) : (s.portCount p f).qp? n = s.qp? n := rfl

section
variable {p l : Nat} {b : List Byte} {s : State}

theorem port_wf (port : p < 8) (link : l < 2) : (portOk p && linkOk l) = true := by simp [portOk, linkOk, port, link]

theorem frameReceive_idle (ok : Bool) (port : p < 8) (link : l < 2) (idle : s.linkRuns p l = false) :
    exec (.frameReceive p l ok b) s = .next s := by
  show execFrameReceive p l ok b s = _
  simp only [execFrameReceive, onWf_true _ (port_wf port link), idle, Bool.not_false, if_true]

theorem frameReceive_bad {ok : Bool} (port : p < 8) (link : l < 2) (runs : s.linkRuns p l = true) (role : s.portRole p = 1)
    (bad : ok = false ∨ b.length < 60 ∨ 9596 < b.length) : exec (.frameReceive p l ok b) s =
      .next (s.portCount p fun x => { x with bad := x.bad + 1 }) := by
  have counted : (!ok || decide (b.length < 60) || decide (b.length > 9596)) = true := by simpa [or_assoc] using bad
  show execFrameReceive p l ok b s = _
  simp [execFrameReceive, onWf_true _ (port_wf port link), runs, counted, role]

/-- A frame of a good length and FCS that is no pause frame, at an Ethernet port or a mirror port. -/
theorem frameReceive_good (port : p < 8) (link : l < 2) (runs : s.linkRuns p l = true) (long : 60 ≤ b.length)
    (short : b.length ≤ 9596) : exec (.frameReceive p l true b) s = .next (
      if isPause b then s.portCount p fun x => { x with pause := x.pause + 1 }
      else
        let t := s.portCount p fun x => { x with rx := x.rx + 1 }
        if s.portRole p == 2 && beAt b 12 2 == 0x88B5 then t.mirrorFrame p b true else t.dispatch p l b) := by
  show execFrameReceive p l true b s = _
  simp [execFrameReceive, onWf_true _ (port_wf port link), runs, Nat.not_lt.mpr long, Nat.not_lt.mpr short]

/-- A raw queue pair without a RECV descriptor drops the frame. -/
theorem rawReceive_without_descriptor {n stamp : Nat} {q : Qp} (empty : q.rHead = q.rTail) :
    s.rawReceive n q b stamp = s.portCount q.port fun x => { x with noBuf := x.noBuf + 1 } := by
  have none : (q.rTail + 65536 - q.rHead) % 65536 = 0 := by omega
  simp [State.rawReceive, none]

/-- A frame that no RoCE queue pair is meant by goes to the raw queue pair of its steering entry. -/
theorem dispatch_steered {n : Nat} {q : Qp} (plain : isRoce b = false) (steered : (s.port p).steered l (ethOf b) = some n)
    (qp : s.qp? n = some q) (raw : q.isRc = false) (here : q.port = p) : s.dispatch p l b = s.frameFor p n q b := by
  simp [State.dispatch, plain, steered, qp, raw, here]

theorem frameFor_raw {n : Nat} {q : Qp} (free : q.blocked = false) (goes : q.paused = false) (raw : q.isRc = false) :
    s.frameFor p n q b = s.rawReceive n q b ((s.now : Int) + (s.port p).rxAdj.toInt).toNat := by
  simp [State.frameFor, free, goes, raw]

theorem frameReceive_without_descriptor {n : Nat} {q : Qp} (port : p < 8) (link : l < 2) (runs : s.linkRuns p l = true)
    (long : 60 ≤ b.length) (short : b.length ≤ 9596) (pauses : isPause b = false) (role : s.portRole p = 1)
    (plain : isRoce b = false) (steered : (s.port p).steered l (ethOf b) = some n) (qp : s.qp? n = some q)
    (raw : q.isRc = false) (here : q.port = p) (free : q.blocked = false) (goes : q.paused = false)
    (empty : q.rHead = q.rTail) : exec (.frameReceive p l true b) s =
      .next ((s.portCount p fun x => { x with rx := x.rx + 1 }).portCount p fun x => { x with noBuf := x.noBuf + 1 }) := by
  have kept : ((s.portCount p fun x => { x with rx := x.rx + 1 }).port p).steered l (ethOf b) = some n := by
    rw [portCount_port_same]
    exact steered
  rw [frameReceive_good port link runs long short, pauses, role]
  simp only [Nat.reduceBEq, Bool.false_and, Bool.false_eq_true, if_false]
  rw [dispatch_steered plain kept qp raw here, frameFor_raw free goes raw, rawReceive_without_descriptor empty, here]

/-! ### Frames that leave (R360, R368) -/

theorem frameTransmitted_idle (port : p < 8) (link : l < 2) (idle : s.linkRuns p l = false) :
    exec (.frameTransmitted p l) s = .next s := by
  show execFrameTransmitted p l s = _
  simp only [execFrameTransmitted, onWf_true _ (port_wf port link), idle, Bool.not_false, if_true]

theorem nextFrame_of_empty (empty : (s.port p).txq = []) : s.nextFrame p l = none := by
  have none : s.candidates p l = [] := List.filterMap_eq_nil_iff.mpr fun q _ => by rw [empty]; rfl
  rw [State.nextFrame, none]
  rfl

/-- Of the eight classes one is a frame's own. -/
theorem class_once : ∀ c : BitVec 3, (List.range 8).filter (fun q => c == BitVec.ofNat 3 q) = [c.toNat] := by decide +kernel

/-- A frame of no queue pair that waits alone is the only candidate of its link, once its class's bucket has filled. -/
theorem candidates_of_one {f : TxFrame} (one : (s.port p).txq = [f]) (link : f.link = l) (own : f.qpn = none)
    (filled : frameBits f ≤ s.ceilNow p l f.cls) : s.candidates p l = [(f.cls, f)] := by
  have leaves : s.mayLeave l f = true := by simp [State.mayLeave, link, own]
  have cls : s.frameCls f = f.cls := by simp [State.frameCls, own]
  have each (q : Nat) : (([f].find? fun f => s.mayLeave l f && s.frameCls f == BitVec.ofNat 3 q).bind fun f =>
        if frameBits f ≤ s.ceilNow p l (BitVec.ofNat 3 q) then some ((BitVec.ofNat 3 q, f) : BitVec 3 × TxFrame) else none) =
      if f.cls == BitVec.ofNat 3 q then some (f.cls, f) else none := by
    by_cases same : f.cls = BitVec.ofNat 3 q
    · simp [leaves, cls, ← same, filled]
    · simp [cls, same]
  simp only [State.candidates, one, each]
  rw [← List.filterMap_filter, class_once]
  rfl

/-- The port behind a frame of class `c` that leaves on link `l`: what follows of its queue pair goes to the end, and the class
has spent its bits. -/
def Port.left (x : Port) (l : Nat) (c : BitVec 3) (f : TxFrame) (level now : Nat) : Port :=
  let again (g : TxFrame) : Bool := g.link == l && g.qpn.isSome && g.qpn == f.qpn
  let ds := (List.range 8).map fun q => tget x.deficit (8 * l + q) 0
  { x with
    txq := (x.txq.erase f).filter (fun g => !again g) ++ (x.txq.erase f).filter again, turn := tput x.turn l c.toNat,
    deficit := (List.range 8).foldl (fun t q => tput t (8 * l + q) (ds.getD q 0)) x.deficit,
    ceil := tput x.ceil (ethKey l c) (level - frameBits f, now) }

theorem nextFrame_of_one {f : TxFrame} (one : (s.port p).txq = [f]) (link : f.link = l) (own : f.qpn = none)
    (filled : frameBits f ≤ s.ceilNow p l f.cls) :
    s.nextFrame p l = some (f, s.setPort p ((s.port p).left l f.cls f (s.ceilNow p l f.cls) s.now)) := by
  rw [State.nextFrame, candidates_of_one one link own filled]
  rfl

theorem left_of_one {x : Port} {f : TxFrame} (c : BitVec 3) (level now : Nat) (one : x.txq = [f]) :
    (x.left l c f level now).txq = [] ∧ (x.left l c f level now).tx = x.tx := by simp [Port.left, one]

/-- A frame has left the PCS of a link, and the port counts it. -/
def State.frameSent (s : State) (p l : Nat) (f : TxFrame) : State :=
  { s.portCount p fun x => { x with tx := x.tx + 1 } with out := s.out ++ [.frame p l f.bytes] }

theorem frameSent_port (s : State) (p l : Nat) (f : TxFrame) :
    (s.frameSent p l f).port p = { s.port p with tx := (s.port p).tx + 1 } :=
  portCount_port_same s p fun x => { x with tx := x.tx + 1 }

/-- A frame that leaves where nothing is mirrored. -/
theorem frameTransmitted_one {f : TxFrame} (port : p < 8) (within : l < 2) (runs : s.linkRuns p l = true)
    (one : (s.port p).txq = [f]) (link : f.link = l) (own : f.qpn = none) (filled : frameBits f ≤ s.ceilNow p l f.cls)
    (unmirrored : s.mirror.slots = []) : ∃ t, exec (.frameTransmitted p l) s = .next t ∧
      t.out = s.out ++ [.frame p l f.bytes] ∧ (t.port p).txq = [] ∧ (t.port p).tx = (s.port p).tx + 1 := by
  obtain ⟨empty, same⟩ := left_of_one (l := l) f.cls (s.ceilNow p l f.cls) s.now one
  refine ⟨(s.setPort p ((s.port p).left l f.cls f (s.ceilNow p l f.cls) s.now)).frameSent p l f, ?_, rfl, ?_, ?_⟩
  · show execFrameTransmitted p l s = _
    simp only [execFrameTransmitted, onWf_true _ (port_wf port within), runs, nextFrame_of_one one link own filled, own]
    simp [State.heldLeft, State.frameSent, State.portCount, unmirrored]
  · rw [frameSent_port, setPort_port_same, empty]
  · rw [frameSent_port, setPort_port_same, same]

/-! ### Links (R354) -/

theorem linkStateChange_eq (up : Bool) (port : p < 8) (link : l < 2) : exec (.linkStateChange p l up) s =
    .next (if s.portRuns p && s.hasLink p l then s.portCount p fun x => { x with partner := setBit x.partner l up } else s) :=
  onWf_true _ (port_wf port link)

end

theorem ethernetFrames : Claims.EthernetFrames := by
  intro p l ok b s port link
  refine ⟨fun idle => ⟨frameReceive_idle ok port link idle, frameTransmitted_idle port link idle⟩, fun runs =>
    ⟨frameReceive_bad port link runs, fun long short mac op => ?pause, fun n q long short pauses role plain steered qp raw here
      free goes empty _ => ?noBuffer, fun none => ?nothing, fun f one own_link own filled unmirrored =>
      frameTransmitted_one port link runs one own_link own filled unmirrored⟩,
    fun on has => ?up, fun off => ?down⟩
  case pause =>
    have pauses : isPause b = true := by simpa [isPause, mac] using op
    rw [frameReceive_good port link runs long short, pauses]
    rfl
  case noBuffer =>
    refine ⟨_, frameReceive_without_descriptor port link runs long short pauses role plain steered qp raw here free goes empty,
      ?_, ?_, rfl, rfl⟩ <;> simp
  case nothing =>
    show execFrameTransmitted p l s = _
    simp [execFrameTransmitted, onWf_true _ (port_wf port link), runs, nextFrame_of_empty none]
  case up => simp [linkStateChange_eq ok port link, on, has]
  case down => simp [linkStateChange_eq ok port link, off]

/-! ### The management port (R372, R443, R471, R473, R474) -/

section
variable {b : List Byte} {s : State}

theorem mgmtFrameReceive_eq (up : s.steward = true) : exec (.mgmtFrameReceive b) s = .next (
    if s.board.clocks.contains 3 then s
    else if beAt b 12 2 == 0x0806 && (beAt b 0 6 == mgmtMac || beAt b 0 6 == 0xFFFFFFFFFFFF) then s.arp b
    else if beAt b 12 2 == 0x0800 && beAt b 0 6 == mgmtMac then s.mgmtIp b
    else s.dropFrame) := by
  show execMgmtFrameReceive b s = _
  simp only [execMgmtFrameReceive, up, Bool.not_true, Bool.false_or]

theorem brixmenRequest_eq {ip : BitVec 32} {port : Nat} (up : s.steward = true)
    (may : s.mayArrive (.brixmenRequest ip port b) = true) : exec (.brixmenRequest ip port b) s = .next (
      let t := s.arrive (.brixmenRequest ip port b)
      if b.length < 8 then { t with mgmt := t.mgmt.violation 1 }
      else if t.requestBad b != 0 then t.refuse ip port (leAt b 4 2) (ofBytes 64 ((b.drop 16).take 8)) (t.requestBad b)
      else t.acceptReq
        ⟨leAt b 4 2, leAt b 8 8, ofBytes 64 ((b.drop 16).take 8), (b.drop 24).take (leAt b 6 2), ip, port, none⟩
        (ofBytes 384 ((b.drop (24 + leAt b 6 2)).take 48))) := by
  have still : (s.arrive (.brixmenRequest ip port b)).steward = true := up
  show execBrixmenRequest ip port b s = _
  rw [execBrixmenRequest, onArrival_of_may _ rfl may, still]
  rfl

end

theorem managementPort : Claims.ManagementPort := by
  intro b ip port s up
  refine ⟨fun lost => ?_, fun clock other unicast => ?_, fun clock own ty => ?_, fun may => ?_⟩
  · rw [mgmtFrameReceive_eq up, if_pos lost]
  · simp only [mgmtFrameReceive_eq up, clock, beq_false_of_ne other, beq_false_of_ne unicast]
    simp only [Bool.or_self, Bool.and_false, Bool.false_eq_true, if_false]
    rfl
  · simp only [mgmtFrameReceive_eq up, clock, own, ty, beq_self_eq_true, Nat.reduceBEq, Bool.false_and, Bool.and_self,
      Bool.false_eq_true, if_false, if_true]
  · have answer := brixmenRequest_eq up may
    refine ⟨fun short => ?_, fun long bad => ?_, fun long good => ?_⟩
    · rw [answer, if_pos short]
      rfl
    · simpa only [Nat.not_lt.mpr long, if_false, bne_iff_ne.mpr bad, if_true] using answer
    · simpa only [Nat.not_lt.mpr long, if_false, good, bne_self_eq_false, Bool.false_eq_true] using answer

/-- Settles O47, from the Ethernet ports' frames and the management port's. -/
theorem portFrames : Obligations.PortFrames := ⟨ethernetFrames, managementPort⟩

end Sys2Proof.Machine
end

section
/-! SUPPORT. What a Brixmen command makes of the request at the front of the accepted ones: tables, package states, resets, registers, pairing, the persistent log, keys and addresses. -/

namespace Sys2Proof.Machine

/-! ### The request at the front of the accepted ones -/

section
variable {s : State} {r : MReq} {rest : List MReq} {b : List Byte}

theorem takeFirst_front {α : Type} {p : α → Bool} {a : α} (l : List α) (h : p a = true) :
    takeFirst p (a :: l) = some (a, l) := if_pos h

theorem takeOp_front {p : MReq → Bool} (front : s.mgmt.accepted = r :: rest) (h : p r = true)
    (f : State → MReq → State) : s.takeOp p f = f { s with mgmt := { s.mgmt with accepted := rest } } r := by
  rw [State.takeOp, front, takeFirst_front rest h]

/-- A command whose payload keeps its layout is performed. -/
theorem command_front {op : Nat} {ok : List Byte → Bool} (front : s.mgmt.accepted = r :: rest) (hop : r.op = op)
    (hok : ok r.payload = true) (f : State → MReq → State) :
    s.command op ok f = f { s with mgmt := { s.mgmt with accepted := rest } } r := by
  rw [State.command, takeOp_front (p := fun r => r.op == op) front (beq_iff_eq.mpr hop)]
  exact if_pos hok

/-- A reset whose payload keeps its layout is performed by the command of its class. -/
theorem resetOp_front {cls : Nat} (front : s.mgmt.accepted = r :: rest) (hop : r.op = 0x106)
    (len : r.payload.length = 8) (z1 : zeroBytes r.payload 1 1 = true) (z4 : zeroBytes r.payload 4 4 = true)
    (hcls : leAt r.payload 0 1 = cls) (lo : 1 ≤ cls) (hi : cls ≤ 4) (f : State → Nat → State) :
    s.resetOp cls f = f { s with mgmt := { s.mgmt with accepted := rest } } (leAt r.payload 2 2) := by
  simp only [State.resetOp]
  rw [takeOp_front front]
  all_goals simp [hop, len, z1, z4, hcls, lo, hi]

/-! ### Tables and package states -/

/-- A request that does not go to the head of the queue takes its last place, while there is one. -/
theorem queueReq_of_room {q : SeqReq} (low : headPurpose q.purpose = false) (room : s.seq.queue.length < s.queueLimit) :
    s.queueReq q = ({ s with seq := { s.seq with queue := s.seq.queue ++ [q] } } : State).send
      (.seqTableRequest q.purpose q.param) := by
  simp [State.queueReq, State.seqAsk, low, room]

theorem headPurpose_eq_false {p : Nat} (h : 0x10 ≤ p) : headPurpose p = false := by
  simp [headPurpose]
  omega

theorem runTable_cases (front : s.mgmt.accepted = r :: rest) (hop : r.op = 0x104) (len : r.payload.length = 8)
    (z1 : zeroBytes r.payload 1 1 = true) (z4 : zeroBytes r.payload 4 4 = true) :
    let t : State := { s with mgmt := { s.mgmt with accepted := rest } }
    let b := r.payload
    (s.asleepPkg = true → exec .runTable s = .next (t.cmdFail codeNotPermitted 0)) ∧
    (s.asleepPkg = false → leAt b 0 1 < 0x10 ∨ 0x3F < leAt b 0 1 → exec .runTable s = .next (t.cmdFail codeFieldInvalid 0)) ∧
    (∀ im i, s.asleepPkg = false → 0x10 ≤ leAt b 0 1 → leAt b 0 1 ≤ 0x3F → s.seq.active = some im →
      im.tableOf (leAt b 0 1) = some i → s.seq.queue.length < s.queueLimit → exec .runTable s = .next
        (({ t with seq := { s.seq with queue := s.seq.queue ++ [⟨leAt b 0 1, leAt b 2 2, 2⟩] } } : State).send
          (.seqTableRequest (leAt b 0 1) (leAt b 2 2)))) := by
  intro t b
  have run : exec .runTable s = .next (if s.asleepPkg then t.cmdFail codeNotPermitted 0
      else if !(decide (0x10 ≤ leAt b 0 1 ∧ leAt b 0 1 ≤ 0x3F) && s.seq.active.any fun im => (im.tableOf (leAt b 0 1)).isSome)
        then t.cmdFail codeFieldInvalid 0 else t.queueReq ⟨leAt b 0 1, leAt b 2 2, 2⟩) := by
    show execRunTable s = _
    rw [execRunTable, command_front front hop (by simp [len, z1, z4])]
    rfl
  rw [run]
  refine ⟨fun asleep => by rw [if_pos asleep], fun awake outside => ?_, fun im i awake lo hi active found room => ?_⟩
  · have : ¬ (0x10 ≤ leAt b 0 1 ∧ leAt b 0 1 ≤ 0x3F) := by omega
    simp [awake, this]
  · rw [← queueReq_of_room (s := t) (headPurpose_eq_false lo) room]
    simp [awake, lo, hi, active, found]

theorem setPkgState_cases (front : s.mgmt.accepted = r :: rest) (hop : r.op = 0x105) (len : r.payload.length = 8)
    (z : zeroBytes r.payload 1 7 = true) :
    let t : State := { s with mgmt := { s.mgmt with accepted := rest } }
    let b := r.payload
    (s.pkgBusy = true → exec .setPkgState s = .next (t.cmdFail codePkgStateInvalid 0)) ∧
    (s.pkgBusy = false → leAt b 0 1 < 2 ∨ 3 < leAt b 0 1 → exec .setPkgState s = .next (t.cmdFail codeFieldInvalid 0)) ∧
    (s.pkgBusy = false → leAt b 0 1 = 2 ∨ leAt b 0 1 = 3 → exec .setPkgState s = .next (t.pkgEnter (leAt b 0 1) 2)) := by
  intro t b
  have run : exec .setPkgState s = .next (if s.pkgBusy then t.cmdFail codePkgStateInvalid 0
      else if leAt b 0 1 != 2 && leAt b 0 1 != 3 then t.cmdFail codeFieldInvalid 0 else t.pkgEnter (leAt b 0 1) 2) := by
    show execSetPkgState s = _
    rw [execSetPkgState, command_front front hop (by simp [len, z])]
    rfl
  rw [run]
  refine ⟨fun busy => by rw [if_pos busy], fun quiet outside => ?_, fun quiet state => ?_⟩
  · have : leAt b 0 1 ≠ 2 ∧ leAt b 0 1 ≠ 3 := by omega
    simp [quiet, this]
  · obtain state | state := state <;> simp [quiet, state]

/-! ### Resets -/

theorem resetFull_cases (front : s.mgmt.accepted = r :: rest) (hop : r.op = 0x106) (len : r.payload.length = 8)
    (z1 : zeroBytes r.payload 1 1 = true) (z4 : zeroBytes r.payload 4 4 = true) (cls : leAt r.payload 0 1 = 1) :
    let t : State := { s with mgmt := { s.mgmt with accepted := rest } }
    (s.seq.active = none → exec .resetFull s = .next (t.cmdFail codeNotPermitted 0)) ∧
    (s.seq.active.isSome = true → exec .resetFull s = .next (t.send (.fullReset 2))) := by
  intro t
  have run : exec .resetFull s =
      .next (if s.seq.active.isNone then t.cmdFail codeNotPermitted 0 else t.send (.fullReset 2)) := by
    show execResetFull s = _
    rw [execResetFull, resetOp_front front hop len z1 z4 cls le_rfl (by omega)]
  rw [run]
  refine ⟨fun none => by simp [none], fun some => ?_⟩
  rw [if_neg (by simp [Option.isSome_iff_ne_none.mp some])]

/-- A reset of a compute die or of a core: not permitted, refused, or begun. -/
theorem brixReset_cases (t : State) (cls i : Nat) :
    (t.asleepPkg = true → t.brixReset cls i = t.cmdFail codeNotPermitted 0) ∧
    (t.asleepPkg = false → t.resetRefusal cls i ≠ 0 → t.brixReset cls i = t.cmdFail (t.resetRefusal cls i) 0) ∧
    (t.asleepPkg = false → t.resetRefusal cls i = 0 → t.brixReset cls i = t.startReset cls i 2) := by
  refine ⟨fun asleep => if_pos asleep, fun awake refused => ?_, fun awake free => ?_⟩
  · simp [State.brixReset, awake, refused]
  · simp [State.brixReset, awake, free]

theorem resetComputeDie_front (front : s.mgmt.accepted = r :: rest) (hop : r.op = 0x106) (len : r.payload.length = 8)
    (z1 : zeroBytes r.payload 1 1 = true) (z4 : zeroBytes r.payload 4 4 = true) (cls : leAt r.payload 0 1 = 2) :
    exec .resetComputeDie s =
      .next (({ s with mgmt := { s.mgmt with accepted := rest } } : State).brixReset 2 (leAt r.payload 2 2)) := by
  show execResetComputeDie s = _
  rw [execResetComputeDie, resetOp_front front hop len z1 z4 cls (by omega) (by omega)]

theorem resetCore_front (front : s.mgmt.accepted = r :: rest) (hop : r.op = 0x106) (len : r.payload.length = 8)
    (z1 : zeroBytes r.payload 1 1 = true) (z4 : zeroBytes r.payload 4 4 = true) (cls : leAt r.payload 0 1 = 3) :
    exec .resetCore s =
      .next (({ s with mgmt := { s.mgmt with accepted := rest } } : State).brixReset 3 (leAt r.payload 2 2)) := by
  show execResetCore s = _
  rw [execResetCore, resetOp_front front hop len z1 z4 cls (by omega) (by omega)]

/-- A record for the persistent log changes the fault collector only. -/
theorem plogWrite_keeps (x : BitVec 128) : ∃ f, s.plogWrite x = { s with fc := f } := by
  rw [State.plogWrite]
  split <;> exact ⟨_, rfl⟩

/-- Cold reset: no core, queue pair or image; the management key stays. -/
theorem enterCold_units : (s.enterCold).board.cold = true ∧ (s.enterCold).cores = [] ∧ (s.enterCold).qps = [] ∧
    (s.enterCold).mgmt.key = s.mgmt.key ∧ (s.enterCold).seq.active = none := by
  obtain ⟨f, logged⟩ := plogWrite_keeps (s := s.coldUnits) (faultRecord (srcCode 0 0 2) 0 none 0 false 0 0)
  cases h : s.board.logged <;> simp only [State.enterCold, h, logged] <;> exact ⟨rfl, rfl, rfl, rfl, rfl⟩

theorem resetCold_front (front : s.mgmt.accepted = r :: rest) (hop : r.op = 0x106) (len : r.payload.length = 8)
    (z1 : zeroBytes r.payload 1 1 = true) (z4 : zeroBytes r.payload 4 4 = true) (cls : leAt r.payload 0 1 = 4) :
    exec .resetCold s = .next ({ s with mgmt := { s.mgmt with accepted := rest } } : State).enterCold := by
  show execResetCold s = _
  rw [execResetCold, resetOp_front front hop len z1 z4 cls (by omega) le_rfl]

/-! ### Registers -/

/-- What WRITE_REG does once its request has been taken. -/
theorem writeReg_front (front : s.mgmt.accepted = r :: rest) (hop : r.op = 0x107) (len : r.payload.length = 16) :
    let t : State := { s with mgmt := { s.mgmt with accepted := rest } }
    let pa := leAt r.payload 0 8
    let v : Word := ofBytes 64 ((r.payload.drop 8).take 8)
    exec .writeReg s = .next (
      if t.asleepPkg && !alwaysReg pa then t.cmdFail codeNotPermitted 0
      else if pa % 8 != 0 then t.cmdFail codeAlign 0
      else if isDevice pa && !isGuestWindow pa then
        match t.stewardReg r pa (some v) with
        | (some (e, _), _, t) =>
          if e == 0 then t.cmdDone 0 else (t.fault (srcCode 0 0 0) 0x22 none pa).cmdFail 0x183 e
        | (none, since, t) => { t with mgmt := { t.mgmt with accepted := { r with since := since } :: rest } }
      else t.startWrite stewardNode 0 0 .mgmt [(pa, toBytes v 8)]) := by
  intro t pa v
  have : takeFirst (fun r : MReq => r.op == 0x107) s.mgmt.accepted = some (r, rest) := by
    rw [front]
    exact takeFirst_front (p := fun r : MReq => r.op == 0x107) rest (beq_iff_eq.mpr hop)
  show execWriteReg s = _
  rw [execWriteReg, this]
  simp only [len, bne_self_eq_false, Bool.false_eq_true, if_false]
  rfl

theorem writeReg_cases (front : s.mgmt.accepted = r :: rest) (hop : r.op = 0x107) (len : r.payload.length = 16) :
    let t : State := { s with mgmt := { s.mgmt with accepted := rest } }
    let b := r.payload
    let pa := leAt b 0 8
    (s.asleepPkg = true → alwaysReg pa = false → exec .writeReg s = .next (t.cmdFail codeNotPermitted 0)) ∧
    (s.asleepPkg = false → pa % 8 ≠ 0 → exec .writeReg s = .next (t.cmdFail codeAlign 0)) ∧
    (s.asleepPkg = false → pa % 8 = 0 → isDevice pa = false ∨ isGuestWindow pa = true → exec .writeReg s = .next
      (t.startWrite stewardNode 0 0 .mgmt [(pa, toBytes (ofBytes 64 ((b.drop 8).take 8)) 8)])) ∧
    (s.asleepPkg = false → pa % 8 = 0 → isDevice pa = true → isGuestWindow pa = false →
      (∀ e v a u, t.stewardReg r pa (some (ofBytes 64 ((b.drop 8).take 8))) = (some (e, v), a, u) →
        (e = 0 → exec .writeReg s = .next (u.cmdDone 0)) ∧
        (e ≠ 0 → exec .writeReg s = .next ((u.fault (srcCode 0 0 0) 0x22 none pa).cmdFail 0x183 e))) ∧
      ∀ a u, t.stewardReg r pa (some (ofBytes 64 ((b.drop 8).take 8))) = (none, a, u) → exec .writeReg s = .next
        { u with mgmt := { u.mgmt with accepted := { r with since := a } :: rest } }) := by
  intro t b pa
  have same : t.asleepPkg = s.asleepPkg := rfl
  rw [writeReg_front front hop len, ← same]
  refine ⟨fun asleep no => ?_, fun awake skew => ?_, fun awake even mem => ?_, fun awake even dev win =>
    ⟨fun e v a u h => ⟨fun good => ?_, fun bad => ?_⟩, fun a u h => ?_⟩⟩
  · exact congrArg _ (if_pos (by rw [asleep, no]; rfl))
  · simp only [t, b, pa] at *
    simp [awake, skew]
  · simp only [t, b, pa] at *
    obtain mem | mem := mem <;> simp [awake, even, mem]
  all_goals simp only [t, b, pa] at *
  · simp [awake, even, dev, win, h, good]
  · simp [awake, even, dev, win, h, bad]
  · simp [awake, even, dev, win, h]

theorem packageCommands : Claims.PackageCommands := by
  intro r rest s front t b
  refine ⟨runTable_cases front, setPkgState_cases front, fun hop len z1 z4 => ⟨?_, ?_, ?_, ?_, ?_⟩, writeReg_cases front⟩
  · exact fun cls => (resetFull_cases front hop len z1 z4 cls).1
  · exact fun cls => (resetFull_cases front hop len z1 z4 cls).2
  · intro cls
    rw [resetComputeDie_front front hop len z1 z4 cls]
    obtain ⟨asleep, refused, free⟩ := brixReset_cases t 2 (leAt b 2 2)
    exact ⟨fun h => congrArg _ (asleep h), fun h g => congrArg _ (refused h g), fun h g => congrArg _ (free h g)⟩
  · intro cls
    rw [resetCore_front front hop len z1 z4 cls]
    obtain ⟨asleep, refused, free⟩ := brixReset_cases t 3 (leAt b 2 2)
    exact ⟨fun h => congrArg _ (asleep h), fun h g => congrArg _ (refused h g), fun h g => congrArg _ (free h g)⟩
  · exact fun cls => ⟨_, resetCold_front front hop len z1 z4 cls, enterCold_units⟩

/-! ### Pairing, the log, keys and addresses -/

theorem clearPairing_of_unpaired (unpaired : s.mirror.st ≠ 2) : s.clearPairing = s.modMirror fun g => { g with
    st := 0, did := 0, partner := 0, gen := 0, byLoss := false, mac := [], heard := [] } := by
  simp [State.clearPairing, unpaired]

theorem setPairing_of_unpaired (unpaired : s.mirror.st ≠ 2) (did partner : BitVec 12) (gen : BitVec 16) :
    s.setPairing did partner gen = s.modMirror fun g => { g with
      st := 1, did := did, partner := partner, gen := gen, byLoss := false, mac := [], heard := [] } := by
  simp [State.setPairing, unpaired]

theorem setPairing_cases (front : s.mgmt.accepted = r :: rest) (hop : r.op = 0x10A) (len : r.payload.length = 8)
    (z : zeroBytes r.payload 7 1 = true) (unpaired : s.mirror.st ≠ 2) :
    let t : State := { s with mgmt := { s.mgmt with accepted := rest } }
    let b := r.payload
    (leAt b 6 1 = 1 → exec .setPairing s = .next ((t.modMirror fun g => { g with
      st := 0, did := 0, partner := 0, gen := 0, byLoss := false, mac := [], heard := [] }).cmdDone 0)) ∧
    (leAt b 6 1 = 0 → leAt b 0 2 = leAt b 2 2 ∨ 0xFFF < leAt b 0 2 ∨ 0xFFF < leAt b 2 2 →
      exec .setPairing s = .next (t.cmdFail codeFieldInvalid 0)) ∧
    (leAt b 6 1 = 0 → leAt b 0 2 ≠ leAt b 2 2 → leAt b 0 2 ≤ 0xFFF → leAt b 2 2 ≤ 0xFFF → exec .setPairing s =
      .next ((t.modMirror fun g => { g with
        st := 1, did := BitVec.ofNat 12 (leAt b 0 2), partner := BitVec.ofNat 12 (leAt b 2 2),
        gen := BitVec.ofNat 16 (leAt b 4 2), byLoss := false, mac := [], heard := [] }).cmdDone 0)) := by
  intro t b
  have run (small : leAt b 6 1 ≤ 1) : exec .setPairing s = .next (
      if leAt b 6 1 == 1 then t.clearPairing.cmdDone 0
      else if leAt b 0 2 == leAt b 2 2 || 0xFFF < leAt b 0 2 || 0xFFF < leAt b 2 2 then t.cmdFail codeFieldInvalid 0
      else (t.setPairing (BitVec.ofNat 12 (leAt b 0 2)) (BitVec.ofNat 12 (leAt b 2 2))
        (BitVec.ofNat 16 (leAt b 4 2))).cmdDone 0) := by
    show execSetPairing s = _
    rw [execSetPairing, command_front front hop (by simp [len, z]; exact small)]
  refine ⟨fun clear => ?_, fun set bad => ?_, fun set differ lo hi => ?_⟩
  · rw [run (by omega), clearPairing_of_unpaired (s := t) unpaired, if_pos (beq_iff_eq.mpr clear)]
  · rw [run (by omega), if_neg (by simp [set]), if_pos (by simpa [or_assoc] using bad)]
  · rw [run (by omega), if_neg (by simp [set]), if_neg (by simp [differ, lo, hi]), setPairing_of_unpaired (s := t) unpaired]

theorem plogAck_cases {k : Nat} {e : PSlot} (front : s.mgmt.accepted = r :: rest) (hop : r.op = 0x10B)
    (len : r.payload.length = 40) (z : zeroBytes r.payload 33 7 = true) (log : s.fc.plog = [(k, e)]) :
    let t : State := { s with mgmt := { s.mgmt with accepted := rest } }
    let b := r.payload
    (leAt b 32 1 = 0 → (ofBytes 256 (b.take 32) : BitVec 256).getLsbD k = true → e.acked = false → exec .plogAck s =
      .next (({ t with fc := { s.fc with plog := [(k, { e with acked := true })] } } : State).cmdDone 1)) ∧
    (leAt b 32 1 = 0 → (ofBytes 256 (b.take 32) : BitVec 256).getLsbD k = false → exec .plogAck s = .next (t.cmdDone 0)) ∧
    (leAt b 32 1 = 1 → e.acked = true → exec .plogAck s =
      .next (({ t with fc := { s.fc with plog := [] } } : State).cmdDone 0)) := by
  intro t b
  have run (small : leAt b 32 1 ≤ 1) : exec .plogAck s = .next (
      let marks : BitVec 256 := ofBytes 256 (b.take 32)
      let new := ([(k, e)].filter fun e => marks.getLsbD e.1 && !e.2.acked).length
      let log := [(k, e)].map fun e => if marks.getLsbD e.1 then (e.1, { e.2 with acked := true }) else e
      let log := if leAt b 32 1 == 1 then log.filter fun e => !e.2.acked else log
      ({ t with fc := { s.fc with plog := log } } : State).cmdDone new) := by
    show execPlogAck s = _
    rw [execPlogAck, command_front front hop (by simp [len, z]; exact small), ← log]
  refine ⟨fun keep marked new => ?_, fun keep clear => ?_, fun clear acked => ?_⟩
  · rw [run (by omega)]
    simp [marked, new, keep]
  · rw [run (by omega)]
    have same : ({ t with fc := { s.fc with plog := [(k, e)] } } : State) = t := by rw [← log]
    simp [clear, keep, same]
  · rw [run (by omega)]
    cases h : (ofBytes 256 (b.take 32) : BitVec 256).getLsbD k <;> simp [h, clear, acked]

theorem setMkey_front (front : s.mgmt.accepted = r :: rest) (hop : r.op = 0x10C) (len : r.payload.length = 48) :
    let t : State := { s with mgmt := { s.mgmt with accepted := rest } }
    exec .setMkey s = .next (({ t with mgmt := { t.mgmt with
      key := some (ofBytes 384 (List.zipWith (· ^^^ ·) r.payload (hmac384 s.mkey
        ([0x42, 0x52, 0x49, 0x58, 0x4D, 0x45, 0x4E, 0x2D, 0x52, 0x45, 0x4B, 0x45, 0x59] ++ leBytes 8 r.stamp)))) } } :
        State).cmdDone 0) := by
  show execSetMkey s = _
  rw [execSetMkey, command_front front hop (by simp [len])]
  rfl

theorem subscribe_front (front : s.mgmt.accepted = r :: rest) (hop : r.op = 0x10D) (len : r.payload.length = 8)
    (z : zeroBytes r.payload 6 2 = true) :
    let t : State := { s with mgmt := { s.mgmt with accepted := rest } }
    exec .subscribe s = .next (({ t with mgmt := { t.mgmt with
      dest := (BitVec.ofNat 32 (leAt r.payload 0 4), leAt r.payload 4 2) } } : State).cmdDone 0) := by
  show execSubscribe s = _
  rw [execSubscribe, command_front front hop (by simp [len, z])]

theorem setNet_front (front : s.mgmt.accepted = r :: rest) (hop : r.op = 0x10E) (len : r.payload.length = 8)
    (z : zeroBytes r.payload 5 3 = true) (lo : 8 ≤ leAt r.payload 4 1) (hi : leAt r.payload 4 1 ≤ 30) :
    let t : State := { s with mgmt := { s.mgmt with accepted := rest } }
    exec .setNet s = .next (({ t with mgmt := { t.mgmt with
      ip := BitVec.ofNat 32 (leAt r.payload 0 4), plen := leAt r.payload 4 1 } } : State).cmdDone 0) := by
  show execSetNet s = _
  rw [execSetNet, command_front front hop (by simp [len, z, lo, hi])]

theorem boardCommands : Claims.BoardCommands := by
  intro r rest s front t b
  exact ⟨setPairing_cases front, fun k e hop len z log _ => plogAck_cases front hop len z log, setMkey_front front,
    subscribe_front front, setNet_front front⟩
end

/-- Settles O57, command by command: each takes the request at the front, and its cases follow from its checks. -/
theorem packageAndBoard : Obligations.PackageAndBoard := ⟨packageCommands, boardCommands⟩

end Sys2Proof.Machine
end

section
/-! SUPPORT. What storing a fault message leaves as it was, and the reactions below level 3, fences, acknowledgement and reference clocks (R436-R439, R441-R443). -/

namespace Sys2Proof.Machine

/-! ### What a stored message leaves as it was (R437) -/

section
variable {s : State}

/-- An event for the management host changes the management port and what leaves only. -/
theorem sendEvent_keeps (op : Nat) (payload : List Byte) :
    ∃ m o, s.sendEvent op payload = { s with mgmt := m, out := o } := by
  rw [State.sendEvent]
  split
  · exact ⟨_, _, rfl⟩
  · simp only
    split <;> exact ⟨_, _, rfl⟩

/-- The persistent log's record leaves the ring of messages and the acknowledgement alone. -/
theorem plogWrite_log (x : BitVec 128) : ∃ f, s.plogWrite x = { s with fc := f } ∧ f.last = s.fc.last ∧
    f.acked = s.fc.acked ∧ f.log = s.fc.log := by
  rw [State.plogWrite]
  split <;> exact ⟨_, rfl, rfl, rfl, rfl⟩

/-- A record's event, and its copy in the persistent log, leave the ring of messages and the acknowledgement alone. -/
theorem recorded_keeps (level op : Nat) (payload : List Byte) (x : BitVec 128) :
    ∃ f m o, (if 2 ≤ level then (s.sendEvent op payload).plogWrite x else s.sendEvent op payload) =
      { s with fc := f, mgmt := m, out := o } ∧ f.last = s.fc.last ∧ f.acked = s.fc.acked ∧ f.log = s.fc.log := by
  obtain ⟨m, o, sent⟩ := sendEvent_keeps (s := s) op payload
  rw [sent]
  split
  · obtain ⟨f, logged, last, acked, log⟩ := plogWrite_log (s := { s with mgmt := m, out := o }) x
    exact ⟨f, m, o, logged, last, acked, log⟩
  · exact ⟨s.fc, m, o, rfl, rfl, rfl, rfl⟩

variable (src : BitVec 16) (kind : BitVec 8) (tid : Option (BitVec 12)) (a : Nat)

/-- The newest message of the pair is unacknowledged. -/
def State.escalates (s : State) (src : BitVec 16) (kind : BitVec 8) : Bool :=
  decide (s.fc.acked < tget s.fc.newest (16 * src.toNat + kind.toNat / 16) 0)

/-- The level that storing a message computes. -/
def State.levelOf (s : State) (src : BitVec 16) (kind : BitVec 8) : Nat :=
  if s.escalates src kind then min 5 (s.severity src kind + 1) else s.severity src kind

theorem storeFault_level : (s.storeFault src kind tid a).1 = s.levelOf src kind := rfl

/-- Storing a message writes its record and changes the collector, the management port and what leaves only. -/
theorem storeFault_keeps : ∃ f m o, (s.storeFault src kind tid a).2 = { s with fc := f, mgmt := m, out := o } ∧
    f.last = s.fc.last + 1 ∧ f.acked = s.fc.acked ∧ tfind? f.log ((s.fc.last + 1) % 1024) =
      some (faultRecord src kind tid (s.levelOf src kind) (s.escalates src kind) a (s.fc.last + 1)) := by
  let n := s.fc.last + 1
  let level := s.levelOf src kind
  let x := faultRecord src kind tid level (s.escalates src kind) a n
  obtain ⟨f, m, o, h, last, acked, log⟩ := recorded_keeps (s := { s with fc := { s.fc with
      last := n, log := tput s.fc.log (n % 1024) x, newest := tput s.fc.newest (16 * src.toNat + kind.toNat / 16) n,
      overwritten := if (match tfind? s.fc.log (n % 1024) with
        | some old => decide (s.fc.acked < fld old 0 32)
        | none => false) == true then satInc 32 s.fc.overwritten else s.fc.overwritten,
      noted := if 1 ≤ level then n else s.fc.noted } }) level 2 (toBytes x 16) x
  exact ⟨f, m, o, h, last, acked, (congrArg (tfind? · _) log).trans (tfind_tput_same _ _ _)⟩

theorem storeFault_seq : (s.storeFault src kind tid a).2.seq = s.seq := by
  obtain ⟨f, m, o, h, -⟩ := storeFault_keeps src kind tid a
  rw [h]

/-- The unit a source names depends on the active image only. -/
theorem fenceOf_congr {t : State} (h : t.seq = s.seq) : t.fenceOf src = s.fenceOf src := by
  simp only [State.fenceOf, State.coreOfTile, State.tileOf, State.img, h]

/-! ### The reaction to a message below level 3 (R438, R439, R445) -/

theorem react_below {level seq : Nat} (low : level < 2) : s.react level src tid seq = s.notifyCores := by
  simp only [State.react]
  cases tid <;> simp [show level ≠ 2 by omega, show level ≠ 3 by omega, show level ≠ 4 by omega, show level ≠ 5 by omega,
    show ¬ 3 ≤ level by omega]

/-- Level 2 fences the unit a source names, unless the source lies on a base die. -/
theorem react_two {seq u : Nat} (cls : fld src 12 4 ≠ 1) (unit : s.fenceOf src = some u) :
    s.react 2 src tid seq = (s.fenceUnit u).notifyCores := by
  simp only [State.react]
  cases tid <;> simp [State.fenceSource, cls, unit]

/-- A message that reports no lost die or link is stored and reacted to. -/
theorem faultMessage_runs (may : s.mayArrive (.faultMessage src kind tid a) = true) (active : s.seq.active.isSome = true)
    (die : kind ≠ 0x81) (link : kind ≠ 0x25) :
    let r := (s.arrive (.faultMessage src kind tid a)).storeFault src kind tid a
    exec (.faultMessage src kind tid a) s =
      .next (r.2.react r.1 (if kind == 0x27 then BitVec.ofNat 16 a else src) tid r.2.fc.last) := by
  intro r
  have still : r.2.seq.active.isNone = false := by
    rw [show r.2.seq = s.seq from storeFault_seq src kind tid a]
    simpa using active
  have noDie : (kind == 0x81) = false := beq_eq_false_iff_ne.mpr die
  have noLink : (kind == 0x25) = false := beq_eq_false_iff_ne.mpr link
  show execFaultMessage src kind tid a s = _
  rw [execFaultMessage, onArrival_of_may _ rfl may]
  simp only [still, noDie, noLink, r, Bool.false_eq_true, if_false]

theorem faultRecords : Claims.FaultRecords := by
  intro src kind tid a s m may r sev esc
  obtain ⟨f, g, o, stored, last, acked, log⟩ := storeFault_keeps (s := s.arrive m) src kind tid a
  have seq : r.2.seq = s.seq := storeFault_seq src kind tid a
  refine ⟨rfl, ?_, ?_, ?_, ?_, ?_, ?_, fun none => ?_, fun active low die link => ?_,
    fun u active two die link starved cls unit => ?_⟩
  · exact (congrArg (·.fc.last) stored).trans last
  · exact (congrArg (·.fc.acked) stored).trans acked
  · exact (congrArg (tfind? ·.fc.log _) stored).trans log
  · exact congrArg (·.cores) stored
  · exact congrArg (·.hier) stored
  · exact congrArg (·.fenced) stored
  · have still : r.2.seq.active.isNone = true := by rw [seq, none]; rfl
    show execFaultMessage src kind tid a s = _
    rw [execFaultMessage, onArrival_of_may _ rfl may]
    exact congrArg _ (if_pos still)
  · rw [faultMessage_runs src kind tid a may active die link, react_below _ _ low]
  · rw [faultMessage_runs src kind tid a may active die link, if_neg (by simpa using starved)]
    show _ = Host.Outcome.next (r.2.fenceUnit u).notifyCores
    rw [← react_two src tid (seq := r.2.fc.last) cls ((fenceOf_congr src seq).trans unit), ← two]
end

/-! ### Fences, acknowledgement and reference clocks (R441–R443) -/

section
variable {s : State}

@[simp] theorem State.reserved_fc (s : State) (blk : Nat) (used v : Word) : (s.reserved blk used v).fc = s.fc := by
  rcases s.reserved_cases blk used v with h | h <;> simp [h]

theorem fenceOk_of_core {u : Nat} (core : u < 576) : fenceOk u = true := by
  simp [fenceOk]
  omega

theorem fenceComplete_of_settled {u : Nat} (wf : fenceOk u = true) (h : s.isFenced u = false ∨ s.fc.done.contains u = true) :
    exec (.fenceComplete u) s = .next s := by
  show execFenceComplete u s = _
  rw [execFenceComplete, onWf_true _ wf]
  exact congrArg _ (if_pos (by obtain h | h := h <;> rw [h] <;> simp))

/-- A core's fence is done when its domain is off. -/
theorem fenceComplete_of_core {u : Nat} (core : u < 576) (fenced : s.isFenced u = true)
    (new : s.fc.done.contains u = false) : exec (.fenceComplete u) s = .next
      (if (s.dom u).st = .off then { s with fc := { s.fc with done := s.fc.done ++ [u] } } else s) := by
  have slice : ¬ (1000 ≤ u ∧ u < 1384) := by omega
  have die : ¬ (1410 ≤ u ∧ u < 1422) := by omega
  have absent : u ∉ s.fc.done := by simpa using new
  show execFenceComplete u s = _
  rw [execFenceComplete, onWf_true _ (fenceOk_of_core core)]
  simp [fenced, absent, slice, die, core, State.fenceDone, insertNew]

theorem fcAckedWrite_cases (v : Word) (on : s.hubOn = true) :
    let s0 := s.reserved collectorBlock (maskBits 31 0) v
    (fld v 0 32 < s.fc.acked → exec (.fcAckedWrite v) s = .next (s0.violate collectorBlock)) ∧
    (s.fc.acked ≤ fld v 0 32 → exec (.fcAckedWrite v) s =
      .next (({ s0 with fc := { s0.fc with acked := fld v 0 32 } } : State).notifyCores)) := by
  intro s0
  have run : exec (.fcAckedWrite v) s = .next (s0.fcAck v) := by
    show execFcAckedWrite v s = _
    rw [execFcAckedWrite, if_pos on]
  have same : s0.fc = s.fc := s.reserved_fc _ _ _
  rw [run, State.fcAck, same]
  exact ⟨fun below => congrArg _ (if_pos below), fun above => congrArg _ (if_neg (by omega))⟩

theorem loseBase_of_present {n : Nat} (new : s.fc.lost.contains n = false) :
    s.loseBase n = s.fault (srcCode 1 n 0x60) 0x81 none n := if_neg (by simpa using new)

/-- The fields of a base-die agent's code. -/
theorem base_agent_fields {n : Nat} (h : n < 4) :
    (fld (srcCode 1 n 0x60) 12 4 == 1 && fld (srcCode 1 n 0x60) 0 8 == 0x60) = true ∧
      fld (srcCode 1 n 0x60) 8 4 % 4 = n := by
  interval_cases n <;> decide

theorem referenceClockLost_new {i : Nat} (h : i < 4) (other : i ≠ 1) (new : s.board.clocks.contains i = false) :
    exec (.referenceClockLost i) s =
      .next (({ s with board := { s.board with clocks := s.board.clocks ++ [i] } } : State).fault (islandSrc i) 0x74 none i) := by
  show execReferenceClockLost i s = _
  rw [execReferenceClockLost, onWf_true _ (masterOk_of_lt h), if_neg (by simpa using new)]
  simp [other]

theorem fencesAndAcknowledgement : Claims.FencesAndAcknowledgement := by
  intro s
  refine ⟨fun _ => fenceComplete_of_settled, fun _ => fenceComplete_of_core, fun v on => fcAckedWrite_cases v on,
    fun v off => ?_, fun a b cls => ?_, fun n a h new => ?_, fun i h known => ?_,
    fun _ => referenceClockLost_new, fun i h => onWf_true _ (masterOk_of_lt h)⟩
  · show execFcAckedWrite v s = _
    rw [execFcAckedWrite, if_neg (by simp [off])]
  · exact congrArg _ (if_neg (by simp [cls]))
  · obtain ⟨agent, die⟩ := base_agent_fields h
    show execAcknowledgeStarvation a _ s = _
    rw [execAcknowledgeStarvation, if_pos agent, die, loseBase_of_present new]
  · show execReferenceClockLost i s = _
    rw [execReferenceClockLost, onWf_true _ (masterOk_of_lt h), if_pos known]
end

/-- Settles O42: storing a message is separate from the reaction, which is decided by the level that storing computes. -/
theorem faultHandling : Obligations.FaultHandling := ⟨faultRecords, fencesAndAcknowledgement⟩

end Sys2Proof.Machine
end

section
/-! SUPPORT. Deliveries at a core's door, messages at the router, the notices of a quiesce, and writes of TE_CTL (R312, R318-R322, R331-R333, R369, R459). -/

namespace Sys2Proof.Machine

/-! ### A delivery at a core and at its door (R318, R319) -/

section
variable {s : State} {c : Nat} {t : BitVec 12} {v : BitVec 9}

/-- A delivery that may arrive is met by the core or its door. -/
theorem interruptDelivery_runs (core : c < 576) (may : s.mayArrive (.interruptDelivery c t v) = true) :
    exec (.interruptDelivery c t v) s = .next ((s.arrive (.interruptDelivery c t v)).deliver c t v) := by
  show execInterruptDelivery c t v s = _
  rw [execInterruptDelivery, onArrival_of_may _ (coreOk_of_lt core) may]

/-- A core that is fenced, not enabled or off returns the delivery. -/
theorem deliver_of_gone (gone : s.unitFenced c = true ∨ s.coreEnabled c = false ∨ (s.dom c).st = .off) :
    s.deliver c t v = s.returnDelivery t v := if_pos (by obtain h | h | h := gone <;> simp [h])

section
variable (free : s.unitFenced c = false) (en : s.coreEnabled c = true)
include free en

theorem deliver_of_running (run : (s.dom c).st = .run) (ready : (s.core c).stall = .none) :
    s.deliver c t v = s.compareDelivery c t v := by
  simp [State.deliver, free, en, run, ready]

/-- An instruction that moves the tenant keeps the deliveries that come meanwhile. -/
theorem deliver_of_moving {a b : BitVec 12} {l : List (Nat × Nat)} (run : (s.dom c).st = .run)
    (moving : (s.core c).stall = .tpush a b ∨ (s.core c).stall = .tswitch a b l) : s.deliver c t v =
      s.setCore c { s.core c with heldDel := (s.core c).heldDel ++ [(t, v)] } := by
  obtain moving | moving := moving <;> simp [State.deliver, free, en, run, moving, State.modCore]

theorem deliver_of_closing (closing : (s.dom c).st = .closing) :
    s.deliver c t v = s.holdAt c (.interruptDelivery c t v) := by
  simp [State.deliver, free, en, closing]

theorem deliver_of_retained (asleep : (s.dom c).st = .retained ∨ (s.dom c).st = .waking) :
    s.deliver c t v = (s.holdAt c (.interruptDelivery c t v)).doorWake c := by
  obtain asleep | asleep := asleep <;> simp [State.deliver, free, en, asleep]
end

/-- A core that runs, waits or pauses. -/
theorem live_iff : (((s.core c).run == .running || (s.core c).run == .wfi || (s.core c).run == .paused) = true) ↔
    ((s.core c).run = .running ∨ (s.core c).run = .wfi ∨ (s.core c).run = .paused) := by
  simp [or_assoc]

theorem compareDelivery_of_match
    (live : (s.core c).run = .running ∨ (s.core c).run = .wfi ∨ (s.core c).run = .paused)
    (same : (((s.core c).at s.free srTid).setWidth 12 : BitVec 12) = t) :
    s.compareDelivery c t v = ({ s with free := s.free + 1 } : State).setCore c ((s.core c).pend v.toNat) :=
  if_pos (by rw [live_iff.mpr live, Bool.true_and]; exact beq_iff_eq.mpr same)

theorem compareDelivery_of_mismatch
    (other : ¬ ((s.core c).run = .running ∨ (s.core c).run = .wfi ∨ (s.core c).run = .paused) ∨
      (((s.core c).at s.free srTid).setWidth 12 : BitVec 12) ≠ t) :
    s.compareDelivery c t v = ({ s with free := s.free + 1 } : State).returnDelivery t v :=
  if_neg fun h => by
    obtain ⟨live, same⟩ := Bool.and_eq_true_iff.mp h
    exact other.elim (fun dead => dead (live_iff.mp live)) fun ne => ne (beq_iff_eq.mp same)

theorem deliveryAtCore : Claims.DeliveryAtCore := by
  intro c t v s core may s1 id live
  rw [interruptDelivery_runs core may]
  refine ⟨fun free en => ⟨fun run ready => ⟨fun alive same => ?_, fun other => ?_⟩, fun a b l run moving => ?_,
    fun off => ?_, fun closing => ?_, fun asleep => ?_⟩, fun fenced => ?_⟩
  · rw [deliver_of_running (s := s1) free en run ready, compareDelivery_of_match (s := s1) alive same]
    refine ⟨_, rfl, ?_, fun n ne => ?_, rfl, rfl, rfl, fun g ne => ?_⟩
    · rw [setCore_core_same]
      exact setReg_reg_same ..
    · rw [setCore_core_same]
      exact setReg_reg_ne _ _ ne
    · exact setCore_core_ne _ _ _ _ ne
  · rw [deliver_of_running (s := s1) free en run ready, compareDelivery_of_mismatch (s := s1) other]
    rfl
  · exact congrArg _ (deliver_of_moving (s := s1) free en run moving)
  · exact congrArg _ (deliver_of_gone (s := s1) (.inr (.inr off)))
  · exact congrArg _ (deliver_of_closing (s := s1) free en closing)
  · exact congrArg _ (deliver_of_retained (s := s1) free en asleep)
  · exact congrArg _ (deliver_of_gone (s := s1) (.inl fenced))
end

/-! ### The router (R312, R318, R320, R322) -/

section
variable {s : State} {t : BitVec 12} {v : BitVec 9}

theorem route_of_disabled (off : (s.tenant t).en = false) :
    s.route t v = { s with router := { s.router with discarded := s.router.discarded + 1 } } := if_pos (by simp [off])

theorem route_of_resident (en : (s.tenant t).en = true) (valid : ((s.tenant t).group (v.toNat / 64)).1 = true)
    (core : ((s.tenant t).group (v.toNat / 64)).2 < 576)
    (here : s.residentOf ((s.tenant t).group (v.toNat / 64)).2 = t) : s.route t v =
      ({ s with router := { s.router with direct := s.router.direct + 1 } } : State).send
        (.interruptDelivery ((s.tenant t).group (v.toNat / 64)).2 t v) := by
  simp [State.route, en, valid, core, here]

theorem route_of_elsewhere (en : (s.tenant t).en = true) (away : ((s.tenant t).group (v.toNat / 64)).1 = false ∨
    576 ≤ ((s.tenant t).group (v.toNat / 64)).2 ∨ s.residentOf ((s.tenant t).group (v.toNat / 64)).2 ≠ t) :
    s.route t v = s.post t v := by
  have : ¬ ((((s.tenant t).group (v.toNat / 64)).1 = true ∧ ((s.tenant t).group (v.toNat / 64)).2 < 576) ∧
      s.residentOf ((s.tenant t).group (v.toNat / 64)).2 = t) := by
    rintro ⟨⟨valid, core⟩, here⟩
    obtain h | h | h := away
    · exact Bool.false_ne_true (h.symm.trans valid)
    · omega
    · exact h here
  simp only [State.route, en, Bool.not_true, Bool.false_eq_true, if_false]
  exact if_neg (by simpa using this)

theorem post_of_closed (closed : s.pitEn = false) :
    s.post t v = s.postLost t (s.pitBase + 512 * t.toNat + v.toNat) := if_pos (by simp [closed])

theorem post_of_issued (opened : s.pitEn = true) {h : Hdr} {s2 : State}
    (issued : s.issue routerNode t (s.tenantCls t) (fun h => .wrpart h
      ((s.pitBase + 512 * t.toNat + v.toNat) / 64)
      ⟨1, 1, BitVec.ofNat 6 (s.pitBase + 512 * t.toNat + v.toNat), false⟩) = some (h, s2)) :
    s.post t v = { s2 with router := { s2.router with posts := s2.router.posts ++
      [⟨t, v, (s.pitBase + 512 * t.toNat + v.toNat) / 64, h.tag⟩] } } := by
  simp only [State.post, opened, issued, Bool.not_true, Bool.false_eq_true, if_false]

theorem routerMessage_held (may : s.mayArrive (.routerMessage t v) = true) (paused : s.router.paused.contains t = true) :
    exec (.routerMessage t v) s = .next { s.arrive (.routerMessage t v) with
      router := { s.router with held := s.router.held ++ [(t, v)] } } := by
  show execRouterMessage t v s = _
  rw [execRouterMessage, onArrival_of_may _ rfl may]
  exact congrArg _ (if_pos paused)

theorem routerMessage_routed (may : s.mayArrive (.routerMessage t v) = true) (going : s.router.paused.contains t = false) :
    exec (.routerMessage t v) s = .next ((s.arrive (.routerMessage t v)).route t v) := by
  show execRouterMessage t v s = _
  rw [execRouterMessage, onArrival_of_may _ rfl may]
  exact congrArg _ (if_neg (by rw [State.arrive_router, going]; exact Bool.false_ne_true))

/-- The number whose bits below `n` are those of `p`. -/
theorem maskBelow_testBit (p : Nat → Bool) (n : Nat) :
    (List.range n).foldl (fun m g => if p g then m + 2 ^ g else m) 0 < 2 ^ n ∧
      ∀ g, g < n → ((List.range n).foldl (fun m g => if p g then m + 2 ^ g else m) 0).testBit g = p g := by
  induction n with
  | zero => simp
  | succ n ih =>
    obtain ⟨small, bits⟩ := ih
    rw [List.range_succ, List.foldl_append, List.foldl_cons, List.foldl_nil]
    generalize (List.range n).foldl (fun m g => if p g then m + 2 ^ g else m) 0 = m at small bits
    have double : 2 ^ (n + 1) = 2 ^ n + 2 ^ n := by omega
    cases h : p n with
    | false =>
      refine ⟨by simp only [Bool.false_eq_true, if_false]; omega, fun g below => ?_⟩
      rcases Nat.lt_succ_iff_lt_or_eq.mp below with below | rfl
      · simpa using bits g below
      · simpa [h] using Nat.testBit_lt_two_pow small
    | true =>
      refine ⟨by simp only [if_true]; omega, fun g below => ?_⟩
      rcases Nat.lt_succ_iff_lt_or_eq.mp below with below | rfl
      · rw [if_pos rfl, Nat.add_comm, Nat.testBit_two_pow_add_gt below, bits g below]
      · rw [if_pos rfl, Nat.add_comm, Nat.testBit_two_pow_add_eq, Nat.testBit_lt_two_pow small, h]
        rfl

/-! #### Residency updates -/

/-- The router's record of residents after an update. -/
def State.resided (s : State) (c : Nat) (t : BitVec 12) : State :=
  { s with router := { s.router with resident := tput s.router.resident c t } }

theorem residencyUpdate_runs {c : Nat} {b : Bool} (core : c < 576) (may : s.mayArrive (.residencyUpdate c t b) = true) :
    exec (.residencyUpdate c t b) s = .next (
      let u := (s.arrive (.residencyUpdate c t b)).resided c t
      if b then ({ u with router := { u.router with switching := u.router.switching ++ [(c, t)] } } : State).answerSwitches
      else u) := by
  show execResidencyUpdate c t b s = _
  rw [execResidencyUpdate, onArrival_of_may _ (coreOk_of_lt core) may]
  rfl

theorem resided_same (c : Nat) : (s.resided c t).residentOf c = t := tget_tput_same ..

theorem resided_ne {c g : Nat} (ne : g ≠ c) : (s.resided c t).residentOf g = s.residentOf g := tget_tput_ne _ _ _ _ _ ne

/-- A switch whose tenant has a post outstanding waits. -/
theorem answerSwitches_waits {c : Nat} (one : s.router.switching = [(c, t)])
    (busy : (s.router.posts.any fun p => p.tid == t) = true) : s.answerSwitches = s := by
  simp [State.answerSwitches, one, busy]
  rw [← one]

/-- The groups of a tenant that a core serves. -/
def State.groupMask (s : State) (c : Nat) (t : BitVec 12) : Nat :=
  (List.range 8).foldl (fun m g => if (s.tenant t).group g == (true, c) then m + 2 ^ g else m) 0

theorem groupMask_bit (c : Nat) {g : Nat} (below : g < 8) :
    (BitVec.ofNat 8 (s.groupMask c t)).getLsbD g = ((s.tenant t).group g == (true, c)) := by
  rw [BitVec.getLsbD_ofNat, decide_eq_true below, Bool.true_and]
  exact (maskBelow_testBit (fun g => (s.tenant t).group g == (true, c)) 8).2 g below

/-- The only switch that waits is answered once its tenant has no post outstanding. -/
theorem answerSwitches_answers {c : Nat} (one : s.router.switching = [(c, t)]) (calm : s.router.quiesce = none)
    (clear : (s.router.posts.any fun p => p.tid == t) = false) : s.answerSwitches =
      ({ s with router := { s.router with switching := [] } } : State).send
        (.residencyAnswer c (s.tenant t).cls (BitVec.ofNat 8 (s.groupMask c t))) := by
  simp only [State.answerSwitches, one, calm, List.filter, clear, List.foldl, Option.any, Bool.not_false,
    List.contains_cons, beq_self_eq_true, Bool.true_or, Bool.not_true]
  rfl

/-- Steps that each send one message change what is under way only. -/
theorem foldl_send_keeps {α : Type} (f : State → α → State) (sends : ∀ s x, ∃ m, f s x = s.send m) (l : List α) (s : State) :
    ∃ ms, l.foldl f s = { s with inflight := ms } := by
  induction l generalizing s with
  | nil => exact ⟨_, rfl⟩
  | cons x l ih =>
    obtain ⟨m, sent⟩ := sends s x
    obtain ⟨ms, rest⟩ := ih (s.send m)
    exact ⟨ms, by rw [List.foldl_cons, sent, rest]; rfl⟩

/-- Answering switches changes the list of those that wait and what is under way only. -/
theorem answerSwitches_keeps (s : State) :
    ∃ w ms, s.answerSwitches = { s with router := { s.router with switching := w }, inflight := ms } := by
  obtain ⟨ms, sent⟩ := foldl_send_keeps _ (fun _ _ => ⟨_, rfl⟩) _ _
  exact ⟨_, ms, sent⟩

theorem routerMessages : Claims.RouterMessages := by
  intro t v s
  constructor
  · intro may s1 r g
    refine ⟨routerMessage_held may, fun going => ?_⟩
    rw [routerMessage_routed may going]
    refine ⟨fun off => congrArg _ (route_of_disabled (s := s1) off),
      fun en valid low here => congrArg _ (route_of_resident (s := s1) en valid low here), fun en away => ?_⟩
    rw [route_of_elsewhere (s := s1) en away]
    exact ⟨fun closed => congrArg _ (post_of_closed (s := s1) closed),
      fun opened h s2 issued => congrArg _ (post_of_issued (s := s1) opened issued)⟩
  · intro c b core may s1
    rw [residencyUpdate_runs core may]
    cases b with
    | false =>
      exact ⟨_, rfl, resided_same c, fun g ne => resided_ne (s := s1) ne, rfl, rfl, fun _ => ⟨rfl, rfl⟩, fun h => nomatch h⟩
    | true =>
      let u := s1.resided c t
      let u : State := { u with router := { u.router with switching := u.router.switching ++ [(c, t)] } }
      obtain ⟨w, ms, kept⟩ := answerSwitches_keeps u
      refine ⟨u.answerSwitches, rfl, ?_, fun g ne => ?_, ?_, ?_, (fun h => nomatch h), fun _ none calm => ?_⟩
      · exact (congrArg (State.residentOf · c) kept).trans (resided_same (s := s1) c)
      · exact (congrArg (State.residentOf · g) kept).trans (resided_ne (s := s1) ne)
      · exact (congrArg State.cores kept).trans rfl
      · exact (congrArg State.hier kept).trans rfl
      · have one : u.router.switching = [(c, t)] := congrArg (· ++ [(c, t)]) none
        refine ⟨fun busy => ?_, fun clear => ?_⟩
        · have waits := answerSwitches_waits (s := u) one busy
          exact ⟨(congrArg State.inflight waits).trans rfl, (congrArg (·.router.switching) waits).trans one⟩
        · have answers := answerSwitches_answers (s := u) one calm clear
          exact ⟨congrArg (·.router.switching) answers, _, congrArg State.inflight answers,
            fun g below => groupMask_bit (s := u) c below⟩
end

/-! ### Quiesce (R331, R332, R369, R459) -/

section
variable {s : State} {t : BitVec 12}

theorem unitOk_of_engine {n : Nat} (lo : 8 ≤ n) (hi : n < 0x18) : unitOk n = true := by
  simp only [unitOk, Bool.and_eq_true, decide_eq_true_eq]
  omega

/-- A command that may begin is accepted before its checks. -/
theorem quiesceGo_of_idle (idle : s.router.quiesce = none) (fresh : (s.tenant t).quiescing = false) :
    let u : State := { s with router := { s.router with qtid := t, qres := s.router.qres.accept } }
    (∀ c, s.residentCore t = some c → s.quiesceGo t = { u with
      router := { u.router with qres := s.router.qres.accept.fail codeResident c } }) ∧
    (s.residentCore t = none → s.mirror.slots = [] → s.quiesceGo t =
      ((u.setTenant t { s.tenant t with quiescing := true }).setQuiesce (some ⟨t, 1, blockUnits, 0, s.now⟩)).blockTenant t) := by
  intro u
  refine ⟨fun c resident => ?_, fun absent empty => ?_⟩
  · refine (if_neg (by rw [idle]; exact Bool.false_ne_true)).trans ((if_neg (by rw [Bool.not_eq_true]; exact fresh)).trans ?_)
    rw [show u.residentCore t = some c from resident]
  · have unused : u.usedSlots = [] := by simp [u, State.usedSlots, empty]
    refine (if_neg (by rw [idle]; exact Bool.false_ne_true)).trans ((if_neg (by rw [Bool.not_eq_true]; exact fresh)).trans ?_)
    rw [show u.residentCore t = none from absent, unused]
    rfl

theorem quiesceCmdGo_cases (t : BitVec 12) (s : State) : let s1 : State := { s with router := { s.router with qtid := t } }
    (s.router.quiesce.isSome = true → exec (.quiesceCmdGo t) s = .next (s1.violate routerBlock)) ∧
    (s.router.quiesce = none →
      ((s.tenant t).quiescing = true → exec (.quiesceCmdGo t) s = .next { s1 with
        router := { s1.router with qres := s.router.qres.accept.fail codeDrainExpired 0 } }) ∧
      (∀ c, (s.tenant t).quiescing = false → s.residentCore t = some c → exec (.quiesceCmdGo t) s = .next { s1 with
        router := { s1.router with qres := s.router.qres.accept.fail codeResident c } }) ∧
      ((s.tenant t).quiescing = false → s.residentCore t = none → s.mirror.slots = [] →
        ∃ u, exec (.quiesceCmdGo t) s = .next u ∧ u.router.quiesce = some ⟨t, 1, blockUnits, 0, s.now⟩ ∧
          (u.tenant t).en = false ∧ (u.tenant t).quiescing = true ∧ u.router.qres = s.router.qres.accept ∧
          u.inflight = s.inflight ++ blockUnits.map fun n => .blockNotice n t)) := by
  intro s1
  rw [show exec (.quiesceCmdGo t) s = .next (s.quiesceGo t) from rfl]
  refine ⟨fun busy => congrArg _ (if_pos busy), fun idle => ⟨fun expired => ?_, fun c fresh resident => ?_,
    fun fresh absent empty => ?_⟩⟩
  · have notBusy : ¬ s.router.quiesce.isSome = true := by rw [idle]; exact Bool.false_ne_true
    exact congrArg _ ((if_neg notBusy).trans (if_pos expired))
  · rw [(quiesceGo_of_idle idle fresh).1 c resident]
  · rw [(quiesceGo_of_idle idle fresh).2 absent empty]
    refine ⟨_, rfl, rfl, ?_, ?_, rfl, rfl⟩
    · exact congrArg Tenant.en (setTenant_tenant_same ..)
    · refine (congrArg Tenant.quiescing (setTenant_tenant_same ..)).trans ?_
      exact congrArg Tenant.quiescing (setTenant_tenant_same ..)

/-- A drained notice of an awaited engine. -/
theorem drainedNotice_cases {n a : Nat} {q : Quiesce} (hi : n < 0x18) (lo : 8 ≤ n)
    (may : s.mayArrive (.drainedNotice n t a) = true) (running : s.router.quiesce = some q) (mine : q.tid = t)
    (draining : q.phase = 1) (awaited : q.owing.contains n = true) :
    let since := match s.slotOf t with
      | some (_, x) => if n == 0x16 && x.final == 2 then q.since + (s.now - x.since) else q.since
      | none => q.since
    let q' := { q with owing := q.owing.filter (· != n), aborted := q.aborted + a, since := since }
    let s2 := (s.arrive (.drainedNotice n t a)).setQuiesce (some q')
    (q'.owing = [] → exec (.drainedNotice n t a) s = .next (s2.quiesceDiscard q')) ∧
    (q'.owing ≠ [] → q'.owing ≠ [0x16] → exec (.drainedNotice n t a) s = .next s2) ∧
    (q'.owing = [0x16] → (s.slotOf t = none → exec (.drainedNotice n t a) s = .next s2) ∧
      ∀ m x, s.slotOf t = some (m, x) → exec (.drainedNotice n t a) s =
        .next (if x.final = 0 then (s2.setSlot m { x with final := 1 }).finalStep m else s2)) := by
  intro since q' s2
  have run : exec (.drainedNotice n t a) s = .next (
      if q'.owing.isEmpty then s2.quiesceDiscard q'
      else if q'.owing == [0x16] then
        match s.slotOf t with
        | some (m, x) => if x.final == 0 then (s2.setSlot m { x with final := 1 }).finalStep m else s2
        | none => s2
      else s2) := by
    show execDrainedNotice n t a s = _
    rw [execDrainedNotice, onArrival_of_may _ (unitOk_of_engine lo hi) may]
    have due : (q.tid == t && q.phase == 1 && q.owing.contains n) = true := by rw [mine, draining, awaited]; simp
    simp only [State.arrive_router, running, due, if_true]
    rfl
  rw [run]
  refine ⟨fun last => ?_, fun more other => ?_, fun mirror => ?_⟩
  · simp [last]
  · rw [if_neg (by simpa using more), if_neg (by simpa using other)]
  · rw [mirror]
    exact ⟨fun unused => by simp [unused], fun m x used => by simp [used]⟩

theorem scrubbedNotice_cases {n : Nat} {q : Quiesce} (hi : n < 0x18) (lo : 8 ≤ n)
    (may : s.mayArrive (.scrubbedNotice n t) = true) (running : s.router.quiesce = some q) (mine : q.tid = t)
    (scrubbing : q.phase = 3) :
    (q.owing = [n] → ∃ u, exec (.scrubbedNotice n t) s = .next u ∧ u.router.quiesce = none ∧
      (u.tenant t).quiesced = true ∧ (u.tenant t).quiescing = false ∧ u.router.qres = s.router.qres.done q.aborted) ∧
    (q.owing.filter (· != n) ≠ [] → exec (.scrubbedNotice n t) s = .next ((s.arrive (.scrubbedNotice n t)).setQuiesce
      (some { q with owing := q.owing.filter (· != n) }))) := by
  let s1 := s.arrive (.scrubbedNotice n t)
  let s2 := s1.setTenant t { s1.tenant t with quiesced := true, quiescing := false }
  have run : exec (.scrubbedNotice n t) s = .next (
      if (q.owing.filter (· != n)).isEmpty then
        { s2 with router := { s2.router with quiesce := none, qres := s2.router.qres.done q.aborted } }
      else s1.setQuiesce (some { q with owing := q.owing.filter (· != n) })) := by
    show execScrubbedNotice n t s = _
    rw [execScrubbedNotice, onArrival_of_may _ (unitOk_of_engine lo hi) may]
    simp only [State.arrive_router, running, mine, scrubbing, beq_self_eq_true, Bool.and_self, if_true]
    rfl
  rw [run]
  refine ⟨fun last => ⟨_, congrArg _ (if_pos (by simp [last])), rfl, ?_, ?_, rfl⟩, fun more => ?_⟩
  · exact congrArg Tenant.quiesced (setTenant_tenant_same s1 t _)
  · exact congrArg Tenant.quiescing (setTenant_tenant_same s1 t _)
  · rw [if_neg (by simpa using more)]

theorem blockNotice_cases {n : Nat} (hi : n < 0x18) (lo : 8 ≤ n) (may : s.mayArrive (.blockNotice n t) = true) :
    let s1 := s.arrive (.blockNotice n t)
    let d := unitDomain n
    let owes := s.router.quiesce.any fun q => q.tid == t && q.phase == 1 && q.owing.contains n
    (s.unitFenced d = true ∨ (s.dom d).st = .off → exec (.blockNotice n t) s =
      .next (if owes then s1.send (.drainedNotice n t 0) else s1)) ∧
    (s.unitFenced d = false → (s.dom d).st = .retained ∨ (s.dom d).st = .closing ∨ (s.dom d).st = .waking →
      exec (.blockNotice n t) s = .next ((s1.holdAt d (.blockNotice n t)).doorWake d)) ∧
    (s.unitFenced d = false → (s.dom d).st = .run → n ≠ 0x16 →
      let s2 := s1.blockUnit n t
      (owes = false → exec (.blockNotice n t) s = .next s2) ∧
      (owes = true → s2.unitIdle n t = true → exec (.blockNotice n t) s =
        .next (s2.send (.drainedNotice n t (s2.abortedAt n t)))) ∧
      (owes = true → s2.unitIdle n t = false → exec (.blockNotice n t) s = .next (s2.send (.blockNotice n t)))) := by
  intro s1 d owes
  have met (h : s.unitFenced d = false) (on : (s.dom d).st ≠ .off) : ¬ (s1.unitFenced d || (s1.dom d).st == .off) = true := by
    rw [show s1.unitFenced d = false from h, Bool.false_or]
    exact fun off => on (beq_iff_eq.mp off)
  show (_ → execBlockNotice n t s = _) ∧ (_ → _ → execBlockNotice n t s = _) ∧ (_ → _ → _ →
    (_ → execBlockNotice n t s = _) ∧ (_ → _ → execBlockNotice n t s = _) ∧ (_ → _ → execBlockNotice n t s = _))
  rw [execBlockNotice, onArrival_of_may _ (unitOk_of_engine lo hi) may]
  refine ⟨fun gone => congrArg _ (if_pos ?_), fun free asleep => congrArg _ ?_, fun free on other => ?_⟩
  · show (s1.unitFenced d || (s1.dom d).st == .off) = true
    rw [Bool.or_eq_true, beq_iff_eq]
    exact gone
  · refine (if_neg (met free ?_)).trans (if_neg ?_)
    · obtain h | h | h := asleep <;> simp [h]
    · show ¬ ((s.dom d).st == .run) = true
      obtain h | h | h := asleep <;> simp [h]
  · have run : ((s1.dom d).st == .run) = true := beq_iff_eq.mpr on
    have notMirror : ¬ (n == 0x16) = true := fun h => other (beq_iff_eq.mp h)
    refine ⟨fun no => ?_, fun yes idle => ?_, fun yes busy => ?_⟩ <;>
      refine congrArg _ ((if_neg (met free (by simp [on]))).trans ((if_pos run).trans ((if_neg notMirror).trans ?_)))
    · exact if_pos (congrArg not no)
    · exact (if_neg (ne_true_of_eq_false (congrArg not yes))).trans ((if_pos idle).trans (if_pos yes))
    · exact (if_neg (ne_true_of_eq_false (congrArg not yes))).trans (if_neg (ne_true_of_eq_false busy))

theorem quiesceDrainExpired_fails {n : Nat} {q : Quiesce} (running : s.router.quiesce = some q) (one : q.owing = [n])
    (other : n ≠ 0x16) (late : q.since + s.drainLimit < s.now) : exec .quiesceDrainExpired s =
      .next (({ s with router := { s.router with
        quiesce := none, qres := s.router.qres.fail codeDrainExpired (unitStat n) } } : State).fault (srcCode 0 0 n) 0x44
          (some q.tid) (unitStat n)) := by
  show execQuiesceDrainExpired s = _
  rw [execQuiesceDrainExpired, running]
  simp [one, other, late]

theorem quiesceRun : Claims.QuiesceRun := by
  intro t s s1
  obtain ⟨busy, idle⟩ := quiesceCmdGo_cases t s
  refine ⟨busy, idle, fun n a q hi lo => drainedNotice_cases hi lo, fun n q hi lo => scrubbedNotice_cases hi lo,
    fun n hi lo => blockNotice_cases hi lo, fun none => ?_, fun n q => quiesceDrainExpired_fails⟩
  show execQuiesceDrainExpired s = _
  rw [execQuiesceDrainExpired, none]
end

/-! ### A tenant's entry (R324, R333, R460) -/

section
variable {s : State} {t : BitVec 12}

@[simp] theorem State.reserved_router (s : State) (blk : Nat) (used v : Word) :
    (s.reserved blk used v).router = s.router := by
  rcases s.reserved_cases blk used v with h | h <;> simp [h]

@[simp] theorem State.reserved_qps (s : State) (blk : Nat) (used v : Word) : (s.reserved blk used v).qps = s.qps := by
  rcases s.reserved_cases blk used v with h | h <;> simp [h]

@[simp] theorem State.reserved_mirror (s : State) (blk : Nat) (used v : Word) :
    (s.reserved blk used v).mirror = s.mirror := by
  rcases s.reserved_cases blk used v with h | h <;> simp [h]

/-- An entry depends on the router and on the active image only. -/
theorem tenant_congr {u : State} (router : u.router = s.router) (seq : u.seq = s.seq) (r : BitVec 12) :
    u.tenant r = s.tenant r := by
  simp only [State.tenant, State.defaultTenant, State.img, router, seq]

theorem slotOf_congr {u : State} (mirror : u.mirror = s.mirror) : u.slotOf t = s.slotOf t := by
  simp only [State.slotOf, State.usedSlots, mirror]

theorem setTenant_tenant_ne {r : BitVec 12} (x : Tenant) (ne : r ≠ t) : (s.setTenant t x).tenant r = s.tenant r :=
  tget_tput_ne _ _ _ _ _ fun h => ne (BitVec.eq_of_toNat_eq h)

/-- Without queue pairs, unblocking a tenant changes lanes, streams and the tenant's slot only. -/
theorem unblockTenant_keeps (empty : s.qps = []) : ∃ g m, s.unblockTenant t = { s with
    lanes := tmap (fun x : Lane => { x with blocked := x.blocked.filter (· != t) }) s.lanes, guest := g, mirror := m } := by
  cases s
  subst empty
  simp only [State.unblockTenant]
  split <;> exact ⟨_, _, rfl⟩

/-- A lane no longer blocks a tenant that is made usable again. -/
theorem unblockTenant_lane (empty : s.qps = []) {l : Nat} {x : Lane}
    (found : tfind? (s.unblockTenant t).lanes l = some x) : x.blocked.contains t = false := by
  obtain ⟨g, m, kept⟩ := unblockTenant_keeps (t := t) empty
  rw [kept, tfind_tmap] at found
  obtain ⟨y, -, rfl⟩ := Option.map_eq_some_iff.mp found
  simp

/-- A write of TE_CTL changes the entry; the engines are told only when EN is set. -/
theorem tenantWrite_entries (v : Word) (quiet : bit v 63 = false ∨ (s.tenant t).quiescing = true ∨ s.qps = []) :
    (s.tenantWrite t v).router = (s.setTenant t ((s.tenant t).write v)).router ∧ (s.tenantWrite t v).seq = s.seq := by
  have same : ((s.setTenant t ((s.tenant t).write v)).tenant t).quiescing = (s.tenant t).quiescing :=
    (congrArg Tenant.quiescing (setTenant_tenant_same ..)).trans rfl
  rw [State.tenantWrite]
  simp only [same]
  split
  case isTrue go =>
    have empty : s.qps = [] := by
      obtain h | h | h := quiet
      · simp [h] at go
      · simp [h] at go
      · exact h
    obtain ⟨g, m, kept⟩ := unblockTenant_keeps (s := s.setTenant t ((s.tenant t).write v)) (t := t) empty
    rw [kept]
    exact ⟨rfl, rfl⟩
  · exact ⟨rfl, rfl⟩

theorem tenantWrite_disabled {v : Word} (off : bit v 63 = false) :
    s.tenantWrite t v = s.setTenant t ((s.tenant t).write v) := by
  simp [State.tenantWrite, off]

theorem tenantWrite_enabled {v : Word} (en : bit v 63 = true) (fresh : (s.tenant t).quiescing = false) :
    s.tenantWrite t v = (s.setTenant t ((s.tenant t).write v)).unblockTenant t := by
  have : ((s.tenant t).write v).quiescing = false := fresh
  simp [State.tenantWrite, en, this]

theorem tenantEntry : Claims.TenantEntry := by
  intro t v s quiet
  let s0 := s.reserved routerBlock (maskBits 63 60 ||| maskBits 42 40 ||| maskBits 25 16) v
  have entry (r : BitVec 12) : s0.tenant r = s.tenant r := tenant_congr (by simp [s0]) (by simp [s0]) r
  obtain ⟨router, seq⟩ := tenantWrite_entries (s := s0) (t := t) v (by simpa [entry, s0] using quiet)
  have after (r : BitVec 12) : (s0.tenantWrite t v).tenant r = (s0.setTenant t ((s.tenant t).write v)).tenant r :=
    entry t ▸ tenant_congr router seq r
  have written : (s0.tenantWrite t v).tenant t = (s.tenant t).write v := (after t).trans (setTenant_tenant_same ..)
  refine ⟨s0.tenantWrite t v, rfl, ?_⟩
  rw [written]
  refine ⟨rfl, rfl, rfl, rfl, rfl, rfl, rfl, fun r ne => ?_, fun off => ?_, fun en fresh empty _ l x found => ?_⟩
  · rw [after, setTenant_tenant_ne _ ne, entry]
  · rw [tenantWrite_disabled off, entry]
  · rw [tenantWrite_enabled en (by rw [entry, fresh])] at found
    exact unblockTenant_lane (by simp [s0, empty]) found
end

/-- Settles O38, claim by claim: what a door makes of a delivery, the router of a message, each notice of a quiesce, and a
write of TE_CTL. -/
theorem deliveryAndTenants : Obligations.DeliveryAndTenants := ⟨deliveryAtCore, routerMessages, quiesceRun, tenantEntry⟩

end Sys2Proof.Machine
end

section
/-! SUPPORT. What a frame to the partner leaves as it was, the mirror engine's commands by their OP, the record of an ADD, and the engine's timers and leave (R392-R394, R400, R404, R407, R410, R461). -/

namespace Sys2Proof.Machine

/-! ### What a frame to the partner leaves as it was (R403, R404) -/

/-- Two states that differ in the numbering and the log of the frames to the partner, the slots, the ports and what leaves
the package only. -/
def State.SentTo (s t : State) : Prop := ∃ n k l y p o,
  t = { s with mirror := { s.mirror with seq := n, turn := k, log := l, slots := y }, ports := p, out := o }

section
variable {s t u : State}

theorem State.SentTo.refl (s : State) : s.SentTo s := ⟨_, _, _, _, _, _, rfl⟩

theorem State.SentTo.trans (a : s.SentTo t) (b : t.SentTo u) : s.SentTo u := by
  obtain ⟨_, _, _, _, _, _, rfl⟩ := a
  obtain ⟨_, _, _, _, _, _, rfl⟩ := b
  exact ⟨_, _, _, _, _, _, rfl⟩

theorem mirrorOut_sentTo (s : State) (p : Nat) (b : List Byte) : s.SentTo (s.mirrorOut p b) := by
  rw [State.mirrorOut]
  split <;> exact ⟨_, _, _, _, _, _, rfl⟩

theorem countContrail_sentTo (s : State) (t : BitVec 12) (n : Nat) : s.SentTo (s.countContrail t n) := by
  rw [State.countContrail]
  split <;> exact ⟨_, _, _, _, _, _, rfl⟩

theorem setSlot_sentTo (s : State) (m : Nat) (x : Slot) : s.SentTo (s.setSlot m x) := ⟨_, _, _, _, _, _, rfl⟩

/-- A numbered frame that is not kept for its epoch. -/
theorem cSend_sentTo (s : State) (ty : Nat) (t : BitVec 12) (e : Nat) (pay : List Byte) :
    s.SentTo (s.cSend ty t e false pay) := by
  simp only [State.cSend, Bool.false_eq_true, if_false]
  split
  · exact .refl s
  · exact .trans ⟨_, _, _, _, _, _, rfl⟩ ((countContrail_sentTo ..).trans (mirrorOut_sentTo ..))

theorem State.SentTo.now (a : s.SentTo t) : t.now = s.now := by
  obtain ⟨_, _, _, _, _, _, rfl⟩ := a
  rfl
end

/-! ### The mirror engine's commands (R393, R394, R400, R410) -/

section
variable {s : State} {v : Word}

/-- The state of the engine when a command has been written. -/
def State.mtWritten (s : State) (v : Word) : State :=
  (s.reserved mirrorBlock (maskBits 63 60 ||| maskBits 51 6) v).modMirror fun g => { g with cmd := v &&& 0x700FFFFFFFFFFFC0 }

/-- The slot of a tenant depends on the slots only. -/
theorem slotOf_of_slots {u : State} {t : BitVec 12} (slots : u.mirror.slots = s.mirror.slots) : u.slotOf t = s.slotOf t := by
  simp only [State.slotOf, State.usedSlots, slots]

theorem mtRow_of_go {op : Nat} (runs : s.mirrorRuns = true) (go : bit v 63 = true) (named : fld v 60 3 = op) :
    s.mtRow op v = (s.reserved mirrorBlock (maskBits 63 60 ||| maskBits 51 6) v).mtCmd v :=
  if_pos (by rw [runs, go, named]; simp)

theorem mtWritten_slots : (s.mtWritten v).mirror.slots = s.mirror.slots := by simp [State.mtWritten, State.modMirror]
theorem mtWritten_res : (s.mtWritten v).mirror.res = s.mirror.res := by simp [State.mtWritten, State.modMirror]
theorem mtWritten_st : (s.mtWritten v).mirror.st = s.mirror.st := by simp [State.mtWritten, State.modMirror]

theorem mtCmd_busy (go : bit v 63 = true) (busy : s.mirror.res.status = 1) :
    (s.reserved mirrorBlock (maskBits 63 60 ||| maskBits 51 6) v).mtCmd v = (s.mtWritten v).violate mirrorBlock := by
  rw [State.mtCmd]
  refine (if_neg (by simp [go])).trans (if_pos ?_)
  exact beq_iff_eq.mpr ((congrArg (·.status) (mtWritten_res (v := v))).trans busy)

/-- What an accepted command does, by its OP. -/
theorem mtCmd_accepted (go : bit v 63 = true) (idle : s.mirror.res.status ≠ 1) :
    let s1 := (s.mtWritten v).mtEnd fun c => c.accept
    let tid : BitVec 12 := BitVec.ofNat 12 (fld v 6 12)
    let t := (s.reserved mirrorBlock (maskBits 63 60 ||| maskBits 51 6) v).mtCmd v
    (fld v 60 3 = 1 → t = s1.startRead mirrorNode 0 0 .mtRecord (chunksOf (fld v 6 46 * 64) 448)) ∧
    (fld v 60 3 = 2 → (s.slotOf tid = none → t = s1.mtFail codeFieldInvalid) ∧
      ∀ m x, s.slotOf tid = some (m, x) → t = (s1.removeSlot m).mtEnd fun c => c.done 0) ∧
    (fld v 60 3 = 3 → (s.slotOf tid = none → t = s1.mtFail codePairState) ∧
      ∀ m x, s.slotOf tid = some (m, x) → x.active = true → x.st = .unguarded → s.mirror.st = 2 →
        t = s1.sendJoin m false) := by
  intro s1 tid t
  have slot : s1.slotOf tid = s.slotOf tid := slotOf_of_slots mtWritten_slots
  have up : s1.mirror.st = s.mirror.st := mtWritten_st
  have notBusy : ¬ ((s.mtWritten v).mirror.res.status == 1) = true := by
    rw [mtWritten_res]
    exact fun h => idle (beq_iff_eq.mp h)
  have notGo : ¬ (!bit v 63) = true := by simp [go]
  have run : t = match fld v 60 3 with
      | 1 => s1.startRead mirrorNode 0 0 .mtRecord (chunksOf (fld v 6 46 * 64) 448)
      | 2 =>
        match s1.slotOf tid with
        | some (m, _) => (s1.removeSlot m).mtEnd fun c => c.done 0
        | none => s1.mtFail codeFieldInvalid
      | 3 =>
        match s1.slotOf tid with
        | some (m, x) =>
          if x.active && (x.st == .halted || x.st == .unguarded) && s1.mirror.st == 2 then s1.sendJoin m false
          else s1.mtFail codePairState
        | none => s1.mtFail codePairState
      | _ => s1.mtFail codeFieldInvalid := (if_neg notGo).trans (if_neg notBusy)
  rw [run, slot, up]
  refine ⟨fun op => ?_, fun op => ?_, fun op => ?_⟩ <;> simp only [op]
  · exact ⟨fun none => by rw [none], fun m x found => by rw [found]⟩
  · exact ⟨fun none => by rw [none], fun m x found active un pair => by simp [found, active, un, pair]⟩

/-- A command that comes while one runs. -/
theorem mtRow_busy {op : Nat} (runs : s.mirrorRuns = true) (go : bit v 63 = true) (busy : s.mirror.res.status = 1)
    (named : fld v 60 3 = op) : s.mtRow op v = (s.mtWritten v).violate mirrorBlock :=
  (mtRow_of_go runs go named).trans (mtCmd_busy go busy)

theorem slot_of_slots {u : State} {m : Nat} (slots : u.mirror.slots = s.mirror.slots) : u.slot m = s.slot m := by
  simp only [State.slot, slots]

/-- A standby slot is freed without a word to the partner. -/
theorem removeSlot_of_standby {m : Nat} (standby : (s.slot m).active = false) :
    s.removeSlot m = s.setSlot m Slot.initial := by
  simp [State.removeSlot, standby]

/-- JOIN opens the wait for its answer. -/
theorem sendJoin_waits (m : Nat) (add : Bool) : ∃ t, s.sendJoin m add = t ∧ t.mirror.joining = some (m, s.now, add) ∧
    t.mirror.res = s.mirror.res ∧ t.hier = s.hier := by
  refine ⟨_, rfl, ?_⟩
  rw [State.sendJoin]
  obtain ⟨_, _, _, _, _, _, sent⟩ := cSend_sentTo s 0x10 (s.slot m).tid 0 (leBytes 8 (s.slot m).ranges.length ++
    ((List.range 16).map fun r => leBytes 8 ((s.slot m).ranges.getD r (0, 0, 0)).2.1).flatten ++
    leBytes 8 (s.slot m).stageLen)
  rw [sent]
  exact ⟨rfl, rfl, rfl⟩
end

/-! ### The record of an ADD (R394, Table 15-2) -/

section
variable {s : State} {r : Reader} (tag : Nat)

theorem readDone_mtRecord (why : r.why = .mtRecord) : s.readDone tag r = s.mtAdd r.got := by
  simp only [State.readDone, why]

theorem readFailed_mtRecord (why : r.why = .mtRecord) (pa : Nat) : s.readFailed tag r 0 pa = s.mtFail codePoisoned := by
  simp only [State.readFailed, why]
  rfl

/-- The CurData that fails a read tells the engine that asked. -/
theorem curdata_of_readFails {s s1 : State} {h : Hdr} {line code pa : Nat} {d : LineData} {r : Reader}
    (fails : s.ReadFails h line d r code pa s1) : exec (.curdata h line d) s = .next (s1.readFailed h.tag r code pa) := by
  obtain ⟨hdr, lt, engine, current, may, got⟩ := fails
  have now : ((s.arrive (.curdata h line d)).countRead h.node).current h = true := by
    rw [State.current, countRead_tag, arrive_tag]
    exact current
  have timely : ((s.arrive (.curdata h line d)).countRead h.node).isLate h = false := by
    simp only [State.current, Bool.and_eq_true, Bool.not_eq_true', beq_iff_eq] at current
    obtain ⟨⟨-, unreserved⟩, same⟩ := current
    rw [countRead_isLate, arrive_isLate]
    simp [State.isLate, unreserved, same]
  show execCurdata h line d s = _
  rw [execCurdata, onArrival_of_may _ (by rw [hdr, lt]; rfl) may, State.curData]
  simp only [timely, now, Bool.not_true, Bool.false_eq_true, if_false, Nat.not_lt.mpr engine, got]

variable {b : List Byte}

theorem mtAdd_fields (bad : addFields b = false) : s.mtAdd b = s.mtFail codeFieldInvalid := if_pos (by simp [bad])

variable (good : addFields b = true)
include good

theorem mtAdd_long (long : stagePastEnd (slotOfRecord b) = true) : s.mtAdd b = s.mtFail codeLengthRange :=
  (if_neg (by simp [good])).trans (if_pos long)

variable (short : stagePastEnd (slotOfRecord b) = false)
include short

theorem mtAdd_uma (uma : s.img secHome 0 1 0 ≠ 0) : s.mtAdd b = s.mtFail codeNotNuma := by
  simp [State.mtAdd, good, short, uma]

variable (numa : s.img secHome 0 1 0 = 0)
include numa

theorem mtAdd_ranges (bad : s.rangesBad (slotOfRecord b) = true) : s.mtAdd b = s.mtFail codeMirrorRange := by
  simp [State.mtAdd, good, short, numa, bad]

/-- A record whose ranges hold, with a slot free. -/
theorem mtAdd_of_free (fit : s.rangesBad (slotOfRecord b) = false) {m : Nat}
    (free : lowest (fun m => (s.slot m).st == .free) 128 = some m) :
    s.mtAdd b = if (s.slotOf (slotOfRecord b).tid).isSome then s.mtFail codeTidMirrored
      else if s.mirror.st != 2 then s.mtFail codePairState
      else if (slotOfRecord b).active then (s.setSlot m (slotOfRecord b)).sendJoin m true
      else (s.setSlot m { slotOfRecord b with st := .standby, catchUp := true }).mtEnd fun c => c.done 0 := by
  simp only [State.mtAdd, good, short, numa, fit, free, Bool.not_true, Bool.false_eq_true, if_false, bne_self_eq_false]
end

theorem mirrorCommands : Claims.MirrorCommands := by
  constructor
  · intro v s runs go r s0 s1 tid
    refine ⟨fun busy => ⟨fun op => congrArg _ (mtRow_busy runs go busy op), fun op => congrArg _ (mtRow_busy runs go busy op),
      fun op => congrArg _ (mtRow_busy runs go busy op)⟩, fun idle => ?_⟩
    obtain ⟨add, remove, rearm⟩ := mtCmd_accepted go idle
    refine ⟨fun op => congrArg _ ((mtRow_of_go runs go op).trans (add op)),
      fun op none => congrArg _ ((mtRow_of_go runs go op).trans ((remove op).1 none)),
      fun op none => congrArg _ ((mtRow_of_go runs go op).trans ((rearm op).1 none)),
      fun m x op found is standby => ?_, fun m x op found active un pair => ?_⟩
    · have removed : s1.removeSlot m = s1.setSlot m Slot.initial := removeSlot_of_standby <| by
        rw [slot_of_slots (s := s) (u := s1) mtWritten_slots, is, standby]
      exact congrArg _ ((mtRow_of_go runs go op).trans (((remove op).2 m x found).trans (congrArg (State.mtEnd · _) removed)))
    · obtain ⟨t, sent, joining, res, -⟩ := sendJoin_waits (s := s1) m false
      have now : s1.now = s.now := s.reserved_now _ _ _
      refine ⟨t, congrArg _ ((mtRow_of_go runs go op).trans (((rearm op).2 m x found active un pair).trans sent)), ?_, ?_⟩
      · rw [joining, now]
      · exact res.trans (congrArg Chan.accept mtWritten_res)
  · intro h line d r s s1 why x gives
    refine ⟨fun pa fails => (curdata_of_readFails fails).trans (congrArg _ (readFailed_mtRecord h.tag why pa)), fun ends => ?_⟩
    have came {t : State} (done : s1.mtAdd r.got = t) : gives t :=
      (curdata_of_readEnds ends).trans (congrArg _ ((readDone_mtRecord h.tag why).trans done))
    refine ⟨fun bad => came (mtAdd_fields bad), fun good => ⟨fun long => came (mtAdd_long good long),
      fun short uma => came (mtAdd_uma good short uma), fun short numa bad => came (mtAdd_ranges good short numa bad),
      fun m short numa fit free => ?_⟩⟩
    have placed := mtAdd_of_free good short numa fit free
    have unused (new : s1.slotOf x.tid = none) : ¬ (s1.slotOf x.tid).isSome = true := by simp [new]
    have up (pair : s1.mirror.st = 2) : ¬ (s1.mirror.st != 2) = true := by simp [pair]
    refine ⟨fun used => came ?_, fun new apart => came ?_, fun new pair => ⟨fun standby => came ?_, fun active => ?_⟩⟩
    · exact placed.trans (if_pos (Option.isSome_iff_ne_none.mpr used))
    · exact placed.trans ((if_neg (unused new)).trans (if_pos (bne_iff_ne.mpr apart)))
    · exact placed.trans ((if_neg (unused new)).trans ((if_neg (up pair)).trans (if_neg (ne_true_of_eq_false standby))))
    · obtain ⟨t, sent, joining, res, hier⟩ := sendJoin_waits (s := s1.setSlot m x) m true
      exact ⟨t, came (placed.trans ((if_neg (unused new)).trans ((if_neg (up pair)).trans ((if_pos active).trans sent)))),
        joining, res, hier⟩

/-! ### Timers and the leave (R392, R394, R404, R407, R461) -/

section
variable {s : State}

/-- Without slots, partner loss ends the pairing and reports it. -/
theorem losePartner_without_slots (empty : s.mirror.slots = []) (stays : s.mirror.leaving = none) : s.losePartner =
    (s.modMirror fun g => { g with st := 3, byLoss := true, ahead := [], gapSince := none }).fault mirrorSrc 0x60 none
      s.mirror.partner.toNat := by
  simp [State.losePartner, State.usedSlots, State.leaveCheck, State.fault, State.modMirror, empty, stays]

theorem leaveCheck_of_staying (stays : s.mirror.leaving = none) : s.leaveCheck = s := by
  simp [State.leaveCheck, stays]

theorem leaveCheck_of_unpaired (leaving : s.mirror.leaving.isSome = true) (here : s.mirror.left = false)
    (alone : s.mirror.st ≠ 2) :
    s.leaveCheck = (s.modMirror fun g => { g with left := true }).send (.seqTableRequest purposeFullReset 0) := by
  simp [State.leaveCheck, leaving, here, alone]

/-- A wait that a time began is over when its limit has passed. -/
theorem waited_iff {α : Type} {o : Option α} {a : α} (given : o = some a) (begun : α → Nat) (n now : Nat) :
    (o.any fun a => decide (begun a + n ≤ now)) = true ↔ begun a + n ≤ now := by
  subst given
  exact decide_eq_true_iff

theorem joinTimeout_cases (runs : s.mirrorRuns = true) {m t : Nat} {add : Bool}
    (joining : s.mirror.joining = some (m, t, add)) :
    (s.now < t + 10000000 → exec .joinTimeout s = .next s) ∧
    (t + 10000000 ≤ s.now → exec .joinTimeout s = .next
      ((if add then s.setSlot m Slot.initial else s).modMirror fun g => { g with
        joining := none, res := g.res.fail codePartnerMismatch 0 })) := by
  have passed := waited_iff joining (·.2.1) 10000000 s.now
  show (_ → execJoinTimeout s = _) ∧ (_ → execJoinTimeout s = _)
  rw [execJoinTimeout, runs, Bool.true_and]
  refine ⟨fun early => congrArg _ (if_neg (passed.not.mpr (Nat.not_le.mpr early))), fun late => ?_⟩
  rw [if_pos (passed.mpr late), State.joinFailed, joining]
  rfl

/-- HELLO and HEARTBEAT leave in their states only. -/
theorem timers_by_state (runs : s.mirrorRuns = true) (here : s.mirror.left = false) :
    (s.mirror.st = 1 → exec .helloTimer s = .next (s.cPlain 1 (List.replicate 8 0)) ∧ exec .heartbeatTimer s = .next s) ∧
    (s.mirror.st = 2 → exec .heartbeatTimer s = .next (s.cPlain 2 (leBytes 8 s.now)) ∧ exec .helloTimer s = .next s) := by
  have hello : exec .helloTimer s = execHelloTimer s := rfl
  have heartbeat : exec .heartbeatTimer s = execHeartbeatTimer s := rfl
  rw [hello, heartbeat, execHelloTimer, execHeartbeatTimer]
  exact ⟨fun st => by simp [runs, here, st], fun st => by simp [runs, here, st]⟩

/-- A gap that stands asks for the frames up to the first one kept. -/
theorem resendGapTimeout_asks (runs : s.mirrorRuns = true) {t : Nat} {a : Nat × Nat × CFrame}
    (gap : s.mirror.gapSince = some t) (pair : s.mirror.st = 2) (here : s.mirror.left = false) (late : t + 50000 ≤ s.now)
    (one : s.mirror.ahead = [a]) (fits : a.1 ≤ 2 ^ 64) : exec .resendGapTimeout s = .next
      ((s.cPlain 0x31 (leBytes 8 s.mirror.expect ++ leBytes 8 (a.1 - 1))).modMirror fun g => { g with gapSince := some s.now }) := by
  have last : s.mirror.ahead.foldl (fun n e => min n (e.1 - 1)) (2 ^ 64) = a.1 - 1 := by
    rw [one]
    exact Nat.min_eq_right (Nat.le_trans (Nat.sub_le _ _) fits)
  have waited := (waited_iff gap id 50000 s.now).mpr late
  simp only [id] at waited
  show execResendGapTimeout s = _
  rw [execResendGapTimeout]
  simp only [last]
  exact congrArg _ (if_pos (by rw [runs, pair, here, waited]; rfl))

theorem partnerLoss_cases : (s.mirror.st ≠ 2 → exec .partnerLoss s = .next s) ∧
    (s.mirror.st = 2 → s.mirror.heard = [] → exec .partnerLoss s = .next s.losePartner) := by
  show (_ → execPartnerLoss s = _) ∧ (_ → _ → execPartnerLoss s = _)
  rw [execPartnerLoss]
  exact ⟨fun apart => by simp [apart], fun pair silent => by simp [pair, silent]⟩

theorem mirrorLeave_alone (stays : s.mirror.leaving = none) (here : s.mirror.left = false) (alone : s.mirror.st ≠ 2)
    (may : s.mayArrive .mirrorLeave = true) : exec .mirrorLeave s = .next
      (((s.arrive .mirrorLeave).modMirror fun g => { g with leaving := some s.now, left := true }).send
        (.seqTableRequest purposeFullReset 0)) := by
  show execMirrorLeave s = _
  rw [execMirrorLeave, onArrival_of_may _ rfl may, State.arrive_mirror, stays]
  exact congrArg _ (leaveCheck_of_unpaired
    (s := (s.arrive .mirrorLeave).modMirror fun g => { g with leaving := some s.now }) rfl here alone)

theorem mirrorLeave_leaving {t : Nat} (leaving : s.mirror.leaving = some t) (may : s.mayArrive .mirrorLeave = true) :
    exec .mirrorLeave s = .next (s.arrive .mirrorLeave) := by
  show execMirrorLeave s = _
  rw [execMirrorLeave, onArrival_of_may _ rfl may, State.arrive_mirror, leaving]
  rfl

theorem mirrorLeaveExpiry_cases {t : Nat} (leaving : s.mirror.leaving = some t) :
    (s.now < t + 1000000 → exec .mirrorLeaveExpiry s = .next s) ∧
    (t + 1000000 ≤ s.now → s.mirror.left = false → exec .mirrorLeaveExpiry s = .next
      ((s.modMirror fun g => { g with left := true }).send (.seqTableRequest purposeFullReset 0))) := by
  have passed := waited_iff leaving id 1000000 s.now
  simp only [id] at passed
  show (_ → execMirrorLeaveExpiry s = _) ∧ (_ → _ → execMirrorLeaveExpiry s = _)
  rw [execMirrorLeaveExpiry]
  refine ⟨fun early => congrArg _ (if_neg fun h => ?_), fun late here => congrArg _ (if_pos ?_)⟩
  · exact Nat.not_le.mpr early (passed.mp (Bool.and_eq_true_iff.mp h).1)
  · rw [passed.mpr late, here]
    rfl

theorem joinAndLeave : Claims.JoinAndLeave := by
  intro s runs
  refine ⟨fun none => ?_, fun m t add => joinTimeout_cases runs, fun here => (timers_by_state runs here).1,
    fun here => (timers_by_state runs here).2, fun none => ?_, fun t a => resendGapTimeout_asks runs, partnerLoss_cases.1,
    fun pair silent empty stays => ?_, mirrorLeave_alone, fun t leaving => ⟨mirrorLeave_leaving leaving,
      mirrorLeaveExpiry_cases leaving⟩⟩
  · show execJoinTimeout s = _
    simp [execJoinTimeout, none]
  · show execResendGapTimeout s = _
    simp [execResendGapTimeout, none]
  · rw [partnerLoss_cases.2 pair silent, losePartner_without_slots empty stays]
end

/-- Settles O51: each command by its OP, the record of an ADD rule by rule, and each timer by its condition. -/
theorem mirrorEngine : Obligations.MirrorEngine := ⟨mirrorCommands, joinAndLeave⟩

end Sys2Proof.Machine
end

section
/-! SUPPORT. Contrail frames: which are taken, what a frame in its turn does at a standby and at an active member, and what requests of an engine leave as it was (R392, R394, R400-R409). -/

namespace Sys2Proof.Machine

/-! ### What requests of an engine change -/

/-- Two states that differ in the memory hierarchy and in what is under way only. -/
def State.AsksTo (s t : State) : Prop := ∃ h i, t = { s with hier := h, inflight := i }

section
variable {s t u : State}

theorem State.AsksTo.refl (s : State) : s.AsksTo s := ⟨_, _, rfl⟩

theorem State.AsksTo.trans (a : s.AsksTo t) (b : t.AsksTo u) : s.AsksTo u := by
  obtain ⟨_, _, rfl⟩ := a
  obtain ⟨_, _, rfl⟩ := b
  exact ⟨_, _, rfl⟩

theorem State.AsksTo.ite {c : Prop} [Decidable c] (a : s.AsksTo t) (b : s.AsksTo u) : s.AsksTo (if c then t else u) := by
  split
  · exact a
  · exact b

theorem State.AsksTo.mirror (a : s.AsksTo t) : t.mirror = s.mirror := by
  obtain ⟨_, _, rfl⟩ := a
  rfl

theorem send_asksTo (s : State) (m : Instr) : s.AsksTo (s.send m) := ⟨_, _, rfl⟩

theorem stat_asksTo (s : State) (n : Nat) (f : Stat → Stat) : s.AsksTo (s.stat n f) := by
  obtain ⟨l, counted⟩ := stat_eq s n f
  exact ⟨_, _, counted⟩

theorem request_asksTo (s : State) (m : Instr) : s.AsksTo (s.request m) := by
  have written {b : Bool} {l : List (Nat × Nat × Nat)} {n k : Nat} {x : TagInfo} :
      s.AsksTo (if b then { s with hier := { s.hier with wrLines := l } } else s.setTag n k x) :=
    .ite ⟨_, _, rfl⟩ ⟨_, _, rfl⟩
  unfold State.request
  split
  · exact .refl s
  · exact .ite ((written.trans (stat_asksTo ..)).trans (.trans (.ite ⟨_, _, rfl⟩ (.refl _)) (send_asksTo ..)))
      (written.trans (send_asksTo ..))

theorem issue_asksTo {node : Nat} {tid : BitVec 12} {cls : BitVec 3} {mk : Hdr → Instr} {h : Hdr}
    (sent : s.issue node tid cls mk = some (h, t)) : s.AsksTo t := by
  simp only [State.issue, Option.map_eq_some_iff, Prod.mk.injEq] at sent
  obtain ⟨_, -, -, rfl⟩ := sent
  exact request_asksTo ..

theorem sendPieces_asksTo (node : Nat) (tid : BitVec 12) (cls : BitVec 3) (fuel : Nat) (s : State)
    (todo : List (Nat × List Byte)) (ids : List (Nat × Nat)) :
    s.AsksTo (s.sendPieces node tid cls fuel todo ids).2.2 := by
  induction fuel generalizing s todo ids with
  | zero => exact .refl s
  | succ fuel ih =>
    unfold State.sendPieces
    split
    · exact .refl s
    · split
      · exact ih ..
      · simp only
        split
        · exact (request_asksTo ..).trans (ih ..)
        · split
          next sent => exact (issue_asksTo sent).trans (ih ..)
          next => exact .refl s

theorem startWrite_mirror (s : State) (node : Nat) (tid : BitVec 12) (cls : BitVec 3) (why : WriteFor)
    (todo : List (Nat × List Byte)) : (s.startWrite node tid cls why todo).mirror = s.mirror :=
  (sendPieces_asksTo ..).mirror
end

/-! ### Which frames are taken (R403, R404, R409) -/

/-- The types of numbered frames. -/
abbrev Numbered (ty : Nat) : Prop := ty ≠ 1 ∧ ty ≠ 2 ∧ ty ≠ 0x31 ∧ ty ≠ 0x3F

section
variable {s : State} {f : CFrame} {ty : Nat}

/-- A frame that arrives has been heard on its port. -/
def State.heardFrame (s : State) (f : CFrame) : State := s.modMirror fun g => { g with heard := tput g.heard f.port s.now }

section
variable (runs : s.mirrorRuns = true) (here : s.mirror.left = false) (link : s.mirrorLink f.port = true)
include runs here link

omit runs here link in
theorem contrailIn_apart (apart : s.mirror.st = 0 ∨ s.mirror.st = 3) (ne : ty ≠ 1) : s.contrailIn ty f = s := by
  obtain apart | apart := apart <;> simp [State.contrailIn, apart, ne]

theorem contrailIn_stranger (pair : s.mirror.st = 2) (other : s.idOk f = false) :
    s.contrailIn ty f = s.cViolation 0x41 f := by
  simp [State.contrailIn, runs, here, link, pair, other]

theorem contrailIn_length (pair : s.mirror.st = 2) (id : s.idOk f = true) (bad : lenOk ty f.payload = false) :
    s.contrailIn ty f = s.cViolation 0x42 f := by
  simp [State.contrailIn, runs, here, link, pair, id, bad]

theorem contrailIn_hello (fresh : s.mirror.st = 1) (id : s.idOk f = true) (good : lenOk 1 f.payload = true) :
    s.contrailIn 1 f = s.helloIn f := by
  simp [State.contrailIn, runs, here, link, fresh, id, good]
end

section
variable (takes : s.TakesFrame ty f)
include takes

theorem contrailIn_taken (num : Numbered ty) : s.contrailIn ty f =
    if f.seq.toNat < s.mirror.expect then s.heardFrame f
    else if s.mirror.expect < f.seq.toNat then
      if s.mirror.ahead.any fun a => a.1 == f.seq.toNat then s.heardFrame f
      else (s.heardFrame f).modMirror fun g => { g with
        ahead := g.ahead ++ [(f.seq.toNat, ty, f)], gapSince := g.gapSince <|> some s.now }
    else
      let u := ((s.heardFrame f).modMirror fun g => { g with expect := g.expect + 1 }).cFrame ty f
      State.cAhead (u.mirror.ahead.length + 1) u := by
  obtain ⟨runs, here, link, pair, id, good⟩ := takes
  obtain ⟨hello, heartbeat, resend, cut⟩ := num
  have awake : ¬ (!s.mirrorRuns || s.mirror.left || !s.mirrorLink f.port || s.mirror.st == 0 ||
      (s.mirror.st == 3 && !(s.mirror.byLoss && ty == 1))) = true := by simp [runs, here, link, pair]
  refine (if_neg awake).trans ((if_neg (by simp [id])).trans ((if_neg (by simp [good])).trans ?_))
  refine (if_neg (by simp [hello])).trans ((if_neg (by simp [pair])).trans ?_)
  exact (if_neg (by simp [heartbeat])).trans ((if_neg (by simp [resend])).trans (if_neg (by simp [cut])))
end
/-- A number already taken changes nothing but the time heard. -/
theorem contrailIn_old (takes : s.TakesFrame ty f) (num : Numbered ty) (old : f.seq.toNat < s.mirror.expect) :
    s.contrailIn ty f = s.heardFrame f := (contrailIn_taken takes num).trans (if_pos old)

/-- A number above a gap is kept. -/
theorem contrailIn_ahead (takes : s.TakesFrame ty f) (num : Numbered ty) (gap : s.mirror.expect < f.seq.toNat)
    (alone : s.mirror.ahead = []) (closed : s.mirror.gapSince = none) : s.contrailIn ty f =
      (s.heardFrame f).modMirror fun g => { g with ahead := [(f.seq.toNat, ty, f)], gapSince := some s.now } := by
  rw [contrailIn_taken takes num, if_neg (Nat.lt_asymm gap), if_pos gap]
  simp [alone, closed, State.heardFrame, State.modMirror]

/-- The frames of a slot or of the command channel, with their types (Table 15-5). -/
noncomputable def numberedFrames (f : CFrame) : List (Instr × Nat) :=
  [(.joinFrame f, 0x10), (.joinOkFrame f, 0x11), (.contrailDrop f, 0x12), (.stateFrame f, 0x20),
    (.linesFrame f, 0x21), (.outputFrame f, 0x22), (.endFrame f, 0x23), (.ackFrame f, 0x24), (.intentFrame f, 0x25),
    (.grantFrame f, 0x26), (.sentFrame f, 0x27), (.nakFrame f, 0x30)]

/-- Each numbered frame reaches the engine with its type. -/
theorem numberedFrames_reach {p : Instr × Nat} (listed : p ∈ numberedFrames f) (s : State) :
    exec p.1 s = .next (s.contrailIn p.2 f) ∧ Numbered p.2 := by
  simp only [numberedFrames, List.mem_cons, List.not_mem_nil, or_false] at listed
  rcases listed with rfl | rfl | rfl | rfl | rfl | rfl | rfl | rfl | rfl | rfl | rfl | rfl <;>
    exact ⟨rfl, by simp [Numbered]⟩

/-- Without a slot the end of a pairing is its report. -/
theorem breakSlots_without_slots (kind : Nat) (empty : s.mirror.slots = []) (stays : s.mirror.leaving = none) :
    s.breakSlots kind = (s.modMirror fun g => { g with st := 3, byLoss := false, ahead := [], gapSince := none }).fault
      mirrorSrc 0x61 none kind := by
  simp [State.breakSlots, State.usedSlots, State.leaveCheck, State.fault, State.modMirror, empty, stays]

theorem helloIn_pairs (fresh : s.mirror.st = 1) : ∃ t, s.helloIn f = t ∧ t.mirror.st = 2 ∧ t.mirror.seq = 1 ∧
    t.mirror.expect = 1 ∧ t.mirror.log = [] ∧ tfind? t.mirror.mac f.port = some f.mac ∧ t.mirror.slots = s.mirror.slots ∧
    t.out = s.out := by
  have first : (s.mirror.st == 1 || (s.mirror.st == 3 && s.mirror.byLoss)) = true := by simp [fresh]
  exact ⟨_, if_pos first, rfl, rfl, rfl, rfl, tfind_tput_same .., rfl, rfl⟩

/-- What a frame without a turn does: HEARTBEAT, RESEND and BREAK. -/
theorem contrailIn_unnumbered (takes : s.TakesFrame ty f) :
    (ty = 2 → s.contrailIn ty f = s.heardFrame f) ∧
    (ty = 0x31 → s.contrailIn ty f =
      (s.mirror.log.filter fun e => e.1 != 0 && leAt f.payload 0 8 ≤ e.1 && e.1 ≤ leAt f.payload 8 8).foldl
        (fun s e => s.mirrorOut f.port e.2.2.2) (s.heardFrame f)) ∧
    (ty = 0x3F → s.contrailIn ty f = (s.heardFrame f).breakSlots (leAt f.payload 0 1)) := by
  obtain ⟨runs, here, link, pair, id, good⟩ := takes
  have awake : ¬ (!s.mirrorRuns || s.mirror.left || !s.mirrorLink f.port || s.mirror.st == 0 ||
      (s.mirror.st == 3 && !(s.mirror.byLoss && ty == 1))) = true := by simp [runs, here, link, pair]
  have reach {t : State} (other : ty ≠ 1) (h : _ = t) : s.contrailIn ty f = t :=
    (if_neg awake).trans ((if_neg (by simp [id])).trans ((if_neg (by simp [good])).trans
      ((if_neg (by simp [other])).trans ((if_neg (by simp [pair])).trans h))))
  refine ⟨fun is => reach (by omega) ?_, fun is => reach (by omega) ?_, fun is => reach (by omega) ?_⟩ <;> subst is
  · exact if_pos rfl
  · exact (if_neg (by decide)).trans (if_pos rfl)
  · exact (if_neg (by decide)).trans ((if_neg (by decide)).trans (if_pos rfl))

/-- A wrong CHECK or FCS is only counted while the limit is not passed. -/
theorem cViolation_check
    (few : ((s.mirror.viols.filter fun t => s.now < t + 1000000) ++ [s.now]).length ≤ s.mirror.limit.toNat) :
    s.cViolation 0x40 f = s.modMirror fun g => { g with
      viols := (s.mirror.viols.filter fun t => s.now < t + 1000000) ++ [s.now],
      pv := { g.pv with total := satInc 32 g.pv.total } } :=
  if_neg fun h => Nat.not_lt.mpr few (of_decide_eq_true (Bool.and_eq_true_iff.mp h).1)

/-- While the limit is not passed, a violation keeps the frames that wait behind a gap. -/
theorem cViolation_keeps_ahead (few : s.mirror.viols.length < s.mirror.limit.toNat) (kind : Nat) :
    (s.cViolation kind f).mirror.ahead = s.mirror.ahead := by
  let ts := (s.mirror.viols.filter fun t => s.now < t + 1000000) ++ [s.now]
  let pv := if kind == 0x40 then { s.mirror.pv with total := satInc 32 s.mirror.pv.total }
    else s.mirror.pv.note s.now kind (f.tid.toNat % 4096) f.seq.toNat
  let s1 := s.modMirror fun g => { g with viols := ts, pv := pv }
  have answered : s1.SentTo (if kind == 0x40 then s1
      else s1.cSend 0x30 (f.tid.setWidth 12) 0 false (leBytes 8 kind ++ toBytes f.seq 8)) := by
    split
    · exact .refl s1
    · exact cSend_sentTo ..
  have within : ts.length ≤ s.mirror.limit.toNat := by
    have := List.length_filter_le (fun t => decide (s.now < t + 1000000)) s.mirror.viols
    simp only [ts, List.length_append, List.length_singleton]
    omega
  obtain ⟨_, _, _, _, _, _, answer⟩ := answered
  have counted : s.cViolation kind f = (if kind == 0x40 then s1
      else s1.cSend 0x30 (f.tid.setWidth 12) 0 false (leBytes 8 kind ++ toBytes f.seq 8)) := by
    refine if_neg fun h => ?_
    have past := of_decide_eq_true (Bool.and_eq_true_iff.mp h).1
    rw [answer] at past
    exact Nat.not_lt.mpr within past
  rw [counted, answer]
  rfl

theorem contrailOrder : Claims.ContrailOrder := by
  intro f s runs here link heard ts
  refine ⟨fun p listed => ?_, fun fresh id good => ?_, fun takes => ?_, fun takes old => ?_, fun e takes one new lo hi => ?_,
    fun takes empty stays => ?_, fun pair few => ?_, fun pair id => ?_⟩
  · obtain ⟨reach, num⟩ := numberedFrames_reach (f := f) listed s
    rw [reach]
    exact ⟨fun apart => congrArg _ (contrailIn_apart apart num.1),
      fun pair other => congrArg _ (contrailIn_stranger runs here link pair other),
      fun pair id bad => congrArg _ (contrailIn_length runs here link pair id bad),
      fun takes => ⟨fun old => congrArg _ (contrailIn_old takes num old),
        fun gap alone closed => congrArg _ (contrailIn_ahead takes num gap alone closed)⟩⟩
  · obtain ⟨t, hello, rest⟩ := helloIn_pairs (f := f) fresh
    exact ⟨t, congrArg _ ((contrailIn_hello runs here link fresh id good).trans hello), rest⟩
  · exact congrArg _ ((contrailIn_unnumbered takes).1 rfl)
  · have none : (s.mirror.log.filter fun e => e.1 != 0 && leAt f.payload 0 8 ≤ e.1 && e.1 ≤ leAt f.payload 8 8) = [] :=
      List.filter_eq_nil_iff.mpr fun e kept => by simp [Nat.not_le.mpr (old e kept)]
    refine congrArg _ (((contrailIn_unnumbered takes).2.1 rfl).trans ?_)
    rw [none]
    rfl
  · refine congrArg _ (((contrailIn_unnumbered takes).2.1 rfl).trans ?_)
    rw [one]
    simp [new, lo, hi, heard, State.heardFrame]
  · exact congrArg _ (((contrailIn_unnumbered takes).2.2 rfl).trans (breakSlots_without_slots (s := heard) _ empty stays))
  · exact congrArg _ ((if_neg (by simp [runs, here, link, pair])).trans (cViolation_check few))
  · exact congrArg _ ((if_neg (by simp [runs, here, link, pair])).trans ((if_neg Bool.false_ne_true).trans (if_pos id)))
end

/-! ### A frame whose turn it is (R404) -/

theorem State.SentTo.ahead {s t : State} (a : s.SentTo t) : t.mirror.ahead = s.mirror.ahead := by
  obtain ⟨_, _, _, _, _, _, rfl⟩ := a
  rfl

section
variable {s u : State} {f : CFrame} {ty : Nat}

/-- What the engine has done before it looks at a frame: it has been heard, its number taken, its bytes counted. -/
theorem inTurn_sentTo (s : State) (f : CFrame) : ((s.heardFrame f).modMirror fun g => { g with expect := g.expect + 1 }).SentTo
    (s.inTurn f) := countContrail_sentTo ..

theorem inTurn_keeps (f : CFrame) (s : State) : (s.inTurn f).mirror.ahead = s.mirror.ahead ∧
    (s.inTurn f).mirror.viols = s.mirror.viols ∧ (s.inTurn f).mirror.limit = s.mirror.limit ∧
    (s.inTurn f).mirror.st = s.mirror.st ∧ (s.inTurn f).mirror.res = s.mirror.res ∧ (s.inTurn f).cores = s.cores ∧
    (s.inTurn f).hier = s.hier ∧ (s.inTurn f).now = s.now := by
  obtain ⟨_, _, _, _, _, _, turned⟩ := inTurn_sentTo s f
  rw [turned]
  exact ⟨rfl, rfl, rfl, rfl, rfl, rfl, rfl, rfl⟩

/-- With nothing waiting behind a gap, a frame in its turn is looked at and leaves no gap. -/
theorem contrailIn_turn (takes : s.TakesFrame ty f) (num : Numbered ty) (turn : f.seq.toNat = s.mirror.expect)
    (looks : ((s.heardFrame f).modMirror fun g => { g with expect := g.expect + 1 }).cFrame ty f = u)
    (clear : u.mirror.ahead = []) : s.contrailIn ty f = u.noGap := by
  rw [contrailIn_taken takes num, if_neg (by omega), if_neg (by omega), looks]
  simp [clear, State.cAhead, takeFirst, State.modMirror, State.noGap]

theorem frame_inTurn {i : Instr} (turn : f.seq.toNat = s.mirror.expect) (named : exec i s = .next (s.contrailIn ty f))
    (num : Numbered ty) (takes : s.TakesFrame ty f)
    (looks : ((s.heardFrame f).modMirror fun g => { g with expect := g.expect + 1 }).cFrame ty f = u)
    (clear : u.mirror.ahead = []) : exec i s = .next u.noGap :=
  named.trans (congrArg _ (contrailIn_turn takes num turn looks clear))

/-! #### Frames at a slot -/

section
variable (none : s.slotOf (f.tid.setWidth 12) = none)
include none

theorem joinIn_nowhere : s.joinIn f = s.cViolation 0x43 f := by simp [State.joinIn, none]
theorem dropIn_nowhere : s.dropIn f = s.cViolation 0x43 f := by simp [State.dropIn, none]
theorem stage_nowhere (g : Slot → Slot) : s.stage f ty g = s.cViolation 0x43 f := by simp [State.stage, none]
theorem linesIn_nowhere : s.linesIn f = s.cViolation 0x43 f := by simp [State.linesIn, none]
theorem endIn_nowhere : s.endIn f = s.cViolation 0x43 f := by simp [State.endIn, none]
theorem ackIn_nowhere : s.ackIn f = s.cViolation 0x43 f := by simp [State.ackIn, none]
theorem intentIn_nowhere : s.intentIn f = s.cViolation 0x43 f := by simp [State.intentIn, none]
theorem grantIn_nowhere : s.grantIn f = s.cViolation 0x43 f := by simp [State.grantIn, none]
theorem sentIn_nowhere : s.sentIn f = s.cViolation 0x43 f := by simp [State.sentIn, none]
end

variable {m : Nat} {x : Slot}

section
variable (found : s.slotOf (f.tid.setWidth 12) = some (m, x)) (standby : x.st = .standby)
include found standby

/-- A JOIN that names the slot's ranges begins its copy anew. -/
theorem joinIn_standby (count : leAt f.payload 0 1 = x.ranges.length)
    (lengths : ∀ r, r < x.ranges.length → leAt f.payload (8 + 8 * r) 8 = (x.ranges.getD r (0, 0, 0)).2.1) :
    s.joinIn f = (s.setSlot m { x.discard with
      ended := 0, applied := 0, committed := 0, catchUp := true, contexts := [] }).cSend 0x11 x.tid 0 false [] := by
  have all : ((List.range x.ranges.length).all fun r =>
      leAt f.payload (8 + 8 * r) 8 == (x.ranges.getD r (0, 0, 0)).2.1) = true := by
    simpa using lengths
  simp only [State.joinIn, found]
  exact if_neg (by simp only [standby, count, all]; simp)

/-- A payload of the open epoch that fits is kept and written into the staging area. -/
theorem stage_standby (g : Slot → Slot) (tid : f.tid.toNat < 4096) (epoch : f.epoch.toNat = x.openEpoch)
    (room : 2 * (x.staged + f.payload.length) ≤ x.stageLen) : s.stage f ty g =
      (s.setSlot m { g x with
        staged := x.staged + f.payload.length, stage := x.stage ++ [(x.openEpoch, ty, f.payload)] }).startWrite mirrorNode
          (f.tid.setWidth 12) (s.tenantCls (f.tid.setWidth 12)) (.stage m x.openEpoch)
          [(x.stageBase + x.openEpoch % 2 * (x.stageLen / 2) + x.staged, f.payload)] := by
  simp only [State.stage, found]
  refine (if_neg (by simp [standby, tid])).trans ((if_neg (by simp [epoch])).trans ((if_neg (by omega)).trans rfl))

theorem stage_other_epoch (g : Slot → Slot) (tid : f.tid.toNat < 4096) (other : f.epoch.toNat ≠ x.openEpoch) :
    s.stage f ty g = s.cViolation 0x44 f := by
  simp only [State.stage, found]
  exact (if_neg (by simp [standby, tid])).trans (if_pos (by simp [other]))

omit standby in
theorem linesIn_standby (placed : ∀ r ∈ cutRecs 72 130 f.payload, x.locOk r = true) :
    s.linesIn f = s.stage f 0x21 fun y => { y with nLines := y.nLines + 1 } := by
  have all : (cutRecs 72 130 f.payload).all x.locOk = true := List.all_eq_true.mpr placed
  simp only [State.linesIn, found]
  exact if_neg (by simp only [all]; simp)

theorem endIn_other_epoch (other : f.epoch.toNat ≠ x.openEpoch) : s.endIn f = s.cViolation 0x44 f := by
  simp [State.endIn, found, standby, other]

theorem endIn_standby (epoch : f.epoch.toNat = x.openEpoch) (going : x.endAt = none) (states : leAt f.payload 0 4 = x.nState)
    (lines : leAt f.payload 4 4 = x.nLines) (outs : leAt f.payload 8 4 = x.nOut) : s.endIn f = (s.setSlot m { x with
      endAt := some x.openEpoch, full := bit (f.payload.getD 12 0) 0, nState := 0, nLines := 0, nOut := 0,
      staged := 0 }).standbyAck m := by
  simp only [State.endIn, found]
  exact (if_neg (by simp [standby])).trans (if_neg (by simp [epoch, going, states, lines, outs]))

theorem intentIn_standby {h : Held} (one : x.held = [h]) (whole : h.epoch ≤ x.ended) (first : leAt f.payload 0 8 = h.num)
    (count : leAt f.payload 8 1 = 1) : s.intentIn f = (s.setSlot m { x with held := [{ h with st := 3 }] }).cSend 0x26 x.tid
      f.epoch.toNat false (leBytes 8 h.num ++ leBytes 1 1) := by
  simp [State.intentIn, found, standby, one, first, count, whole]

theorem sentIn_standby {h : Held} (one : x.held = [h]) (granted : h.st = 3) (number : leAt f.payload 0 8 = h.num) :
    s.sentIn f = s.setSlot m { x with held := [] } := by
  simp [State.sentIn, found, standby, one, granted, number]
end

theorem dropIn_standby (found : s.slotOf (f.tid.setWidth 12) = some (m, x)) (standby : x.active = false) :
    s.dropIn f = s.setSlot m Slot.initial := by
  simp [State.dropIn, found, standby]

theorem standbyAck_sentTo (s : State) (m : Nat) : s.SentTo (s.standbyAck m) := by
  rw [State.standbyAck]
  split
  · exact .refl s
  · split
    · exact .refl s
    · exact (setSlot_sentTo ..).trans (cSend_sentTo ..)

/-- A payload for OUTPUT's first part is a whole frame. -/
theorem takeOutput_whole {k : Nat} {b : List Byte} (whole : leAt b 9 1 ≠ 2) (x : Slot) : x.takeOutput k b =
    { x with nOut := x.nOut + 1,
             held := x.held ++ [⟨leAt b 0 8, k, leAt b 8 1 % 8, leAt b 8 1 / 8 % 2, b.drop 16, 1⟩] } :=
  if_neg fun h => whole (beq_iff_eq.mp h)

/-- The frames whose meaning lies with a slot. -/
theorem slotFrames_nowhere {p : Instr × Nat} (listed : p ∈ ([(.joinFrame f, 0x10), (.contrailDrop f, 0x12),
    (.stateFrame f, 0x20), (.linesFrame f, 0x21), (.outputFrame f, 0x22), (.endFrame f, 0x23), (.ackFrame f, 0x24),
    (.intentFrame f, 0x25), (.grantFrame f, 0x26), (.sentFrame f, 0x27)] : List (Instr × Nat)))
    (nowhere : (s.inTurn f).slotOf (f.tid.setWidth 12) = none) : exec p.1 s = .next (s.contrailIn p.2 f) ∧ Numbered p.2 ∧
      ((s.heardFrame f).modMirror fun g => { g with expect := g.expect + 1 }).cFrame p.2 f =
        (s.inTurn f).cViolation 0x43 f := by
  have reach : exec p.1 s = .next (s.contrailIn p.2 f) ∧ Numbered p.2 := numberedFrames_reach (f := f) (by
    simp only [List.mem_cons, List.not_mem_nil, or_false] at listed
    rcases listed with rfl | rfl | rfl | rfl | rfl | rfl | rfl | rfl | rfl | rfl <;> simp [numberedFrames]) s
  refine ⟨reach.1, reach.2, ?_⟩
  simp only [List.mem_cons, List.not_mem_nil, or_false] at listed
  rcases listed with rfl | rfl | rfl | rfl | rfl | rfl | rfl | rfl | rfl | rfl
  · exact joinIn_nowhere nowhere
  · exact dropIn_nowhere nowhere
  · exact stage_nowhere nowhere _
  · exact linesIn_nowhere nowhere
  · exact stage_nowhere nowhere _
  · exact endIn_nowhere nowhere
  · exact ackIn_nowhere nowhere
  · exact intentIn_nowhere nowhere
  · exact grantIn_nowhere nowhere
  · exact sentIn_nowhere nowhere

theorem standbyFrames : Claims.StandbyFrames := by
  intro f s alone turn few s1 t12
  obtain ⟨ahead, viols, limit, -⟩ := inTurn_keeps f s
  have clear : s1.mirror.ahead = [] := ahead.trans alone
  have refused (kind : Nat) : (s1.cViolation kind f).mirror.ahead = [] :=
    (cViolation_keeps_ahead (by rw [viols, limit]; exact few) kind).trans clear
  have looks {ty : Nat} {i : Instr} {u : State} := frame_inTurn (f := f) (ty := ty) (i := i) (u := u) turn
  have sent {u : State} (a : s1.SentTo u) : u.mirror.ahead = [] := a.ahead.trans clear
  refine ⟨fun p listed takes nowhere => ?_, fun m x found is standby passive => ⟨fun takes count lengths => ?_,
    fun takes => ?_, fun tid epoch room => ?_, fun ty i listed takes tid other => ?_,
    fun takes epoch going states lines outs => ?_, fun h takes one whole first count => ?_,
    fun h takes one granted number => ?_⟩⟩
  · obtain ⟨reach, numbered, sees⟩ := slotFrames_nowhere listed nowhere
    exact looks reach numbered takes sees (refused _)
  · exact looks rfl (by decide) takes (joinIn_standby found standby count lengths)
      (sent ((setSlot_sentTo ..).trans (cSend_sentTo ..)))
  · exact looks rfl (by decide) takes (dropIn_standby found passive) (sent (setSlot_sentTo ..))
  · intro k y w
    have staged (z : Slot) : (w (s1.setSlot m z)).mirror.ahead = [] := by
      rw [show (w (s1.setSlot m z)).mirror = (s1.setSlot m z).mirror from startWrite_mirror ..]
      exact sent (setSlot_sentTo ..)
    refine ⟨fun takes => ?_, fun takes placed => ?_, fun takes whole => ?_⟩
    · exact looks rfl (by decide) takes (stage_standby found standby _ tid epoch room) (staged _)
    · exact looks rfl (by decide) takes ((linesIn_standby found placed).trans
        (stage_standby found standby _ tid epoch room)) (staged _)
    · refine looks rfl (by decide) takes ((stage_standby found standby _ tid epoch room).trans ?_) (staged _)
      rw [takeOutput_whole whole]
  · simp only [List.mem_cons, List.not_mem_nil, or_false, Prod.mk.injEq] at listed
    rcases listed with ⟨rfl, rfl⟩ | ⟨rfl, rfl⟩ | ⟨rfl, rfl⟩
    · exact looks rfl (by decide) takes (stage_other_epoch found standby _ tid other) (refused _)
    · exact looks rfl (by decide) takes (stage_other_epoch found standby _ tid other) (refused _)
    · exact looks rfl (by decide) takes (endIn_other_epoch found standby other) (refused _)
  · exact looks rfl (by decide) takes (endIn_standby found standby epoch going states lines outs)
      (sent ((setSlot_sentTo ..).trans (standbyAck_sentTo ..)))
  · exact looks rfl (by decide) takes (intentIn_standby found standby one whole first count)
      (sent ((setSlot_sentTo ..).trans (cSend_sentTo ..)))
  · exact looks rfl (by decide) takes (sentIn_standby found standby one granted number) (sent (setSlot_sentTo ..))

/-! #### Frames at an active member -/

theorem setSlot_slot_same (s : State) (m : Nat) (x : Slot) : (s.setSlot m x).slot m = x := tget_tput_same ..

/-- The slot of an active member whose JOIN was accepted: its FULL epoch begins. -/
def Slot.joined (x : Slot) (now : Nat) : Slot := { x with
  st := .syncing, epoch := 1, since := now, full := true, catchUp := true, ended := 0, acked := 0, committed := 0,
  nState := 0, nLines := 0, nOut := 0, marked := 0, markedNext := 0, heldBytes := 0, volume := 0, held := [],
  nextHeld := 1, phase := .none, capture := none, sealed := [], stopped := false, final := 0 }

/-- The state after an accepted JOIN: the command ends, and the slot's FULL epoch is open. -/
def State.joined (s : State) (m : Nat) : State :=
  (s.setSlot m ((s.slot m).joined s.now)).modMirror fun g => { g with joining := none, res := g.res.done 0 }

theorem joined_ends (s : State) (m : Nat) : (s.joined m).noGap.mirror.joining = none ∧
    (s.joined m).noGap.mirror.res = s.mirror.res.done 0 ∧ (s.joined m).noGap.slot m = (s.slot m).joined s.now ∧
    (s.joined m).noGap.cores = s.cores ∧ (s.joined m).noGap.hier = s.hier :=
  ⟨rfl, rfl, tget_tput_same .., rfl, rfl⟩

theorem joinOkIn_of_joining {t : Nat} {add : Bool} (joining : s.mirror.joining = some (m, t, add))
    (named : f.tid.toNat = (s.slot m).tid.toNat) : s.joinOkIn f = s.joined m := by
  simp only [State.joinOkIn, joining]
  exact if_neg (by simp [named])

theorem joinOkIn_of_none (none : s.mirror.joining = none) : s.joinOkIn f = s.cViolation 0x43 f := by
  simp [State.joinOkIn, none]

theorem nakIn_of_none (none : s.mirror.joining = none) : s.nakIn f = s := by
  simp [State.nakIn, none]

/-- The state after a refused JOIN: the command has failed. -/
def State.refused (s : State) : State :=
  s.modMirror fun g => { g with joining := none, res := g.res.fail codePartnerMismatch 0 }

theorem refused_noGap (s : State) : s.refused.noGap = s.modMirror fun g => { g with
    joining := none, gapSince := none, res := g.res.fail codePartnerMismatch 0 } := rfl

/-- A NAK of the JOIN that runs fails the command. -/
theorem nakIn_of_joining {t : Nat} (joining : s.mirror.joining = some (m, t, false))
    (named : (s.slot m).tid.toNat = f.tid.toNat) : s.nakIn f = s.refused := by
  simp only [State.nakIn, State.joinFailed, joining]
  exact if_pos (by simp [named])

section
variable (found : s.slotOf (f.tid.setWidth 12) = some (m, x)) (active : x.active = true)
include found active

theorem dropIn_idle (idle : x.st = .unguarded ∨ x.st = .halted) : s.dropIn f = s := by
  obtain idle | idle := idle <;> simp [State.dropIn, found, active, idle]

theorem dropIn_guarded (guarded : x.st = .guarded) : s.dropIn f = (s.freeHeld m).leaveSlot m .unguarded := by
  simp [State.dropIn, found, active, guarded]

theorem ackIn_guarded (guarded : x.st = .guarded) :
    (x.ended < f.epoch.toNat → s.ackIn f = s.cViolation 0x46 f) ∧
    (f.epoch.toNat ≤ x.ended → f.epoch.toNat ≤ x.acked → s.ackIn f = s) ∧
    (f.epoch.toNat ≤ x.ended → x.acked < f.epoch.toNat → s.ackIn f =
      ((((s.setSlot m { x with acked := f.epoch.toNat, committed := f.epoch.toNat }).logFree x.tid
        f.epoch.toNat).sendIntent m).finalStep m).leaveCheck) := by
  refine ⟨fun late => ?_, fun known old => ?_, fun known new => ?_⟩
  · simp [State.ackIn, found, active, guarded, late]
  · simp [State.ackIn, found, active, guarded, old, Nat.not_lt.mpr known]
  · simp [State.ackIn, found, active, guarded, Nat.not_le.mpr new, Nat.not_lt.mpr known]

theorem grantIn_announced {h : Held} (one : x.held = [h]) (announced : h.st = 2) (first : leAt f.payload 0 8 = h.num)
    (count : leAt f.payload 8 1 = 1) :
    s.grantIn f = (s.handFrame x.tid h).setSlot m { x with held := [{ h with st := 3 }] } := by
  simp [State.grantIn, found, active, one, announced, first, count]

theorem grantIn_nothing (empty : x.held = []) : s.grantIn f = s.cViolation 0x47 f := by
  simp only [State.grantIn, found]
  refine (if_neg (by simp [active])).trans (if_pos ?_)
  rw [empty]
  simp
  omega
end

/-- Nothing held and no final boundary: an ACK goes no further. -/
theorem sendIntent_of_none (empty : (s.slot m).held = []) : s.sendIntent m = s := by
  simp [State.sendIntent, empty]

theorem finalStep_of_none (none : (s.slot m).final = 0) : s.finalStep m = s := by
  simp [State.finalStep, none]

theorem freeHeld_of_none (empty : (s.slot m).held = []) :
    s.freeHeld m = s.setSlot m { s.slot m with held := [] } := by
  simp [State.freeHeld, empty]

theorem kickRanges_of_none (empty : s.hier.queues = []) (rs : List (Nat × Nat × Nat)) : s.kickRanges rs = s := by
  simp [State.kickRanges, empty]

/-- A slot that is neither paused nor stopped, with no request waiting at a home, leaves its state without more ado. -/
theorem leaveSlot_of_quiet (calm : (s.slot m).phase = .none) (going : (s.slot m).stopped = false)
    (empty : s.hier.queues = []) (st : SlotSt) : s.leaveSlot m st = (s.setSlot m { s.slot m with
      st := st, level := 0, phase := .none, capture := none, sealed := [], batch := [], records := [] }).logFree
        (s.slot m).tid (2 ^ 32) := by
  have same : (if (s.slot m).phase == .none then s else s.endPause m) = s := if_pos (beq_iff_eq.mpr calm)
  simp only [State.leaveSlot, same, going]
  exact kickRanges_of_none (s := (s.setSlot m _).logFree _ _) empty _

/-- A DROP leaves a quiet running slot unmirrored. -/
theorem dropIn_leaves (found : s.slotOf (f.tid.setWidth 12) = some (m, x)) (is : s.slot m = x) (active : x.active = true)
    (guarded : x.st = .guarded) (empty : x.held = []) (going : x.stopped = false) (calm : x.phase = .none)
    (quiet : s.hier.queues = []) : ∃ u, s.dropIn f = u ∧ u.mirror.ahead = s.mirror.ahead ∧ (u.slot m).st = .unguarded ∧
      (u.slot m).capture = none ∧ u.hier = s.hier ∧ u.cores = s.cores := by
  have freed := freeHeld_of_none (s := s) (m := m) (is ▸ empty)
  have slot : (s.setSlot m { s.slot m with held := [] }).slot m = { s.slot m with held := [] } := setSlot_slot_same ..
  have left := leaveSlot_of_quiet (s := s.setSlot m { s.slot m with held := [] }) (m := m) (by rw [slot, is]; exact calm)
    (by rw [slot, is]; exact going) quiet .unguarded
  refine ⟨_, (dropIn_guarded found active guarded).trans ((congrArg (State.leaveSlot · m .unguarded) freed).trans left), rfl,
    ?_, ?_, rfl, rfl⟩
  · exact congrArg Slot.st (setSlot_slot_same ..)
  · exact congrArg Slot.capture (setSlot_slot_same ..)

/-- Where nothing is held, no quiesce ends and the member stays, an ACK commits the epoch and frees its records. -/
theorem ack_commits {y : Slot} (e : Nat) (empty : y.held = []) (notFinal : y.final = 0) (stays : s.mirror.leaving = none) :
    ((((s.setSlot m y).logFree x.tid e).sendIntent m).finalStep m).leaveCheck = (s.setSlot m y).logFree x.tid e := by
  have slot : ((s.setSlot m y).logFree x.tid e).slot m = y := setSlot_slot_same s m y
  rw [sendIntent_of_none (by rw [slot, empty]), finalStep_of_none (by rw [slot, notFinal])]
  exact leaveCheck_of_staying stays

theorem activeFrames : Claims.ActiveFrames := by
  intro f s alone turn few s1 t12
  obtain ⟨ahead, viols, limit, st, res, cores, hier, now⟩ := inTurn_keeps f s
  have clear : s1.mirror.ahead = [] := ahead.trans alone
  have refused (kind : Nat) : (s1.cViolation kind f).mirror.ahead = [] :=
    (cViolation_keeps_ahead (by rw [viols, limit]; exact few) kind).trans clear
  have looks {ty : Nat} {i : Instr} {u : State} := frame_inTurn (f := f) (ty := ty) (i := i) (u := u) turn
  refine ⟨fun m t add takes joining named => ?_, fun takes none => ?_, fun takes none => ?_,
    fun m t takes joining named => ?_, fun m x found is active => ⟨fun takes idle => ?_,
    fun takes guarded empty going calm quiet => ?_, fun takes guarded => ?_, fun h takes one announced first count => ?_,
    fun takes empty => ?_⟩⟩
  · have opened := looks (i := .joinOkFrame f) rfl (by decide) takes (joinOkIn_of_joining (s := s1) joining named) clear
    obtain ⟨ended, result, slot, sameCores, sameHier⟩ := joined_ends s1 m
    refine ⟨_, opened, ended, ?_, ?_, ?_, ?_, ?_, ?_, sameCores.trans cores, sameHier.trans hier⟩
    · rw [result, res]
    all_goals rw [slot]
    · rfl
    · rfl
    · rfl
    · exact now
    · rfl
  · exact looks rfl (by decide) takes (joinOkIn_of_none (s := s1) none) (refused _)
  · exact looks rfl (by decide) takes (nakIn_of_none (s := s1) none) clear
  · rw [← refused_noGap]
    exact looks rfl (by decide) takes (nakIn_of_joining (s := s1) joining named) clear
  · exact looks rfl (by decide) takes (dropIn_idle found active idle) clear
  · obtain ⟨u, left, still, st, capture, sameHier, sameCores⟩ :=
      dropIn_leaves found is active guarded empty going calm (hier ▸ quiet)
    exact ⟨_, looks (i := .contrailDrop f) rfl (by decide) takes left (still.trans clear), st, capture, sameHier.trans hier,
      sameCores.trans cores⟩
  · obtain ⟨late, old, new⟩ := ackIn_guarded found active guarded
    refine ⟨fun h => looks rfl (by decide) takes (late h) (refused _), fun k o => looks rfl (by decide) takes (old k o) clear,
      fun k n empty notFinal stays => looks rfl (by decide) takes ((new k n).trans
        (ack_commits _ empty notFinal stays)) clear⟩
  · exact looks rfl (by decide) takes (grantIn_announced found active one announced first count) clear
  · exact looks rfl (by decide) takes (grantIn_nothing found active empty) (refused _)
end

/-- Settles O52, frame by frame: a frame that is not taken, or has no turn, never reaches a slot; one in its turn is looked at
with its slot's state, and since nothing waits behind a gap it leaves none. -/
theorem contrailFrames : Obligations.ContrailFrames := ⟨contrailOrder, standbyFrames, activeFrames⟩

end Sys2Proof.Machine
end

section
/-! SUPPORT. Boundaries, records, seals, capture and application of epochs: what a boundary's commands do, and what the send log leaves as it was (R396, R397, R399-R404, R452, R453). -/

namespace Sys2Proof.Machine

/-! ### What the send log leaves as it was (R404) -/

section
variable {s : State}

theorem writeMem_asksTo (node : Nat) (tid : BitVec 12) (cls : BitVec 3) (fuel : Nat) (s : State) (pa : Nat) (bs : List Byte)
    (ids : List (Nat × Nat)) : s.AsksTo (s.writeMem node tid cls fuel pa bs ids).2 := by
  induction fuel generalizing s pa bs ids with
  | zero => exact .refl s
  | succ fuel ih =>
    unfold State.writeMem
    split
    · exact .refl s
    · simp only
      split
      · exact (request_asksTo ..).trans (ih ..)
      · split
        next sent => exact (issue_asksTo sent).trans (ih ..)
        next => exact .refl s

/-- A record for the send log changes the log and what its writes ask for. -/
theorem logPut_keeps (s : State) (node : Nat) (t : BitVec 12) (e q : Nat) (b : List Byte) : ∃ n l h i,
    (s.logPut node t e q b).2 = { s with mirror := { s.mirror with logNext := n, log := l }, hier := h, inflight := i } := by
  obtain ⟨h, i, written⟩ := writeMem_asksTo node t _ _ _ _ _ _
  exact ⟨_, _, h, i, written⟩

/-- The send log's write, known by what it keeps only: its evaluation is no part of a proof about the slot or the core. -/
theorem logPut_opaque : ∃ put, put = State.logPut ∧ ∀ (s : State) (node : Nat) (t : BitVec 12) (e q : Nat) (b : List Byte),
    ∃ n l h i, (put s node t e q b).2 =
      { s with mirror := { s.mirror with logNext := n, log := l }, hier := h, inflight := i } :=
  ⟨_, rfl, logPut_keeps⟩

/-- A message that waits for writes, or leaves at once, changes no core and no slot. -/
@[simp] theorem hold_core (s : State) (node : Nat) (ws : List (Nat × Nat)) (i : Instr) (g : Nat) :
    (s.hold node ws i).core g = s.core g := by
  rw [State.hold]
  split <;> rfl

@[simp] theorem hold_slot (s : State) (node : Nat) (ws : List (Nat × Nat)) (i : Instr) (m : Nat) :
    (s.hold node ws i).slot m = s.slot m := by
  rw [State.hold]
  split <;> rfl
end

section
variable {s u : State}

/-- The room in the send log depends on the mirror engine only. -/
theorem logRoom_of_mirror (same : u.mirror = s.mirror) (n : Nat) : u.logRoom n = s.logRoom n := by
  simp only [State.logRoom, same]

/-- An arrival takes no message interrupt under way to others. -/
theorem arrive_msgUnderWay (i : Instr) {t : BitVec 12} (calm : s.msgUnderWay t = false) :
    (s.arrive i).msgUnderWay t = false := by
  rw [State.msgUnderWay, List.any_eq_false] at calm ⊢
  exact fun j under => calm j (List.mem_of_mem_erase under)

theorem msgUnderWay_of_inflight (same : u.inflight = s.inflight) (t : BitVec 12) : u.msgUnderWay t = s.msgUnderWay t := by
  simp only [State.msgUnderWay, same]
end

/-! ### The start of a boundary (R396, R397, R452) -/

theorem slotOk_of_lt {m : Nat} (h : m < 128) : slotOk m = true := decide_eq_true h

theorem baseOk_of_lt {n : Nat} (h : n < 4) : baseOk n = true := decide_eq_true h

section
variable {s : State} {m : Nat} {x : Slot} {tid : BitVec 12}

theorem epochBoundaryStart_runs (low : m < 128) (runs : s.mirrorRuns = true) : exec (.epochBoundaryStart m) s = .next (
    if (s.slot m).phase == .none && s.mayBound m &&
      (decide ((s.slot m).since + (s.slot m).epochMs * 1000000 ≤ s.now) ||
        decide ((s.slot m).stageLen ≤ 2 * (s.slot m).size) || (s.slot m).final != 0) && (s.slot m).final != 2
    then s.startBoundary m else s) := by
  show execEpochBoundaryStart m s = _
  rw [execEpochBoundaryStart, onWf_true _ (slotOk_of_lt low)]
  simp only [runs, Bool.true_and]

/-- The slot when its boundary begins. -/
def Slot.bounding (x : Slot) (now : Nat) : Slot := { x with
  phase := .pause (2048 :: pauseUnits.map (1024 + ·)) now, since := now, pausedUnits := [], woken := [], records := [] }

theorem startBoundary_begins (is : s.slot m = x) (notFinal : x.final = 0) :
    s.startBoundary m = (s.setSlot m (x.bounding s.now)).sendAll
      (.routerPauseNotice x.tid :: pauseUnits.map fun u => .pauseNoticeEngine u x.tid) := by
  have kept : (if x.final == 1 then 2 else x.final) = x.final := if_neg (by simp [notFinal])
  simp only [State.startBoundary, is, kept]
  rfl

/-- A notice for a tenant without a slot changes nothing but its arrival. -/
theorem pausing_of_none (absent : s.slotOf tid = none) : s.pausing tid = none := by
  simp [State.pausing, absent]

theorem pausing_of_pause {owing : List Nat} {since : Nat} (found : s.slotOf tid = some (m, x))
    (pause : x.phase = .pause owing since) : s.pausing tid = some (m, x) := by
  simp [State.pausing, found, pause]

theorem notices_without_slot (absent : s.slotOf tid = none) :
    (s.mayArrive (.routerPauseNotice tid) = true →
      exec (.routerPauseNotice tid) s = .next (s.arrive (.routerPauseNotice tid))) ∧
    (s.mayArrive (.routerRecordRequest tid) = true →
      exec (.routerRecordRequest tid) s = .next (s.arrive (.routerRecordRequest tid))) ∧
    (∀ c, c < 576 → s.mayArrive (.pauseNoticeCore c tid) = true →
      exec (.pauseNoticeCore c tid) s = .next (s.arrive (.pauseNoticeCore c tid))) ∧
    ∀ u, unitOk u = true → s.mayArrive (.pauseNoticeEngine u tid) = true →
      exec (.pauseNoticeEngine u tid) s = .next (s.arrive (.pauseNoticeEngine u tid)) := by
  have slot (i : Instr) : (s.arrive i).slotOf tid = none := absent
  have pausing (i : Instr) : (s.arrive i).pausing tid = none := pausing_of_none absent
  refine ⟨fun may => ?_, fun may => ?_, fun c core may => ?_, fun u unit may => ?_⟩
  · show execRouterPauseNotice tid s = _
    rw [execRouterPauseNotice, onArrival_of_may _ rfl may, slot]
  · show execRouterRecordRequest tid s = _
    rw [execRouterRecordRequest, onArrival_of_may _ rfl may]
    simp only [slot]
  · show execPauseNoticeCore c tid s = _
    rw [execPauseNoticeCore, onArrival_of_may _ (coreOk_of_lt core) may]
    simp only [pausing]
  · show execPauseNoticeEngine u tid s = _
    rw [execPauseNoticeEngine, onArrival_of_may _ unit may]
    simp only [pausing]

theorem pauseEngine_keeps (s : State) (u : Nat) (t : BitVec 12) :
    (s.pauseEngine u t).inflight = s.inflight ∧ (s.pauseEngine u t).mirror = s.mirror := by
  simp only [State.pauseEngine]
  split
  · exact ⟨rfl, rfl⟩
  · split <;> exact ⟨rfl, rfl⟩

/-- The router has taken the pause of a tenant: it holds its messages and tells the cores that it shows resident. -/
noncomputable def State.routerPaused (s : State) (m : Nat) (x : Slot) (tid : BitVec 12) (owing cs : List Nat) (since : Nat) : State :=
  (({ s with router := { s.router with paused := s.router.paused.filter (· != tid) ++ [tid] } } : State).setSlot m
    { x with phase := .pause (owing.filter (· != 2048) ++ cs) since }).sendAll (cs.map fun c => .pauseNoticeCore c tid)

section
variable {owing : List Nat} {since : Nat} (found : s.slotOf tid = some (m, x)) (pause : x.phase = .pause owing since)
include found pause

theorem routerPauseNotice_pauses (may : s.mayArrive (.routerPauseNotice tid) = true) :
    let cs := (List.range 576).filter fun c => s.coreEnabled c && s.residentOf c == tid
    ∃ u, exec (.routerPauseNotice tid) s = .next u ∧ u.router.paused = s.router.paused.filter (· != tid) ++ [tid] ∧
      (u.slot m).phase = .pause (owing.filter (· != 2048) ++ cs) since ∧
      u.inflight = s.inflight.erase (.routerPauseNotice tid) ++ cs.map fun c => .pauseNoticeCore c tid := by
  intro cs
  have slot : (s.arrive (.routerPauseNotice tid)).slotOf tid = some (m, x) := found
  refine ⟨(s.arrive (.routerPauseNotice tid)).routerPaused m x tid owing cs since, ?_, rfl,
    congrArg Slot.phase (setSlot_slot_same ..), rfl⟩
  show execRouterPauseNotice tid s = _
  rw [execRouterPauseNotice, onArrival_of_may _ rfl may, slot]
  simp only [pause]
  rfl

/-- A core that is fenced, not enabled or off answers at once. -/
theorem pauseNoticeCore_gone {c : Nat} (core : c < 576) (may : s.mayArrive (.pauseNoticeCore c tid) = true)
    (gone : s.unitFenced c = true ∨ s.coreEnabled c = false ∨ (s.dom c).st = .off) :
    exec (.pauseNoticeCore c tid) s = .next ((s.arrive (.pauseNoticeCore c tid)).send (.pausedNotice c tid)) := by
  have pausing : (s.arrive (.pauseNoticeCore c tid)).pausing tid = some (m, x) := pausing_of_pause found pause
  show execPauseNoticeCore c tid s = _
  rw [execPauseNoticeCore, onArrival_of_may _ (coreOk_of_lt core) may]
  simp only [pausing]
  refine congrArg _ (if_pos ?_)
  show (s.unitFenced c || !s.coreEnabled c || (s.dom c).st == .off || (s.dom (uncoreDomain (c / 48))).st == .off) = true
  obtain h | h | h := gone <;> simp [h]

theorem pauseNoticeCore_met {c : Nat} (core : c < 576) (may : s.mayArrive (.pauseNoticeCore c tid) = true)
    (free : s.unitFenced c = false) (en : s.coreEnabled c = true) (on : (s.dom c).st = .run)
    (uncore : (s.dom (uncoreDomain (c / 48))).st = .run) :
    exec (.pauseNoticeCore c tid) s = .next ((s.arrive (.pauseNoticeCore c tid)).pauseCore m c tid) := by
  have pausing : (s.arrive (.pauseNoticeCore c tid)).pausing tid = some (m, x) := pausing_of_pause found pause
  show execPauseNoticeCore c tid s = _
  rw [execPauseNoticeCore, onArrival_of_may _ (coreOk_of_lt core) may]
  simp only [pausing]
  have here : ¬ (s.unitFenced c || !s.coreEnabled c || (s.dom c).st == .off ||
      (s.dom (uncoreDomain (c / 48))).st == .off) = true := by simp [free, en, on, uncore]
  have up : ¬ ((s.dom c).st == .closing) = true := by simp [on]
  have both : ((s.dom c).st == .run && (s.dom (uncoreDomain (c / 48))).st == .run) = true := by simp [on, uncore]
  exact congrArg _ ((if_neg here).trans ((if_neg up).trans (if_pos both)))

theorem pauseNoticeEngine_gone {u : Nat} (unit : unitOk u = true) (may : s.mayArrive (.pauseNoticeEngine u tid) = true)
    (gone : s.isFenced (unitDomain u) = true ∨ s.domEnabled (unitDomain u) = false ∨ (s.dom (unitDomain u)).st = .off) :
    exec (.pauseNoticeEngine u tid) s =
      .next ((s.arrive (.pauseNoticeEngine u tid)).send (.pausedNotice (1024 + u) tid)) := by
  have pausing : (s.arrive (.pauseNoticeEngine u tid)).pausing tid = some (m, x) := pausing_of_pause found pause
  show execPauseNoticeEngine u tid s = _
  rw [execPauseNoticeEngine, onArrival_of_may _ unit may]
  simp only [pausing]
  refine congrArg _ (if_pos ?_)
  show (s.isFenced (unitDomain u) || !s.domEnabled (unitDomain u) || (s.dom (unitDomain u)).st == .off) = true
  obtain h | h | h := gone <;> simp [h]

/-- An idle engine without queue pairs answers at once. -/
theorem pauseNoticeEngine_idle {u : Nat} (unit : unitOk u = true) (may : s.mayArrive (.pauseNoticeEngine u tid) = true)
    (free : s.isFenced (unitDomain u) = false) (en : s.domEnabled (unitDomain u) = true)
    (on : (s.dom (unitDomain u)).st = .run) (bare : u < 0x10 ∨ 0x12 ≤ u)
    (idle : ((s.arrive (.pauseNoticeEngine u tid)).pauseEngine u tid).tenantWork u tid = false)
    (calm : (s.arrive (.pauseNoticeEngine u tid)).msgUnderWay tid = false) (room : s.logRoom 0 = true) :
    exec (.pauseNoticeEngine u tid) s =
      .next (((s.arrive (.pauseNoticeEngine u tid)).pauseEngine u tid).send (.pausedNotice (1024 + u) tid)) := by
  let s1 := s.arrive (.pauseNoticeEngine u tid)
  have pausing : (s.arrive (.pauseNoticeEngine u tid)).pausing tid = some (m, x) := pausing_of_pause found pause
  show execPauseNoticeEngine u tid s = _
  rw [execPauseNoticeEngine, onArrival_of_may _ unit may]
  simp only [pausing]
  have here : ¬ (s.isFenced (unitDomain u) || !s.domEnabled (unitDomain u) || (s.dom (unitDomain u)).st == .off) = true := by
    simp [free, en, on]
  have up : ¬ ((s.dom (unitDomain u)).st == .closing) = true := by simp [on]
  have runs : ¬ ((s.dom (unitDomain u)).st != .run) = true := by simp [on]
  refine congrArg _ ((if_neg here).trans ((if_neg up).trans ((if_neg runs).trans ?_)))
  obtain ⟨inflight, mirror⟩ := pauseEngine_keeps s1 u tid
  have calm' : (s1.pauseEngine u tid).msgUnderWay tid = false := (msgUnderWay_of_inflight inflight tid).trans calm
  have room' : (s1.pauseEngine u tid).logRoom (512 * 0) = true := (logRoom_of_mirror (s := s) mirror _).trans room
  have other : ¬ (decide (0x10 ≤ u) && decide (u < 0x12)) = true := by simp; omega
  simp only [if_neg other, idle, calm', room', s1, Bool.or_self, Bool.not_true, Bool.false_eq_true, if_false,
    beq_self_eq_true, if_true, State.hold, List.isEmpty_nil]
end

/-! #### A running core takes its notice (R397, R453) -/

theorem drain_of_empty {c : Nat} (empty : (s.core c).sb = []) : s.drain c = s := by
  simp only [State.drain, empty]

theorem pauseCore_elsewhere {c : Nat} (other : (s.core c).tid ≠ tid) :
    s.pauseCore m c tid = s.send (.pausedNotice c tid) := if_pos (by simp [other])

/-- The core as it pauses. -/
def Core.pausing (c : Core) : Core := { c with before := c.run, run := .paused }

/-- A core between instructions, with nothing to store, pauses and logs its record. -/
theorem pauseCore_pauses {c : Nat} (run : (s.core c).run = .running ∨ (s.core c).run = .wfi) (mine : (s.core c).tid = tid)
    (low : swPl (s.core c).sw < 2) (free : swEm (s.core c).sw = false) (ready : (s.core c).stall = .none)
    (stored : (s.core c).sb = []) (calm : s.msgUnderWay tid = false) (room : s.logRoom 512 = true) :
    let u := s.pauseCore m c tid
    u.core c = (s.core c).pausing ∧ (u.slot m).records = (s.slot m).records ++ [(s.core c).pausing.record c] := by
  let s1 := s.setCore c (s.core c).pausing
  have core : s1.core c = (s.core c).pausing := setCore_core_same ..
  have awake : ¬ ((s.core c).run == .off || (s.core c).run == .reset || (s.core c).run == .waitSection ||
      (s.core c).tid != tid) = true := by obtain run | run := run <;> simp [run, mine]
  have between : ¬ ((s.core c).run != .paused && (2 ≤ swPl (s.core c).sw || swEm (s.core c).sw ||
      (s.core c).stall != .none)) = true := by simp [free, ready, Nat.not_le.mpr low]
  have moving : ¬ ((s.core c).run == .paused) = true := by obtain run | run := run <;> simp [run]
  have paused : (if (s.core c).run == .paused then s
      else s.setCore c { s.core c with before := (s.core c).run, run := .paused }) = s1 := if_neg moving
  have drained : s1.drain c = s1 := drain_of_empty (by rw [core]; exact stored)
  have goes : ¬ (!(s.core c).pausing.sb.isEmpty || s1.msgUnderWay tid || !s1.logRoom 512) = true := by
    rw [msgUnderWay_of_inflight (s := s) (u := s1) rfl, calm, logRoom_of_mirror (s := s) (u := s1) rfl, room]
    simp [Core.pausing, stored]
  obtain ⟨put, is, keeps⟩ := logPut_opaque
  unfold State.pauseCore
  rw [← is]
  simp only [if_neg awake, if_neg between, paused, drained, core, if_neg goes, hold_core, hold_slot]
  obtain ⟨_, _, _, _, logged⟩ := keeps (s1.setSlot m _) c tid (s1.slot m).epoch 0 ((s.core c).pausing.record c)
  rw [logged]
  exact ⟨core, congrArg Slot.records (setSlot_slot_same s1 m _)⟩

theorem epochBoundary : Claims.EpochBoundary := by
  intro m tid s low runs
  have start := epochBoundaryStart_runs (s := s) low runs
  refine ⟨fun barred => ?_, fun x is calm may notFinal => ⟨fun early small => ?_, fun due => ?_⟩, notices_without_slot,
    fun x owing since found is pause => ⟨routerPauseNotice_pauses found pause, fun c core may => ⟨pauseNoticeCore_gone found pause
      core may, fun free en on uncore => ?_⟩, fun u unit may => ⟨pauseNoticeEngine_gone found pause unit may,
        pauseNoticeEngine_idle found pause unit may⟩⟩⟩
  · rw [start, if_neg (by simp [barred])]
  · rw [start, if_neg (by simp [is, notFinal, Nat.not_le.mpr early, Nat.not_le.mpr small])]
  · rw [start, if_pos (by simpa [is, calm, may, notFinal] using due), startBoundary_begins is notFinal]
    exact ⟨_, rfl, setSlot_slot_same .., rfl, rfl, rfl⟩
  · rw [pauseNoticeCore_met found pause core may free en on uncore]
    refine ⟨fun other => congrArg _ (pauseCore_elsewhere other), fun run mine low free ready stored calm room => ?_⟩
    obtain ⟨paused, recorded⟩ := pauseCore_pauses (s := s.arrive (.pauseNoticeCore c tid)) (m := m) run mine low free ready
      stored (arrive_msgUnderWay _ calm) room
    refine ⟨_, rfl, paused, ?_⟩
    rw [recorded, paused]
    exact congrArg (fun y : Slot => y.records ++ _) is
end

/-! ### Records, seals and the end of a boundary (R396, R397, R453) -/

/-- A record that was not read holds no vector. -/
theorem vectors_of_unread : ((List.range 512).filter fun v => ([] : List Byte).getD v 0 != 0) = [] :=
  List.filter_eq_nil_iff.mpr fun v _ => by simp

section
variable {s : State} {m : Nat} {x : Slot} {tid : BitVec 12}

section
variable (found : s.slotOf tid = some (m, x))
include found

theorem pausedNotice_counts {u since : Nat} {owing : List Nat} (unit : pausedOk u = true) (pause : x.phase = .pause owing since)
    (may : s.mayArrive (.pausedNotice u tid) = true) :
    let s1 (p : Phase) : State := (s.arrive (.pausedNotice u tid)).setSlot m { x with
      phase := p, pausedUnits := insertNew x.pausedUnits u }
    ((owing.filter (· != u)) ≠ [] →
      exec (.pausedNotice u tid) s = .next (s1 (.pause (owing.filter (· != u)) since))) ∧
    ((owing.filter (· != u)) = [] →
      exec (.pausedNotice u tid) s = .next ((s1 (.record since)).send (.routerRecordRequest tid))) := by
  intro s1
  have slot : (s.arrive (.pausedNotice u tid)).slotOf tid = some (m, x) := found
  show (_ → execPausedNotice u tid s = _) ∧ (_ → execPausedNotice u tid s = _)
  rw [execPausedNotice, onArrival_of_may _ unit may]
  simp only [slot, pause]
  refine ⟨fun more => ?_, fun last => ?_⟩
  · have going : (owing.filter (· != u)).isEmpty = false := by simpa using more
    simp only [going, Bool.false_eq_true, if_false]
    rfl
  · simp only [last, List.isEmpty_nil, if_true]
    rfl

theorem pausedNotice_recorded {since : Nat} (record : x.phase = .record since)
    (may : s.mayArrive (.pausedNotice 2048 tid) = true) :
    exec (.pausedNotice 2048 tid) s = .next ((s.arrive (.pausedNotice 2048 tid)).startSeal m) := by
  have slot : (s.arrive (.pausedNotice 2048 tid)).slotOf tid = some (m, x) := found
  show execPausedNotice 2048 tid s = _
  rw [execPausedNotice, onArrival_of_may _ (by decide) may]
  simp only [slot, record]
  rfl

/-- The router's record is logged and kept with the slot's other records. -/
theorem routerRecorded_logs {since : Nat} (record : x.phase = .record since) (bytes : List Byte) :
    ((s.routerRecorded tid bytes).slot m).records = x.records ++ [routerRecord tid
      (((List.range 512).filter fun v => bytes.getD v 0 != 0) ++
        (s.router.held.filter fun h => h.1 == tid).map fun h => h.2.toNat)] := by
  obtain ⟨put, is, keeps⟩ := logPut_opaque
  unfold State.routerRecorded
  rw [← is]
  simp only [found, record, hold_slot]
  obtain ⟨_, _, _, _, logged⟩ := keeps (s.setSlot m _) routerNode tid x.epoch 0 _
  rw [logged]
  exact congrArg Slot.records (setSlot_slot_same s _ _)

theorem routerRecordRequest_cases {since : Nat} (record : x.phase = .record since)
    (may : s.mayArrive (.routerRecordRequest tid) = true) :
    let s1 := s.arrive (.routerRecordRequest tid)
    (s.router.posts.any (fun p => p.tid == tid) = true →
      exec (.routerRecordRequest tid) s = .next (s1.send (.routerRecordRequest tid))) ∧
    (s.router.posts = [] → s.logRoom 512 = true →
      (s.pitEn = true → exec (.routerRecordRequest tid) s = .next (s1.startRead routerNode tid (s.tenantCls tid)
        (.routerRecord tid) (chunksOf (s.pitBase + 512 * tid.toNat) 512))) ∧
      (s.pitEn = false → exec (.routerRecordRequest tid) s = .next (s1.routerRecorded tid []))) := by
  intro s1
  have slot : (s.arrive (.routerRecordRequest tid)).slotOf tid = some (m, x) := found
  show (_ → execRouterRecordRequest tid s = _) ∧ (_ → _ → (_ → execRouterRecordRequest tid s = _) ∧
    (_ → execRouterRecordRequest tid s = _))
  rw [execRouterRecordRequest, onArrival_of_may _ rfl may]
  simp only [slot, record]
  refine ⟨fun posting => congrArg _ (if_pos ?_), fun quiet room => ?_⟩
  · exact Bool.or_eq_true_iff.mpr (.inl posting)
  · have ready : ¬ ((s1.router.posts.any fun p => p.tid == tid) || !s1.logRoom 512) = true := by
      rw [logRoom_of_mirror (s := s) (u := s1) rfl, room, show s1.router.posts = [] from quiet]
      simp
    exact ⟨fun opened => congrArg _ ((if_neg ready).trans (if_pos opened)),
      fun closed => congrArg _ ((if_neg ready).trans (if_neg (ne_true_of_eq_false closed)))⟩

theorem sealNotice_met {n : Nat} {owing : List Nat} (base : n < 4) (seals : x.phase = .seal owing)
    (may : s.mayArrive (.sealNotice n tid) = true) :
    let s1 := s.arrive (.sealNotice n tid)
    exec (.sealNotice n tid) s = .next (if !owing.contains n then s1
      else
        let u := if x.walked.contains n then s1 else s1.walkSeal m n x
        if u.sealing n then u.send (.sealNotice n tid)
        else (u.setSlot m { u.slot m with sealed := insertNew (u.slot m).sealed n }).send (.sealedNotice n tid)) := by
  intro s1
  have slot : (s.arrive (.sealNotice n tid)).slotOf tid = some (m, x) := found
  show execSealNotice n tid s = _
  rw [execSealNotice, onArrival_of_may _ (baseOk_of_lt base) may]
  simp only [slot, seals]
  rfl

theorem sealNotice_cases {n : Nat} {owing : List Nat} (is : s.slot m = x) (base : n < 4) (seals : x.phase = .seal owing)
    (may : s.mayArrive (.sealNotice n tid) = true) :
    (owing.contains n = false → exec (.sealNotice n tid) s = .next (s.arrive (.sealNotice n tid))) ∧
    (owing.contains n = true → x.walked.contains n = true →
      (s.sealing n = true → exec (.sealNotice n tid) s = .next ((s.arrive (.sealNotice n tid)).send (.sealNotice n tid))) ∧
      (s.sealing n = false → exec (.sealNotice n tid) s = .next
        (((s.arrive (.sealNotice n tid)).setSlot m { x with sealed := insertNew x.sealed n }).send (.sealedNotice n tid)))) ∧
    (owing.contains n = true → x.walked.contains n = false →
      let u := (s.arrive (.sealNotice n tid)).walkSeal m n x
      (u.sealing n = true → exec (.sealNotice n tid) s = .next (u.send (.sealNotice n tid))) ∧
      (u.sealing n = false → exec (.sealNotice n tid) s = .next
        ((u.setSlot m { u.slot m with sealed := insertNew (u.slot m).sealed n }).send (.sealedNotice n tid)))) := by
  rw [sealNotice_met found base seals may]
  have owed (h : owing.contains n = true) : ¬ (!owing.contains n) = true := by rw [h]; simp
  refine ⟨fun no => congrArg _ (if_pos (by rw [no]; rfl)), fun yes walked => ?_, fun yes fresh => ?_⟩
  · simp only [if_neg (owed yes), if_pos walked]
    rw [show (s.arrive (.sealNotice n tid)).slot m = x from is]
    exact ⟨fun busy => congrArg _ (if_pos busy), fun quiet => congrArg _ (if_neg (ne_true_of_eq_false quiet))⟩
  · simp only [if_neg (owed yes), if_neg (ne_true_of_eq_false fresh)]
    exact ⟨fun busy => congrArg _ (if_pos busy), fun quiet => congrArg _ (if_neg (ne_true_of_eq_false quiet))⟩

theorem sealedNotice_cases {n : Nat} {owing : List Nat} (base : n < 4) (seals : x.phase = .seal owing)
    (may : s.mayArrive (.sealedNotice n tid) = true) :
    (owing.filter (· != n) ≠ [] → exec (.sealedNotice n tid) s =
      .next ((s.arrive (.sealedNotice n tid)).setSlot m { x with phase := .seal (owing.filter (· != n)) })) ∧
    (owing.filter (· != n) = [] → exec (.sealedNotice n tid) s =
      .next (((s.arrive (.sealedNotice n tid)).setSlot m { x with phase := .seal [] }).resumeTenant m)) := by
  have slot : (s.arrive (.sealedNotice n tid)).slotOf tid = some (m, x) := found
  show (_ → execSealedNotice n tid s = _) ∧ (_ → execSealedNotice n tid s = _)
  rw [execSealedNotice, onArrival_of_may _ (baseOk_of_lt base) may]
  simp only [slot, seals]
  refine ⟨fun more => congrArg _ (if_neg (by simpa using more)), fun last => ?_⟩
  rw [last]
  rfl
end

/-- A pause that has not ended within 1 ms. -/
def Slot.late (x : Slot) (now : Nat) : Bool :=
  match x.phase with
  | .pause _ t => t + 1000000 ≤ now
  | .record t => t + 1000000 ≤ now
  | _ => false

/-- A late boundary waits to be begun again 100 µs later; no other is abandoned. -/
theorem boundaryAbandon_cases (low : m < 128) (runs : s.mirrorRuns = true) (is : s.slot m = x) :
    (x.late s.now = false → exec (.boundaryAbandon m) s = .next s) ∧
    (x.late s.now = true → ∃ u, exec (.boundaryAbandon m) s = .next u ∧ (u.slot m).phase = .retry (u.now + 100000)) := by
  show (_ → execBoundaryAbandon m s = _) ∧ (_ → ∃ u, execBoundaryAbandon m s = .next u ∧ _)
  rw [execBoundaryAbandon, onWf_true _ (slotOk_of_lt low), is]
  refine ⟨fun early => congrArg _ (if_neg ?_), fun late => ⟨_, congrArg _ (if_pos ?_), ?_⟩⟩
  · exact fun h => Bool.false_ne_true (early.symm.trans (Bool.and_eq_true_iff.mp h).2)
  · exact Bool.and_eq_true_iff.mpr ⟨runs, late⟩
  · exact congrArg Slot.phase (setSlot_slot_same ..)

theorem boundaryRetry_cases (low : m < 128) (runs : s.mirrorRuns = true) (is : s.slot m = x) :
    (x.phase = .none → exec (.boundaryRetry m) s = .next s) ∧
    ∀ t, x.phase = .retry t → (s.now < t → exec (.boundaryRetry m) s = .next s) ∧
      (t ≤ s.now → s.mayBound m = true → exec (.boundaryRetry m) s = .next (s.startBoundary m)) := by
  show (_ → execBoundaryRetry m s = _) ∧ ∀ t, _ → (_ → execBoundaryRetry m s = _) ∧ (_ → _ → execBoundaryRetry m s = _)
  rw [execBoundaryRetry, onWf_true _ (slotOk_of_lt low), is]
  refine ⟨fun calm => by simp only [calm], fun t retry => ?_⟩
  simp only [retry]
  exact ⟨fun early => congrArg _ (if_neg (by simp [Nat.not_le.mpr early])),
    fun due may => congrArg _ (if_pos (by simp [runs, due, may]))⟩

theorem boundaryRecords : Claims.BoundaryRecords := by
  intro m tid x s low found is named
  refine ⟨fun u owing since unit pause may => pausedNotice_counts found unit pause may, fun since record => ⟨fun may => ?_,
    fun may => ?_⟩, fun owing n seals base => ⟨sealNotice_cases found is base seals, sealedNotice_cases found base seals⟩,
    fun runs => ⟨fun calm => ⟨?_, (boundaryRetry_cases low runs is).1 calm⟩, fun owing t pause => ?_,
      (boundaryRetry_cases low runs is).2⟩⟩
  · have slot : (s.arrive (.pausedNotice 2048 tid)).slot m = x := is
    rw [pausedNotice_recorded found record may, State.startSeal, slot, ← named]
    rfl
  · obtain ⟨posting, quiet⟩ := routerRecordRequest_cases found record may
    refine ⟨posting, fun empty room => ⟨(quiet empty room).1, fun noHeld closed => ⟨_, (quiet empty room).2 closed, ?_⟩⟩⟩
    have logged := routerRecorded_logs (s := s.arrive (.routerRecordRequest tid)) found record []
    rwa [vectors_of_unread, show (s.arrive (.routerRecordRequest tid)).router.held = [] from noHeld] at logged
  · exact (boundaryAbandon_cases low runs is).1 (by simp [Slot.late, calm])
  · obtain ⟨early, late⟩ := boundaryAbandon_cases low runs is
    exact ⟨fun soon => early (by simp [Slot.late, pause, soon]), fun due => late (by simp [Slot.late, pause, due])⟩
end

/-! ### Capture and application of epochs (R399, R400, R401, R402) -/

section
variable {s : State} {m : Nat} {x : Slot}

theorem captureRead_idle (low : m < 128) (idle : (s.slot m).capture = none) : exec (.captureRead m) s = .next s := by
  show execCaptureRead m s = _
  rw [execCaptureRead, onWf_true _ (slotOk_of_lt low)]
  simp only [idle]

/-- In a FULL epoch the first line of the first range is read first. -/
theorem nextLine_full {base len track : Nat} (ranges : x.ranges = [(base, len, track)]) (full : x.full = true)
    (long : 128 ≤ len) (k : Nat) : s.nextLine x k x.lineCount 0 0 = some (0, 0) := by
  have fuel : x.lineCount = 1 + len / 64 + 1 := by simp [Slot.lineCount, ranges]
  have inside : ¬ len / 64 ≤ 0 := by omega
  rw [fuel, State.nextLine]
  simp only [ranges, List.getElem?_cons_zero, if_neg inside, full, Bool.true_or, if_true]

theorem captureRead_cases {k base len track : Nat} (low : m < 128) (is : s.slot m = x) (walk : x.capture = some (k, 0, 0))
    (ranges : x.ranges = [(base, len, track)]) (full : x.full = true) (long : 128 ≤ len) (runs : s.mirrorRuns = true)
    (paired : s.mirror.st = 2) (stays : s.mirror.leaving = none) (noHeld : x.held = []) (noBatch : x.batch = []) :
    (s.capturing m = true ∨ s.logRoom (512 * x.records.length + 16384) = false → exec (.captureRead m) s = .next s) ∧
    (s.capturing m = false → s.logRoom (512 * x.records.length + 16384) = true → exec (.captureRead m) s =
      .next (s.startRead mirrorNode x.tid (s.tenantCls x.tid) (.capture m k 0 0) [(base, 64)])) := by
  show (_ → execCaptureRead m s = _) ∧ (_ → _ → execCaptureRead m s = _)
  rw [execCaptureRead, onWf_true _ (slotOk_of_lt low)]
  have room : 72 * ([] : List (List Byte)).length + 512 * x.records.length + 0 + 16384 = 512 * x.records.length + 16384 := by
    simp
  simp only [is, walk, noHeld, noBatch, List.filter_nil, List.foldl_nil, room, nextLine_full ranges full long]
  refine ⟨fun wait => congrArg _ (if_pos ?_), fun free fits => ?_⟩
  · obtain busy | tight := wait
    · simp [busy]
    · simp [tight]
  · rw [if_neg (by simp [runs, paired, stays, fits, free])]
    simp [ranges]

theorem readFailed_capture {k n i tag : Nat} {r : Reader} (why : r.why = .capture m k n i) (pa : Nat) :
    s.readFailed tag r 0 pa = s.haltSlot m pa := by
  simp only [State.readFailed, why]

theorem readDone_capture {k n i tag : Nat} {r : Reader} (why : r.why = .capture m k n i) :
    s.readDone tag r = s.captured m k n i r.got := by
  simp only [State.readDone, why]

/-- A captured line joins a batch that has room, and the walk goes on behind it. -/
theorem captured_batches {k a b n i : Nat} (walk : (s.slot m).capture = some (k, a, b)) (room : (s.slot m).batch.length < 127)
    (got : List Byte) : s.captured m k n i got = s.setSlot m { s.slot m with
      batch := (s.slot m).batch ++ [leBytes 8 (n * 2 ^ 60 + 64 * i) ++ got], capture := some (k, n, i + 1) } := by
  have same : ¬ (k != k) = true := by simp
  rw [State.captured]
  simp only [walk, if_neg same]
  exact if_neg (by rw [setSlot_slot_same]; simp; omega)

theorem epochApply_runs (low : m < 128) (is : s.slot m = x) : exec (.epochApply m) s = .next (
    if s.mirrorRuns && x.st == .standby && decide (x.applied + 1 ≤ x.ended) &&
      !s.writers.any (fun w => w.why == .apply m (x.applied + 1)) then
      if (x.applyWrites (x.applied + 1)).isEmpty then s.applyDone m (x.applied + 1)
      else s.startWrite mirrorNode x.tid (s.tenantCls x.tid) (.apply m (x.applied + 1)) (x.applyWrites (x.applied + 1))
    else s) := by
  show execEpochApply m s = _
  rw [execEpochApply, onWf_true _ (slotOk_of_lt low), is]

theorem captureAndApply : Claims.CaptureAndApply := by
  intro m s low
  refine ⟨captureRead_idle low, fun nothing => ?_, fun x k base len track is walk ranges full long runs paired stays noHeld
    noBatch => captureRead_cases low is walk ranges full long runs paired stays noHeld noBatch, ?_, ?_⟩
  · rw [epochApply_runs low rfl]
    refine congrArg _ (if_neg ?_)
    obtain h | h := nothing
    · simp [h]
    · simp [Nat.not_le.mpr (Nat.lt_succ_of_le h)]
  · intro h line k n i d r s1 why x
    refine ⟨fun pa fails => (curdata_of_readFails fails).trans (congrArg _ (readFailed_capture why pa)), fun ends => ?_⟩
    rw [curdata_of_readEnds ends, readDone_capture why]
    refine ⟨fun idle => congrArg _ ?_, fun a b walk room => congrArg _ (captured_batches walk room _)⟩
    have idle' : (s1.slot m).capture = none := idle
    simp only [State.captured, idle']
  · intro x is standby whole runs calm
    have due : (s.mirrorRuns && x.st == .standby && decide (x.applied + 1 ≤ x.ended) &&
      !s.writers.any (fun w => w.why == .apply m (x.applied + 1))) = true := by simp [runs, standby, whole, calm]
    rw [epochApply_runs low is, if_pos due]
    exact ⟨fun nothing => congrArg _ (if_pos (by simp [nothing])), fun work => congrArg _ (if_neg (by simpa using work))⟩
end

/-- Settles O53: each command of a boundary runs with its arrival taken, and what it logs leaves the slot and the core as
they were. -/
theorem epochs : Obligations.Epochs := ⟨epochBoundary, boundaryRecords, captureAndApply⟩

end Sys2Proof.Machine
end
